-- ==== Sys2Proof/Word.lean ====
section
/-! DEFINITION. The word types of the block and the constant names of their widths. -/
namespace Sys2Proof

/-- One byte of a buffer, a fabric beat or a memory (R14). -/
abbrev Byte := BitVec 8

/-- A 32-bit register of the register port (R42). -/
abbrev Word := BitVec 32

/-- A 64-bit limb, stack entry, address or nanosecond count (R402, R479). -/
abbrev Limb := BitVec 64

/-- A byte string, lowest address first (R14). -/
abbrev Bytes := List Byte

end Sys2Proof
end

