-- ==== Sys2Proof/Syntax.lean ====
section
/-! DEFINITION. The commands of the block: one constructor of `Instr` per row of the table of operations and
events, with the data that the row's source supplies. -/
namespace Sys2Proof

/-- Clock domains that the block requests (table of `clk_req_d` under R69). -/
inductive ClkDomain where
  | reg | fab0 | fab1 | disp | lane | dig | pke | ent | kl | nvm | time | bist | tally
deriving DecidableEq, Repr

/-- Power islands (R69): lanes 0 to 8, digest cluster, easel cluster, entropy sources, core. -/
inductive Island where
  | lane (n : Fin 9) | dig | easel | ent | core
deriving DecidableEq, Repr

/-- Engines that run strokes (R201): a lane or a digest engine. -/
inductive Engine where
  | lane (n : Nat) | dig (e : Nat)
deriving DecidableEq, Repr

/-- Self-tests (R542). -/
inductive TestKind where
  | lbist | mbist | kat
deriving DecidableEq, Repr

/-- One beat of a fabric read return: its number, data, check bits and status (R47, R51, R53, R55). -/
structure ReadBeat where
  beat : Nat
  data : BitVec 256
  chk  : BitVec 18
  stat : BitVec 2
deriving DecidableEq, Repr

/-- One beat of a key-lift answer (R59): status, data, attributes, check bits, last. -/
structure KlBeat where
  status : BitVec 2
  data   : BitVec 64
  attr   : BitVec 16
  code   : BitVec 9
  last   : Bool
deriving DecidableEq, Repr

/-- What a word-code check of a scrubbed word finds (R499, R548). -/
inductive CheckOutcome where
  | good | correctable | uncorrectable
deriving DecidableEq, Repr

/-- The 8,192 samples of a noise source in a window (R450), and the position of the last of them in the source's period (R459). -/
structure SourceWindow where
  bits : BitVec 8192
  pos  : BitVec 16
deriving DecidableEq, Repr

/-- A sample of a noise source: the source, and the sample's position in the source's period (R459). -/
structure SourceSample where
  src : Nat
  pos : BitVec 16
deriving DecidableEq, Repr

/-- An easel whose instruction may yield within (R428), and whether the compare at that yield's checkpoint agrees (R427). -/
structure YieldingEasel where
  e     : Nat
  agree : Bool
deriving DecidableEq, Repr

/-- The memories under the word code that the scrubber reads (R37, R500). -/
inductive ScrubMem where
  | lane (n : Nat) | dig (e : Nat) | canvas (e : Nat) | table | palette | ctxCache | keyCache
  | dispatcher | config | gallery
deriving DecidableEq, Repr

/-- The lane group windows and the broadcast window (R298). -/
inductive GroupWin where
  | group (g : Fin 4) | broadcast
deriving DecidableEq, Repr

/-- The five meter and scheduling registers of a ring (R187). -/
inductive MeterReg where
  | cfg | rate | burst | level | sched
deriving DecidableEq, Repr

/-- The commands. Index operands are natural numbers whose ranges `Instr.wf` gives; `id` names an admitted request;
`e` names an easel; `g` is GUARD and the rest of a sketch instruction is its immediate (R404, R407). -/
inductive Instr where
  -- resets and cold start
  | porAssert | porRelease | blkRstAssert
  | coldStart (tst : Bool)
  | tstModeChange (v : Bool)
  | primerData (lo hi : Byte)
  | nvmError
  | imageVerified (agree : Bool)
  | selfTestDone (unit : Nat) (kind : TestKind) (sig : BitVec 128)
  -- clocks, power, retention, voltage
  | registerPortWake
  | clockAck (d : ClkDomain) (v : Bool)
  | clockAckLoss (d : ClkDomain)
  | powerAck (isl : Island) (v : Bool)
  | powerAckLoss (isl : Island)
  | retentionAck (isl : Island) (v : Bool)
  | retAck (isl : Island)
  | islandIdleTimeout (isl : Island)
  | islandWake (isl : Island)
  | vstepEcho (v : BitVec 2)
  | vstep
  -- fabric, key lift, extension port
  | fabricReadComplete (port : Fin 2) (txn : Nat) (beats : List ReadBeat)
  | fabricWriteAck (port : Fin 2) (txn : Nat) (stat : BitVec 2)
  | fabricTimeout (port : Fin 2) (write : Bool) (txn : Nat)
  | keyLiftResponse (beats : List KlBeat)
  | klTimeout
  | cxResponse (e : Nat) (data : Limb) (err : Bool)
  | cxTimeout (e : Nat)
  -- time
  | timeAlign (past : Nat)
  | timeLoad (sec : BitVec 48) (ns : BitVec 32)
  | timeMiss | timeSync | slowingEnd | timeNowRead
  -- rings, meters, scheduler
  | doorbell (f n : Nat) (v : Word)
  | meterRefill
  | strokeGrant (e : Engine)
  | strokeCommit (e : Engine)
  | duplicateMismatch (e : Engine)
  | moderationTimeout (f n : Nat)
  | easelGrant (e : Nat)
  -- background activities
  | rotation
  | fieldSelfTest
  | scrub (m : ScrubMem) (idx : Nat) (o : CheckOutcome)
  | ageMeasurement (u : Nat) (slack : BitVec 10)
  | telemetrySnapshot (f : Nat)
  | lifeHours
  | tallyScan (bad : List (Nat × Bool))
  | tallyWriteDurable
  -- faults
  | faultCapture (src : BitVec 8) (tag : BitVec 5) (detail : BitVec 16)
  | faultClassify
  | collectorMismatch (logic : Bool)
  -- entropy
  | entropyWindowEnd (lane : Nat) (jit met : SourceWindow)
  | sourceHealthFail (src : SourceSample)
  | sourceStartupPass (src : Nat)
  | estimatePeriodEnd (src n1 neq maxrun aptmax : Nat)
  | entropyStartTimeout
  | entropyWaitTimeout (id : Nat)
  | entWordTimeout
  -- gate list
  | gateSwapEffect
  | eligibilityStart (gate : Fin 8)
  | eligibilityEnd (gate : Fin 8)
  | prewake (gate : Fin 8)
  -- ends of operations that run on
  | functionResetDrained (f : Nat)
  | deepSleepDrained
  | galleryExtendComplete
  -- register commands
  | functionEnable (f : Nat)
  | functionDisable (f : Nat)
  | epochBump (f : Nat)
  | functionReset (f : Nat) (byM : Bool)
  | fnPmSleep (f : Nat)
  | fnPmRun (f : Nat)
  | fnFence (f : Nat)
  | entWord (f : Nat)
  | ringEnable (f n : Nat) (v : Word)
  | ringIrqWrite (f n : Nat) (v : Word)
  | vectorUnmask (f v : Nat)
  | meterConfigWrite (f n : Nat) (viaAlias : Bool) (r : MeterReg) (v : Word)
  | deepSleepRequest
  | gateSwap (v : Word)
  | ctxTableEnable | ctxTableDisable | genBump
  | keyInvalidate (v : Word)
  | galleryExtend (v : Word)
  | entropyEnable | entropyDisable
  | rawModeEnter (sel : BitVec 4)
  | rawModeExit (sel : BitVec 4)
  | faultPendingClear (v : Word)
  | rearm
  | faultInjectArm (v : Word)
  | readClearCounter (addr : BitVec 24)
  | bistCommand (kind : BitVec 2)
  | vretry | measureAll
  | laneCounterClear (n : Nat) (freeze : Bool)
  | digestCounterClear (e : Nat) (freeze : Bool)
  | easelCounterClear (e : Nat) (freeze : Bool)
  | laneGroupWrite (w : GroupWin) (off : BitVec 10) (v : Word)
  | laneGroupRead (w : GroupWin) (off : BitVec 10)
  | tallyRegisterWrite (idx : Nat) (v : Word)
  | registerWrite (addr : BitVec 24) (size : BitVec 2) (v : Word)
  -- descriptor operations
  | nop (id : Nat) | fence (id : Nat)
  | ecbEncrypt (id : Nat) | ecbDecrypt (id : Nat) | cbcEncrypt (id : Nat) | cbcDecrypt (id : Nat)
  | ctr (id : Nat) | xtsEncrypt (id : Nat) | xtsDecrypt (id : Nat)
  | gcmEncrypt (id : Nat) | gcmDecrypt (id : Nat) | ccmEncrypt (id : Nat) | ccmDecrypt (id : Nat)
  | gmacGenerate (id : Nat) | gmacVerify (id : Nat) | cmacGenerate (id : Nat) | cmacVerify (id : Nat)
  | chacha20 (id : Nat) | chachaPolyEncrypt (id : Nat) | chachaPolyDecrypt (id : Nat)
  | keyWrap (id : Nat) | keyUnwrap (id : Nat)
  | cbcHmacEncrypt (id : Nat) | cbcHmacVerifyDecrypt (id : Nat) | ctrHmac (id : Nat)
  | hash (id : Nat) | hashPartial (id : Nat) | hmac (id : Nat) | hmacVerify (id : Nat) | hmacPartial (id : Nat)
  | stencilOut (id : Nat) | stencilIn (id : Nat) | sealRecord (id : Nat) | sealCheck (id : Nat)
  | ecdsaVerify (id : Nat) (agree : Bool) | eddsaVerify (id : Nat) (agree : Bool)
  | eddsaBatch (id : Nat) (agree : Bool)
  | rsaVerifyPss (id : Nat) (agree : Bool) | rsaVerifyPkcs1 (id : Nat) (agree : Bool)
  | rsaPublic (id : Nat) (agree : Bool) | modexpPublic (id : Nat) (agree : Bool)
  | pointCheck (id : Nat) (agree : Bool)
  | curveLoad (id : Nat) (agree : Bool) | sketchCall (id : Nat)
  | randomFill (id : Nat) | randomKey (id : Nat)
  | ctxCreate (id : Nat) | ctxDestroy (id : Nat) | ctxRotate (id : Nat) | ctxExport (id : Nat)
  | ctxImport (id : Nat) | ctxSnapshot (id : Nat) | ctxFlush (id : Nat)
  -- sketch instructions
  | skNop (e : Nat) (g : BitVec 4) | skEnd (e : Nat) (g : BitVec 4) (agree : Bool)
  | skYield (e : Nat) (g : BitVec 4) (agree : Bool)
  | skJmp (e : Nat) (g : BitVec 4) (rel : BitVec 20) | skCall (e : Nat) (g : BitVec 4) (rel : BitVec 20)
  | skRet (e : Nat) (g : BitVec 4) | skDbnz (e : Nat) (g : BitVec 4) (rel : BitVec 20)
  | skPushi (e : Nat) (g : BitVec 4) (imm : BitVec 20) | skPushs (e : Nat) (g : BitVec 4) (imm : BitVec 20)
  | skPushx (e : Nat) (g : BitVec 4) (imm : BitVec 20)
  | skDup (e : Nat) (g : BitVec 4) | skDrop (e : Nat) (g : BitVec 4) | skSwap (e : Nat) (g : BitVec 4)
  | skOver (e : Nat) (g : BitVec 4) | skRot (e : Nat) (g : BitVec 4)
  | skPick (e : Nat) (g : BitVec 4) (k : BitVec 5) | skDepth (e : Nat) (g : BitVec 4)
  | skAdd (e : Nat) (g : BitVec 4) | skAdc (e : Nat) (g : BitVec 4) | skSub (e : Nat) (g : BitVec 4)
  | skSbc (e : Nat) (g : BitVec 4) | skCmp (e : Nat) (g : BitVec 4)
  | skAddi (e : Nat) (g : BitVec 4) (imm : BitVec 20)
  | skAnd (e : Nat) (g : BitVec 4) | skOr (e : Nat) (g : BitVec 4) | skXor (e : Nat) (g : BitVec 4)
  | skNot (e : Nat) (g : BitVec 4)
  | skShl (e : Nat) (g : BitVec 4) (sh : BitVec 7) | skShr (e : Nat) (g : BitVec 4) (sh : BitVec 7)
  | skSar (e : Nat) (g : BitVec 4) (sh : BitVec 7) | skRol (e : Nat) (g : BitVec 4) (sh : BitVec 7)
  | skClz (e : Nat) (g : BitVec 4) | skCtz (e : Nat) (g : BitVec 4)
  | skBfx (e : Nat) (g : BitVec 4) (w1 lsb : BitVec 6) | skBfi (e : Nat) (g : BitVec 4) (w1 lsb : BitVec 6)
  | skPerm (e : Nat) (g : BitVec 4) | skBswap (e : Nat) (g : BitVec 4)
  | skLd (e : Nat) (g : BitVec 4) (seg : BitVec 4) (off : BitVec 16)
  | skSt (e : Nat) (g : BitVec 4) (seg : BitVec 4) (off : BitVec 16)
  | skLdx (e : Nat) (g : BitVec 4) (seg : BitVec 4) (off : BitVec 16)
  | skStx (e : Nat) (g : BitVec 4) (seg : BitVec 4) (off : BitVec 16)
  | skSeglen (e : Nat) (g : BitVec 4) (seg : BitVec 4)
  | skCopy (e : Nat) (g : BitVec 4)
  | skMul (e : Nat) (g : BitVec 4) | skRdml (e : Nat) (g : BitVec 4) (agree : Bool)
  | skRdmh (e : Nat) (g : BitVec 4) (agree : Bool)
  | skRdsr (e : Nat) (g : BitVec 4) (sr : BitVec 4) | skWrfl (e : Nat) (g : BitVec 4)
  | gzSetmod (e : YieldingEasel) (g : BitVec 4) (slot : Bool) | gzCurve (e : Nat) (g : BitVec 4) (slot order : Bool)
  | gzSelm (e : Nat) (g : BitVec 4) (slot : Bool)
  | gzIn (e : Nat) (g : BitVec 4) (seg : BitVec 4) (d : BitVec 5)
  | gzOut (e : Nat) (g : BitVec 4) (seg : BitVec 4) (a : BitVec 5) (agree : Bool)
  | gzSeti (e : Nat) (g : BitVec 4) (seg : BitVec 4) (d b : BitVec 5)
  | gzMov (e : Nat) (g : BitVec 4) (seg : BitVec 4) (d a : BitVec 5)
  | gzAdd (e : Nat) (g : BitVec 4) (seg : BitVec 4) (d a b : BitVec 5)
  | gzSub (e : Nat) (g : BitVec 4) (seg : BitVec 4) (d a b : BitVec 5)
  | gzNeg (e : Nat) (g : BitVec 4) (seg : BitVec 4) (d a : BitVec 5)
  | gzMmul (e : Nat) (g : BitVec 4) (seg : BitVec 4) (d a b : BitVec 5)
  | gzMsqr (e : Nat) (g : BitVec 4) (seg : BitVec 4) (d a : BitVec 5)
  | gzInv (e : YieldingEasel) (g : BitVec 4) (seg : BitVec 4) (d a : BitVec 5)
  | gzCmp (e : Nat) (g : BitVec 4) (seg : BitVec 4) (a b : BitVec 5) (agree : Bool)
  | customerExtension (e : Nat) (g : BitVec 4) (opc : BitVec 4) (imm : BitVec 20)
  | rawCaptureBeat (data : BitVec 256)
deriving DecidableEq, Repr

end Sys2Proof
end

