-- ==== Sys2Proof/Config.lean ====
section
/-! DEFINITION. The values and choices that the specification leaves open: constants without a body, so that no
statement can rest on them. -/
namespace Sys2Proof.Config

/-- The fabric port (true is port 1) that carries an access whose port R492 leaves to the block; applied to the
counter `State.free` (log entry 4). -/
opaque freePort : Nat → Bool

/-- The local frequency error that the time unit estimates from the offsets of successive loads, in units of 1 ns per
10^9 ns; the text before R481 gives no formula. Applied to the last estimate and the new offset (log entry 5). -/
opaque rateEstimate : Int → Int → Int

/-- A choice that the specification leaves to the block or to chance (log entries 6 and 32); applied to the counter
`State.free` and reduced to its range where it is used. -/
opaque freeNat : Nat → Nat

/-- The pke cycles that GZ_INV takes on an operand and a modulus: R423 gives only a bound (log entry 7). -/
opaque invCycles : Nat → Nat → Nat

/-- How often a built-in operation of an easel yields: R443 places its sketch in the mask library, whose text the specification does not
give (log entry 8). Applied to the descriptor, the inputs, and whether the independent check is added. -/
opaque builtinYields : Bytes → Bytes → Bool → Nat

/-- The pke cycles that a built-in operation runs between two yields (log entry 29), applied to the same and to the yields before. -/
opaque builtinCycles : Bytes → Bytes → Bool → Nat → Nat

end Sys2Proof.Config
end

