-- ==== Sys2Proof/Machine/Table.lean ====
section
/-! DEFINITION. Sparse tables keyed by a number, in one canonical form, for register files and memories: keys rise
strictly and no entry equals what an unlisted key reads as. -/
namespace Sys2Proof.Machine

/-- A sparse table: pairs of key and value. What an unlisted key reads as is the `d` of the operations. -/
abbrev Tbl (α : Type) := List (Nat × α)

/-- The value at a key. -/
def tget {α : Type} (d : Nat → α) : Tbl α → Nat → α
  | [], i => d i
  | (k, v) :: t, i => if k = i then v else tget d t i

/-- The table without a key. -/
def terase {α : Type} (i : Nat) : Tbl α → Tbl α
  | [] => []
  | (k, v) :: t => if k = i then terase i t else (k, v) :: terase i t

/-- Insert at the place that keeps the keys rising. -/
def tinsert {α : Type} (i : Nat) (x : α) : Tbl α → Tbl α
  | [] => [(i, x)]
  | (k, v) :: t => if i < k then (i, x) :: (k, v) :: t else (k, v) :: tinsert i x t

/-- Write a value at a key; writing the default removes the entry. -/
def tset {α : Type} [DecidableEq α] (d : Nat → α) (t : Tbl α) (i : Nat) (x : α) : Tbl α :=
  if x = d i then terase i t else tinsert i x (terase i t)

/-- Every key of `t` lies above `i`. -/
def tabove {α : Type} (i : Nat) (t : Tbl α) : Bool := t.all (fun e => decide (i < e.1))

/-- The canonical form: keys rise strictly and no entry holds the default. -/
def Tbl.wf {α : Type} [DecidableEq α] (d : Nat → α) : Tbl α → Bool
  | [] => true
  | (k, v) :: t => decide (v ≠ d k) && tabove k t && Tbl.wf d t

/-- Put an element before the first that it may stand before. -/
def putBy {α : Type} (le : α → α → Bool) (x : α) : List α → List α
  | [] => [x]
  | y :: t => if le x y then x :: y :: t else y :: putBy le x t

/-- A list in the order of `le`; elements that stand equal keep their order. -/
def sortBy {α : Type} (le : α → α → Bool) : List α → List α
  | [] => []
  | x :: t => putBy le x (sortBy le t)

end Sys2Proof.Machine
end

