-- ==== Sys2Proof/Machine/Bits.lean ====
section
/-! DEFINITION. Byte orders, byte strings and bit fields (R12, R14), used by every unit. -/
namespace Sys2Proof.Machine

/-- A byte string of `n` zeros. -/
def zeros (n : Nat) : Bytes := List.replicate n 0

/-- Little-endian value of a byte string (R14). -/
def leNat : Bytes → Nat
  | [] => 0
  | b :: t => b.toNat + 256 * leNat t

/-- Big-endian value of a byte string (network order). -/
def beNat (b : Bytes) : Nat := leNat b.reverse

/-- The low `n` bytes of a value, little-endian. -/
def natLE : Nat → Nat → Bytes
  | 0, _ => []
  | n + 1, v => BitVec.ofNat 8 v :: natLE n (v / 256)

/-- The low `n` bytes of a value, big-endian. -/
def natBE (n v : Nat) : Bytes := (natLE n v).reverse

/-- `len` bytes from offset `off`; bytes past the end read 0. -/
def slice (b : Bytes) (off len : Nat) : Bytes :=
  let p := (b.drop off).take len
  p ++ zeros (len - p.length)

/-- Little-endian field of a byte string. -/
def fieldLE (b : Bytes) (off len : Nat) : Nat := leNat (slice b off len)

/-- One byte of a byte string. -/
def byteAt (b : Bytes) (i : Nat) : Byte := b.getD i 0

/-- Exclusive or of two byte strings, as long as the shorter. -/
def xorBytes (a b : Bytes) : Bytes := List.zipWith (· ^^^ ·) a b

/-- Overwrite `b` from offset `off` with `p`; bytes of `p` past the end of `b` are dropped. -/
def overwrite (b : Bytes) (off : Nat) (p : Bytes) : Bytes :=
  (b.take off ++ p ++ b.drop (off + p.length)).take b.length

/-- Cut into pieces of `n` bytes, the last perhaps shorter; `fuel` bounds the number of pieces. -/
def chunksF (n : Nat) : Nat → Bytes → List Bytes
  | 0, _ => []
  | _, [] => []
  | f + 1, b => b.take n :: chunksF n f (b.drop n)

/-- Cut into pieces of `n` bytes. -/
def chunks (n : Nat) (b : Bytes) : List Bytes := chunksF n b.length b

/-- Zero-pad to the next multiple of `n`. -/
def padTo (n : Nat) (b : Bytes) : Bytes := b ++ zeros ((n - b.length % n) % n)

/-- Number of pieces of `n` in `len`, rounded up. -/
def ceilDiv (len n : Nat) : Nat := (len + n - 1) / n

/-- Bits [h:l] of a register value (R12). -/
def fld (v : Word) (h l : Nat) : Nat := v.toNat / 2 ^ l % 2 ^ (h + 1 - l)

/-- Bit `i` of a register value. -/
def bitOf (v : Word) (i : Nat) : Bool := v.getLsbD i

/-- A field value placed at bit `l`. -/
def at_ (x l : Nat) : Word := BitVec.ofNat 32 (x * 2 ^ l)

/-- A flag placed at bit `l`. -/
def flag (b : Bool) (l : Nat) : Word := if b then BitVec.ofNat 32 (2 ^ l) else 0

/-- The bits of `v` under the mask `m`, the others from `old`. -/
def merge (old v m : Word) : Word := (old &&& ~~~m) ||| (v &&& m)

/-- Saturating successor at `2^w - 1`. -/
def satSucc (w : Nat) (n : Nat) : Nat := if n + 1 < 2 ^ w then n + 1 else 2 ^ w - 1

/-- The two's complement value of the low `w` bits. -/
def toSigned (w n : Nat) : Int := if n % 2 ^ w < 2 ^ (w - 1) then (n % 2 ^ w : Int) else (n % 2 ^ w : Int) - 2 ^ w

/-- The low 64 bits of an integer. -/
def limbOfInt (i : Int) : Limb := BitVec.ofInt 64 i

/-- Replace element `i` of a list. -/
def setAt {α : Type} (l : List α) (i : Nat) (x : α) : List α := l.set i x

/-- All of the bytes are zero. -/
def allZero (b : Bytes) : Bool := b.all (· == 0)

end Sys2Proof.Machine
end

