-- ==== Sys2Proof/Machine/RegMap.lean ====
section
/-! DEFINITION. The register map (R554-R563): names, addresses, reset values and write masks of every register. -/
namespace Sys2Proof.Machine

/-- Register names of the index tables (R562, R563); the last group lies in every function window. -/
inductive RegName where
  | blkId | blkCaps | fabTimeout | startStatus | primerVersion | primerFloor | blkPm | pmCfg | islandStatus
  | bgCfg | scrubCount | fnCfg | fnCtxBase | fnCtxLimit | fnResetM | winBaseLo | winBaseHi | winLimitLo
  | winLimitHi | fltCtrl | fltPermCfg | fltPend | fltIrqEn | fltFirst | fltFirstDetail | fltFirstTimeLo
  | fltFirstTimeHi | fltLastMinor | fltInj | fltState | fltCount | fltReact | tly | tlyWear | tlyStatus
  | tlyRefuseLast | tlyRepairCount | tlyWriteCount | gal | galCount | galExtData | galExtCtrl | galLastInfo
  | galLast | entCtrl | entStatus | entCfg | entLevel | entRct | entApt | entEst | entWindowCount
  | entDiscardCount | entUnavailCount | entSrcStatus | entSrcBias | entSrcCorr | entSrcMaxrun | entSrcAptmax
  | entRawCtrl | entRawStatus | entRawAddrLo | entRawAddrHi | entRawLen | laneStatus | laneCntCtrl
  | laneStrokeCount | laneRetryCount | laneCoverCount | laneBusyCount | laneAuthFailCount | laneGroup
  | laneBcastDiff | groupWin | bcastWin | digStatus | digCntCtrl | digBlockCount | digRetryCount
  | digCoverCount | digBusyCount | easelCfg | easelRecover | easelCurveValid | easelCurveLoaded
  | easelAnchorValid | easelLegacyCount | easelStatus | easelCntCtrl | easelCompCount | easelRetryCount
  | easelRejectCount | easelYieldCount | easelBusyCount | easelCurve | easelAnchor | schedCfg | gateCtrl
  | gateLead | gateAdminBaseLo | gateAdminBaseHi | gateAdminCycle | gateAdminLen | gateChangeLo | gateChangeHi
  | gateOperBaseLo | gateOperBaseHi | gateOperCycle | gateOperLen | gateAdminIvl | gateAdminGates | gateOperIvl
  | gateOperGates | schedDefer | aMeterCfg | aMeterRate | aMeterBurst | aMeterLevel | aRingSched | ctxTableCtrl
  | ctxTableSize | ctxTableBaseLo | ctxTableBaseHi | ctxCacheStatus | ctxResvCount | ctxWbCount | klCtrl
  | klStatus | klRefuseCount | klTimeoutCount | klLastRefuse | timeNowLo | timeNowHi | timeStatus | timeCfg
  | timeHoldover | timeOffset | timeLoadCount | timeRejectCount | timeMissCount | timeStepCount | bistCmd
  | bistUnit | bistStatus | bistRotate | bistFieldCfg | bistSig | ageCtrl | ageCfg | agePlan | ageEnd | ageUnit
  | ageLast | ageProj | stnInfo | stnHeadCount | stnReplayCount | stnMismatchCount | stnPendWaitCount
  | stnHeadRetryCount | stnDir | stnStep | libInfo | libCode | skFaultCount | skLastFault | skLastPc | libEntry
  | ringBaseLo | ringBaseHi | ringCfg | ringIrq | ringHead | ringTail | ringFetch | ringStatus | ringDoneCount
  | meterCfg | meterRate | meterBurst | meterLevel | ringSched | ringDb | fnCtrl | fnStatus | fnReset | fnPm
  | fnFence | fnCtxBaseV | fnCtxLimitV | fnEpoch | fnHaltLo | fnHaltHi | entWord | entWordStatus | fnWinBaseLo
  | fnWinBaseHi | fnWinLimitLo | fnWinLimitHi | vecAddrLo | vecAddrHi | vecData | vecCtrl | telSeq | telTimeLo
  | telTimeHi | telDone | telRetried | telAuthFail | telRefused | telDenied | telLate | telEntropy | telOther
  | telBytesLo | telBytesHi | telRingDone | galView | galCountView
deriving DecidableEq, Repr

/-- What the map says of a register name: base, stride and count of its two indexes, reset value, the mask of RW (and SO)
bits, the mask of RWL bits, whether a read clears it (RC), whether it lies in the function windows (then `base` is the
offset and the first index is the function), and its count in M's window where that is smaller. -/
structure RegRow where
  name : RegName
  base : Nat
  s1 : Nat
  c1 : Nat
  s2 : Nat
  c2 : Nat
  reset : Word
  rw : Word
  rwl : Word
  rc : Bool
  win : Bool
  lim : Nat
deriving DecidableEq, Repr

/-- Rows of the map, part 1. -/
def regRows1 : List RegRow :=
  [⟨.blkId, 0x0, 0x0, 1, 0x0, 1, 0x5A400003, 0x0, 0x0, false, false, 0⟩,
   ⟨.blkCaps, 0x4, 0x0, 1, 0x0, 1, 0x102449, 0x0, 0x0, false, false, 0⟩,
   ⟨.fabTimeout, 0x8, 0x0, 1, 0x0, 1, 0x64, 0xFFFF, 0x0, false, false, 0⟩,
   ⟨.startStatus, 0x40, 0x0, 1, 0x0, 1, 0x0, 0x0, 0x0, false, false, 0⟩,
   ⟨.primerVersion, 0x44, 0x0, 1, 0x0, 1, 0x0, 0x0, 0x0, false, false, 0⟩,
   ⟨.primerFloor, 0x48, 0x0, 1, 0x0, 1, 0x0, 0x0, 0x0, false, false, 0⟩,
   ⟨.blkPm, 0x50, 0x0, 1, 0x0, 1, 0x0, 0x0, 0x0, false, false, 0⟩,
   ⟨.pmCfg, 0x54, 0x0, 1, 0x0, 1, 0x64321407, 0xFFFFFF07, 0x0, false, false, 0⟩,
   ⟨.islandStatus, 0x58, 0x0, 1, 0x0, 1, 0x0, 0x0, 0x0, false, false, 0⟩,
   ⟨.bgCfg, 0x5C, 0x0, 1, 0x0, 1, 0x640002, 0xFFFF0007, 0x0, false, false, 0⟩,
   ⟨.scrubCount, 0x60, 0x0, 1, 0x0, 1, 0x0, 0x0, 0x0, false, false, 0⟩,
   ⟨.fnCfg, 0x1000, 0x100, 17, 0x0, 1, 0x0, 0x0, 0x0, false, false, 0⟩,
   ⟨.fnCtxBase, 0x1004, 0x100, 17, 0x0, 1, 0x1FFFFFF, 0x1FFFFFF, 0x0, false, false, 0⟩,
   ⟨.fnCtxLimit, 0x1008, 0x100, 17, 0x0, 1, 0x0, 0x1FFFFFF, 0x0, false, false, 0⟩,
   ⟨.fnResetM, 0x100C, 0x100, 17, 0x0, 1, 0x0, 0x0, 0x0, false, false, 0⟩,
   ⟨.winBaseLo, 0x1040, 0x100, 17, 0x10, 8, 0x0, 0xFFFFF003, 0x0, false, false, 0⟩,
   ⟨.winBaseHi, 0x1044, 0x100, 17, 0x10, 8, 0x0, 0xFFFFFFFF, 0x0, false, false, 0⟩,
   ⟨.winLimitLo, 0x1048, 0x100, 17, 0x10, 8, 0x0, 0xFFFFF000, 0x0, false, false, 0⟩,
   ⟨.winLimitHi, 0x104C, 0x100, 17, 0x10, 8, 0x0, 0xFFFFFFFF, 0x0, false, false, 0⟩,
   ⟨.fltCtrl, 0x10000, 0x0, 1, 0x0, 1, 0x0, 0x0, 0x40000000, false, false, 0⟩,
   ⟨.fltPermCfg, 0x10004, 0x0, 1, 0x0, 1, 0x303E8, 0x0, 0xFFFFF, false, false, 0⟩,
   ⟨.fltPend, 0x10008, 0x0, 1, 0x0, 1, 0x0, 0x0, 0x0, false, false, 0⟩,
   ⟨.fltIrqEn, 0x1000C, 0x0, 1, 0x0, 1, 0x301FFFF, 0x701FFFF, 0x0, false, false, 0⟩,
   ⟨.fltFirst, 0x10010, 0x0, 1, 0x0, 1, 0x0, 0x0, 0x0, false, false, 0⟩,
   ⟨.fltFirstDetail, 0x10014, 0x0, 1, 0x0, 1, 0x0, 0x0, 0x0, false, false, 0⟩,
   ⟨.fltFirstTimeLo, 0x10018, 0x0, 1, 0x0, 1, 0x0, 0x0, 0x0, false, false, 0⟩,
   ⟨.fltFirstTimeHi, 0x1001C, 0x0, 1, 0x0, 1, 0x0, 0x0, 0x0, false, false, 0⟩,
   ⟨.fltLastMinor, 0x10020, 0x0, 1, 0x0, 1, 0x0, 0x0, 0x0, false, false, 0⟩,
   ⟨.fltInj, 0x10024, 0x0, 1, 0x0, 1, 0x0, 0x1FF, 0x0, false, false, 0⟩,
   ⟨.fltState, 0x10028, 0x0, 1, 0x0, 1, 0x0, 0x0, 0x0, false, false, 0⟩]

/-- Rows of the map, part 2. -/
def regRows2 : List RegRow :=
  [⟨.fltCount, 0x10400, 0x0, 1, 0x4, 256, 0x0, 0x0, 0x0, true, false, 0⟩,
   ⟨.fltReact, 0x10800, 0x0, 1, 0x4, 256, 0x0, 0x8, 0x7, false, false, 0⟩,
   ⟨.tly, 0x20000, 0x0, 1, 0x4, 1024, 0x0, 0x0, 0x0, false, false, 0⟩,
   ⟨.tlyWear, 0x21000, 0x0, 1, 0x4, 1024, 0x0, 0x0, 0x0, false, false, 0⟩,
   ⟨.tlyStatus, 0x22000, 0x0, 1, 0x0, 1, 0x0, 0x0, 0x0, false, false, 0⟩,
   ⟨.tlyRefuseLast, 0x22004, 0x0, 1, 0x0, 1, 0x0, 0x0, 0x0, false, false, 0⟩,
   ⟨.tlyRepairCount, 0x22008, 0x0, 1, 0x0, 1, 0x0, 0x0, 0x0, true, false, 0⟩,
   ⟨.tlyWriteCount, 0x2200C, 0x0, 1, 0x0, 1, 0x0, 0x0, 0x0, false, false, 0⟩,
   ⟨.gal, 0x24000, 0x0, 1, 0x4, 512, 0x0, 0x0, 0x0, false, false, 0⟩,
   ⟨.galCount, 0x24800, 0x0, 1, 0x4, 32, 0x0, 0x0, 0x0, false, false, 0⟩,
   ⟨.galExtData, 0x24900, 0x0, 1, 0x4, 16, 0x0, 0xFFFFFFFF, 0x0, false, false, 0⟩,
   ⟨.galExtCtrl, 0x24940, 0x0, 1, 0x0, 1, 0x0, 0x101FFFFF, 0x0, false, false, 0⟩,
   ⟨.galLastInfo, 0x24944, 0x0, 1, 0x0, 1, 0x0, 0x0, 0x0, false, false, 0⟩,
   ⟨.galLast, 0x24980, 0x0, 1, 0x4, 16, 0x0, 0x0, 0x0, false, false, 0⟩,
   ⟨.entCtrl, 0x30000, 0x0, 1, 0x0, 1, 0xFF, 0x0, 0xFF, false, false, 0⟩,
   ⟨.entStatus, 0x30004, 0x0, 1, 0x0, 1, 0x0, 0x0, 0x0, false, false, 0⟩,
   ⟨.entCfg, 0x30008, 0x0, 1, 0x0, 1, 0x3E8, 0xFFFF, 0x0, false, false, 0⟩,
   ⟨.entLevel, 0x3000C, 0x0, 1, 0x0, 1, 0x0, 0x0, 0x0, false, false, 0⟩,
   ⟨.entRct, 0x30010, 0x0, 1, 0x0, 1, 0xC9, 0x0, 0x3FF, false, false, 0⟩,
   ⟨.entApt, 0x30014, 0x0, 1, 0x0, 1, 0x3C2, 0x0, 0x7FF, false, false, 0⟩,
   ⟨.entEst, 0x30018, 0x0, 1, 0x0, 1, 0x5000, 0x0, 0xFFFF, false, false, 0⟩,
   ⟨.entWindowCount, 0x3001C, 0x0, 1, 0x0, 1, 0x0, 0x0, 0x0, false, false, 0⟩,
   ⟨.entDiscardCount, 0x30020, 0x0, 1, 0x0, 1, 0x0, 0x0, 0x0, true, false, 0⟩,
   ⟨.entUnavailCount, 0x30024, 0x0, 1, 0x0, 1, 0x0, 0x0, 0x0, true, false, 0⟩,
   ⟨.entSrcStatus, 0x30100, 0x20, 8, 0x0, 1, 0x0, 0x0, 0x0, false, false, 0⟩,
   ⟨.entSrcBias, 0x30104, 0x20, 8, 0x0, 1, 0x0, 0x0, 0x0, false, false, 0⟩,
   ⟨.entSrcCorr, 0x30108, 0x20, 8, 0x0, 1, 0x0, 0x0, 0x0, false, false, 0⟩,
   ⟨.entSrcMaxrun, 0x3010C, 0x20, 8, 0x0, 1, 0x0, 0x0, 0x0, false, false, 0⟩,
   ⟨.entSrcAptmax, 0x30110, 0x20, 8, 0x0, 1, 0x0, 0x0, 0x0, false, false, 0⟩,
   ⟨.entRawCtrl, 0x30200, 0x0, 1, 0x0, 1, 0x0, 0xF, 0x0, false, false, 0⟩]

/-- Rows of the map, part 3. -/
def regRows3 : List RegRow :=
  [⟨.entRawStatus, 0x30204, 0x0, 1, 0x0, 1, 0x0, 0x0, 0x0, false, false, 0⟩,
   ⟨.entRawAddrLo, 0x30208, 0x0, 1, 0x0, 1, 0x0, 0xFFFFFFE0, 0x0, false, false, 0⟩,
   ⟨.entRawAddrHi, 0x3020C, 0x0, 1, 0x0, 1, 0x0, 0xFFFFFFFF, 0x0, false, false, 0⟩,
   ⟨.entRawLen, 0x30210, 0x0, 1, 0x0, 1, 0x0, 0x1FFFFFF, 0x0, false, false, 0⟩,
   ⟨.laneStatus, 0x40000, 0x1000, 9, 0x0, 1, 0x0, 0x0, 0x0, false, false, 0⟩,
   ⟨.laneCntCtrl, 0x40004, 0x1000, 9, 0x0, 1, 0x0, 0x1, 0x0, false, false, 0⟩,
   ⟨.laneStrokeCount, 0x40008, 0x1000, 9, 0x0, 1, 0x0, 0x0, 0x0, false, false, 0⟩,
   ⟨.laneRetryCount, 0x4000C, 0x1000, 9, 0x0, 1, 0x0, 0x0, 0x0, false, false, 0⟩,
   ⟨.laneCoverCount, 0x40010, 0x1000, 9, 0x0, 1, 0x0, 0x0, 0x0, false, false, 0⟩,
   ⟨.laneBusyCount, 0x40014, 0x1000, 9, 0x0, 1, 0x0, 0x0, 0x0, false, false, 0⟩,
   ⟨.laneAuthFailCount, 0x40018, 0x1000, 9, 0x0, 1, 0x0, 0x0, 0x0, false, false, 0⟩,
   ⟨.laneGroup, 0x49000, 0x0, 1, 0x4, 4, 0x0, 0x1FF, 0x0, false, false, 0⟩,
   ⟨.laneBcastDiff, 0x49010, 0x0, 1, 0x0, 1, 0x0, 0x0, 0x0, false, false, 0⟩,
   ⟨.groupWin, 0x4C000, 0x400, 4, 0x4, 7, 0x0, 0x0, 0x0, false, false, 0⟩,
   ⟨.bcastWin, 0x4F000, 0x0, 1, 0x4, 7, 0x0, 0x0, 0x0, false, false, 0⟩,
   ⟨.digStatus, 0x50000, 0x100, 4, 0x0, 1, 0x0, 0x0, 0x0, false, false, 0⟩,
   ⟨.digCntCtrl, 0x50004, 0x100, 4, 0x0, 1, 0x0, 0x1, 0x0, false, false, 0⟩,
   ⟨.digBlockCount, 0x50008, 0x100, 4, 0x0, 1, 0x0, 0x0, 0x0, false, false, 0⟩,
   ⟨.digRetryCount, 0x5000C, 0x100, 4, 0x0, 1, 0x0, 0x0, 0x0, false, false, 0⟩,
   ⟨.digCoverCount, 0x50010, 0x100, 4, 0x0, 1, 0x0, 0x0, 0x0, false, false, 0⟩,
   ⟨.digBusyCount, 0x50014, 0x100, 4, 0x0, 1, 0x0, 0x0, 0x0, false, false, 0⟩,
   ⟨.easelCfg, 0x60000, 0x0, 1, 0x0, 1, 0x3E80, 0x0, 0x800FFFFF, false, false, 0⟩,
   ⟨.easelRecover, 0x60004, 0x0, 1, 0x0, 1, 0x100, 0x1FF, 0x0, false, false, 0⟩,
   ⟨.easelCurveValid, 0x60008, 0x0, 1, 0x0, 1, 0x0, 0x0, 0x0, false, false, 0⟩,
   ⟨.easelCurveLoaded, 0x6000C, 0x0, 1, 0x0, 1, 0x0, 0x0, 0x0, false, false, 0⟩,
   ⟨.easelAnchorValid, 0x60010, 0x0, 1, 0x0, 1, 0x0, 0x0, 0x0, false, false, 0⟩,
   ⟨.easelLegacyCount, 0x60014, 0x0, 1, 0x0, 1, 0x0, 0x0, 0x0, true, false, 0⟩,
   ⟨.easelStatus, 0x60100, 0x100, 4, 0x0, 1, 0x4000, 0x0, 0x0, false, false, 0⟩,
   ⟨.easelCntCtrl, 0x60104, 0x100, 4, 0x0, 1, 0x0, 0x1, 0x0, false, false, 0⟩,
   ⟨.easelCompCount, 0x60108, 0x100, 4, 0x0, 1, 0x0, 0x0, 0x0, false, false, 0⟩]

/-- Rows of the map, part 4. -/
def regRows4 : List RegRow :=
  [⟨.easelRetryCount, 0x6010C, 0x100, 4, 0x0, 1, 0x0, 0x0, 0x0, false, false, 0⟩,
   ⟨.easelRejectCount, 0x60110, 0x100, 4, 0x0, 1, 0x0, 0x0, 0x0, false, false, 0⟩,
   ⟨.easelYieldCount, 0x60114, 0x100, 4, 0x0, 1, 0x0, 0x0, 0x0, false, false, 0⟩,
   ⟨.easelBusyCount, 0x60118, 0x100, 4, 0x0, 1, 0x0, 0x0, 0x0, false, false, 0⟩,
   ⟨.easelCurve, 0x68000, 0x0, 1, 0x4, 4096, 0x0, 0x0, 0x0, false, false, 0⟩,
   ⟨.easelAnchor, 0x6C000, 0x0, 1, 0x4, 1024, 0x0, 0x0, 0x0, false, false, 0⟩,
   ⟨.schedCfg, 0x70000, 0x0, 1, 0x0, 1, 0x108, 0xF0F, 0x0, false, false, 0⟩,
   ⟨.gateCtrl, 0x70100, 0x0, 1, 0x0, 1, 0x0, 0xFFF0, 0x0, false, false, 0⟩,
   ⟨.gateLead, 0x70104, 0x0, 1, 0x0, 1, 0x2710, 0xFFFFF, 0x0, false, false, 0⟩,
   ⟨.gateAdminBaseLo, 0x70108, 0x0, 1, 0x0, 1, 0x0, 0xFFFFFFFF, 0x0, false, false, 0⟩,
   ⟨.gateAdminBaseHi, 0x7010C, 0x0, 1, 0x0, 1, 0x0, 0xFFFFFFFF, 0x0, false, false, 0⟩,
   ⟨.gateAdminCycle, 0x70110, 0x0, 1, 0x0, 1, 0x0, 0x3FFFFFFF, 0x0, false, false, 0⟩,
   ⟨.gateAdminLen, 0x70114, 0x0, 1, 0x0, 1, 0x0, 0x7F, 0x0, false, false, 0⟩,
   ⟨.gateChangeLo, 0x70118, 0x0, 1, 0x0, 1, 0x0, 0xFFFFFFFF, 0x0, false, false, 0⟩,
   ⟨.gateChangeHi, 0x7011C, 0x0, 1, 0x0, 1, 0x0, 0xFFFFFFFF, 0x0, false, false, 0⟩,
   ⟨.gateOperBaseLo, 0x70120, 0x0, 1, 0x0, 1, 0x0, 0x0, 0x0, false, false, 0⟩,
   ⟨.gateOperBaseHi, 0x70124, 0x0, 1, 0x0, 1, 0x0, 0x0, 0x0, false, false, 0⟩,
   ⟨.gateOperCycle, 0x70128, 0x0, 1, 0x0, 1, 0x0, 0x0, 0x0, false, false, 0⟩,
   ⟨.gateOperLen, 0x7012C, 0x0, 1, 0x0, 1, 0x0, 0x0, 0x0, false, false, 0⟩,
   ⟨.gateAdminIvl, 0x71000, 0x0, 1, 0x8, 64, 0x0, 0x3FFFFFFF, 0x0, false, false, 0⟩,
   ⟨.gateAdminGates, 0x71004, 0x0, 1, 0x8, 64, 0x0, 0xFF, 0x0, false, false, 0⟩,
   ⟨.gateOperIvl, 0x71400, 0x0, 1, 0x8, 64, 0x0, 0x0, 0x0, false, false, 0⟩,
   ⟨.gateOperGates, 0x71404, 0x0, 1, 0x8, 64, 0x0, 0x0, 0x0, false, false, 0⟩,
   ⟨.schedDefer, 0x72000, 0x0, 1, 0x4, 33, 0x0, 0x0, 0x0, false, false, 0⟩,
   ⟨.aMeterCfg, 0x78000, 0x0, 1, 0x20, 1024, 0x410, 0x0, 0x0, false, false, 0⟩,
   ⟨.aMeterRate, 0x78004, 0x0, 1, 0x20, 1024, 0x0, 0x0, 0x0, false, false, 0⟩,
   ⟨.aMeterBurst, 0x78008, 0x0, 1, 0x20, 1024, 0x4000, 0x0, 0x0, false, false, 0⟩,
   ⟨.aMeterLevel, 0x7800C, 0x0, 1, 0x20, 1024, 0x0, 0x0, 0x0, false, false, 0⟩,
   ⟨.aRingSched, 0x78010, 0x0, 1, 0x20, 1024, 0x103, 0x0, 0x0, false, false, 0⟩,
   ⟨.ctxTableCtrl, 0x80000, 0x0, 1, 0x0, 1, 0x0, 0x0, 0x0, false, false, 0⟩]

/-- Rows of the map, part 5. -/
def regRows5 : List RegRow :=
  [⟨.ctxTableSize, 0x80004, 0x0, 1, 0x0, 1, 0x19, 0x1F, 0x0, false, false, 0⟩,
   ⟨.ctxTableBaseLo, 0x80008, 0x0, 1, 0x0, 1, 0x0, 0xFFFFF000, 0x0, false, false, 0⟩,
   ⟨.ctxTableBaseHi, 0x8000C, 0x0, 1, 0x0, 1, 0x0, 0xFFFFFFFF, 0x0, false, false, 0⟩,
   ⟨.ctxCacheStatus, 0x80010, 0x0, 1, 0x0, 1, 0x0, 0x0, 0x0, false, false, 0⟩,
   ⟨.ctxResvCount, 0x80014, 0x0, 1, 0x0, 1, 0x0, 0x0, 0x0, true, false, 0⟩,
   ⟨.ctxWbCount, 0x80018, 0x0, 1, 0x0, 1, 0x0, 0x0, 0x0, true, false, 0⟩,
   ⟨.klCtrl, 0x80100, 0x0, 1, 0x0, 1, 0x0, 0x5F000FFF, 0x0, false, false, 0⟩,
   ⟨.klStatus, 0x80104, 0x0, 1, 0x0, 1, 0x0, 0x0, 0x0, false, false, 0⟩,
   ⟨.klRefuseCount, 0x80108, 0x0, 1, 0x0, 1, 0x0, 0x0, 0x0, true, false, 0⟩,
   ⟨.klTimeoutCount, 0x8010C, 0x0, 1, 0x0, 1, 0x0, 0x0, 0x0, true, false, 0⟩,
   ⟨.klLastRefuse, 0x80110, 0x0, 1, 0x0, 1, 0x0, 0x0, 0x0, false, false, 0⟩,
   ⟨.timeNowLo, 0x90000, 0x0, 1, 0x0, 1, 0x0, 0x0, 0x0, false, false, 0⟩,
   ⟨.timeNowHi, 0x90004, 0x0, 1, 0x0, 1, 0x0, 0x0, 0x0, false, false, 0⟩,
   ⟨.timeStatus, 0x90008, 0x0, 1, 0x0, 1, 0x0, 0x0, 0x0, false, false, 0⟩,
   ⟨.timeCfg, 0x9000C, 0x0, 1, 0x0, 1, 0x3E80004, 0x8FFF00FF, 0x0, false, false, 0⟩,
   ⟨.timeHoldover, 0x90010, 0x0, 1, 0x0, 1, 0x9C4, 0xFFFF, 0x0, false, false, 0⟩,
   ⟨.timeOffset, 0x90014, 0x0, 1, 0x0, 1, 0x0, 0x0, 0x0, false, false, 0⟩,
   ⟨.timeLoadCount, 0x90018, 0x0, 1, 0x0, 1, 0x0, 0x0, 0x0, false, false, 0⟩,
   ⟨.timeRejectCount, 0x9001C, 0x0, 1, 0x0, 1, 0x0, 0x0, 0x0, true, false, 0⟩,
   ⟨.timeMissCount, 0x90020, 0x0, 1, 0x0, 1, 0x0, 0x0, 0x0, true, false, 0⟩,
   ⟨.timeStepCount, 0x90024, 0x0, 1, 0x0, 1, 0x0, 0x0, 0x0, true, false, 0⟩,
   ⟨.bistCmd, 0xA0000, 0x0, 1, 0x0, 1, 0x0, 0x30, 0x0, false, false, 0⟩,
   ⟨.bistUnit, 0xA0004, 0x0, 1, 0x0, 1, 0x0, 0x1F, 0x0, false, false, 0⟩,
   ⟨.bistStatus, 0xA0008, 0x0, 1, 0x0, 1, 0x0, 0x0, 0x0, false, false, 0⟩,
   ⟨.bistRotate, 0xA000C, 0x0, 1, 0x0, 1, 0x3C, 0xFFFF, 0x0, false, false, 0⟩,
   ⟨.bistFieldCfg, 0xA0010, 0x0, 1, 0x0, 1, 0x800000A8, 0xE000FFFF, 0x0, false, false, 0⟩,
   ⟨.bistSig, 0xA0014, 0x0, 1, 0x4, 4, 0x0, 0x0, 0x0, false, false, 0⟩,
   ⟨.ageCtrl, 0xB0000, 0x0, 1, 0x0, 1, 0x0, 0x0, 0x0, false, false, 0⟩,
   ⟨.ageCfg, 0xB0004, 0x0, 1, 0x0, 1, 0x303C, 0x0, 0x33FF, false, false, 0⟩,
   ⟨.agePlan, 0xB0008, 0x0, 1, 0x0, 1, 0x0, 0x0, 0x0, false, false, 0⟩]

/-- Rows of the map, part 6. -/
def regRows6 : List RegRow :=
  [⟨.ageEnd, 0xB000C, 0x0, 1, 0x0, 1, 0x0, 0x0, 0x0, false, false, 0⟩,
   ⟨.ageUnit, 0xB0100, 0x0, 1, 0x10, 19, 0x0, 0x0, 0x0, false, false, 0⟩,
   ⟨.ageLast, 0xB0104, 0x0, 1, 0x10, 19, 0x0, 0x0, 0x0, false, false, 0⟩,
   ⟨.ageProj, 0xB0108, 0x0, 1, 0x10, 19, 0x0, 0x0, 0x0, false, false, 0⟩,
   ⟨.stnInfo, 0xC0000, 0x0, 1, 0x0, 1, 0x0, 0x0, 0x0, false, false, 0⟩,
   ⟨.stnHeadCount, 0xC0004, 0x0, 1, 0x0, 1, 0x0, 0x0, 0x0, false, false, 0⟩,
   ⟨.stnReplayCount, 0xC0008, 0x0, 1, 0x0, 1, 0x0, 0x0, 0x0, true, false, 0⟩,
   ⟨.stnMismatchCount, 0xC000C, 0x0, 1, 0x0, 1, 0x0, 0x0, 0x0, true, false, 0⟩,
   ⟨.stnPendWaitCount, 0xC0010, 0x0, 1, 0x0, 1, 0x0, 0x0, 0x0, true, false, 0⟩,
   ⟨.stnHeadRetryCount, 0xC0014, 0x0, 1, 0x0, 1, 0x0, 0x0, 0x0, true, false, 0⟩,
   ⟨.stnDir, 0xC1000, 0x0, 1, 0x4, 256, 0x0, 0x0, 0x0, false, false, 0⟩,
   ⟨.stnStep, 0xC2000, 0x0, 1, 0x4, 8192, 0x0, 0x0, 0x0, false, false, 0⟩,
   ⟨.libInfo, 0xD0000, 0x0, 1, 0x0, 1, 0x3000000, 0x0, 0x0, false, false, 0⟩,
   ⟨.libCode, 0xD0004, 0x0, 1, 0x0, 1, 0x0, 0x0, 0x0, false, false, 0⟩,
   ⟨.skFaultCount, 0xD0008, 0x0, 1, 0x0, 1, 0x0, 0x0, 0x0, true, false, 0⟩,
   ⟨.skLastFault, 0xD000C, 0x0, 1, 0x0, 1, 0x0, 0x0, 0x0, false, false, 0⟩,
   ⟨.skLastPc, 0xD0010, 0x0, 1, 0x0, 1, 0x0, 0x0, 0x0, false, false, 0⟩,
   ⟨.libEntry, 0xD1000, 0x0, 1, 0x4, 8192, 0x0, 0x0, 0x0, false, false, 0⟩,
   ⟨.ringBaseLo, 0x0, 0x0, 1, 0x100, 64, 0x0, 0xFFFFFFC0, 0x0, false, true, 16⟩,
   ⟨.ringBaseHi, 0x4, 0x0, 1, 0x100, 64, 0x0, 0xFFFFFFFF, 0x0, false, true, 16⟩,
   ⟨.ringCfg, 0x8, 0x0, 1, 0x100, 64, 0x4, 0x8000011F, 0x0, false, true, 16⟩,
   ⟨.ringIrq, 0xC, 0x0, 1, 0x100, 64, 0x100, 0xFFFFFF3F, 0x0, false, true, 16⟩,
   ⟨.ringHead, 0x10, 0x0, 1, 0x100, 64, 0x0, 0x0, 0x0, false, true, 16⟩,
   ⟨.ringTail, 0x14, 0x0, 1, 0x100, 64, 0x0, 0x0, 0x0, false, true, 16⟩,
   ⟨.ringFetch, 0x18, 0x0, 1, 0x100, 64, 0x0, 0x0, 0x0, false, true, 16⟩,
   ⟨.ringStatus, 0x1C, 0x0, 1, 0x100, 64, 0x0, 0x0, 0x0, false, true, 16⟩,
   ⟨.ringDoneCount, 0x20, 0x0, 1, 0x100, 64, 0x0, 0x0, 0x0, false, true, 16⟩,
   ⟨.meterCfg, 0x40, 0x0, 1, 0x100, 64, 0x410, 0x71B, 0x0, false, true, 16⟩,
   ⟨.meterRate, 0x44, 0x0, 1, 0x100, 64, 0x0, 0xFFFFFF, 0x0, false, true, 16⟩,
   ⟨.meterBurst, 0x48, 0x0, 1, 0x100, 64, 0x4000, 0xFFFFFF, 0x0, false, true, 16⟩]

/-- Rows of the map, part 7. -/
def regRows7 : List RegRow :=
  [⟨.meterLevel, 0x4C, 0x0, 1, 0x100, 64, 0x0, 0x0, 0x0, false, true, 16⟩,
   ⟨.ringSched, 0x50, 0x0, 1, 0x100, 64, 0x103, 0x7FF3F, 0x0, false, true, 16⟩,
   ⟨.ringDb, 0x8000, 0x0, 1, 0x8, 64, 0x0, 0x0, 0x0, false, true, 16⟩,
   ⟨.fnCtrl, 0xC000, 0x0, 1, 0x0, 1, 0x0, 0x3F01, 0x0, false, true, 0⟩,
   ⟨.fnStatus, 0xC004, 0x0, 1, 0x0, 1, 0x0, 0x0, 0x0, false, true, 0⟩,
   ⟨.fnReset, 0xC008, 0x0, 1, 0x0, 1, 0x0, 0x0, 0x0, false, true, 0⟩,
   ⟨.fnPm, 0xC00C, 0x0, 1, 0x0, 1, 0x0, 0x0, 0x0, false, true, 0⟩,
   ⟨.fnFence, 0xC010, 0x0, 1, 0x0, 1, 0x0, 0x0, 0x0, false, true, 0⟩,
   ⟨.fnCtxBaseV, 0xC014, 0x0, 1, 0x0, 1, 0x0, 0x0, 0x0, false, true, 0⟩,
   ⟨.fnCtxLimitV, 0xC018, 0x0, 1, 0x0, 1, 0x0, 0x0, 0x0, false, true, 0⟩,
   ⟨.fnEpoch, 0xC01C, 0x0, 1, 0x0, 1, 0x0, 0x0, 0x0, false, true, 0⟩,
   ⟨.fnHaltLo, 0xC020, 0x0, 1, 0x0, 1, 0x0, 0x0, 0x0, false, true, 0⟩,
   ⟨.fnHaltHi, 0xC024, 0x0, 1, 0x0, 1, 0x0, 0x0, 0x0, false, true, 0⟩,
   ⟨.entWord, 0xC030, 0x0, 1, 0x0, 1, 0x0, 0x0, 0x0, false, true, 0⟩,
   ⟨.entWordStatus, 0xC034, 0x0, 1, 0x0, 1, 0x0, 0x0, 0x0, false, true, 0⟩,
   ⟨.fnWinBaseLo, 0xC040, 0x0, 1, 0x10, 8, 0x0, 0x0, 0x0, false, true, 0⟩,
   ⟨.fnWinBaseHi, 0xC044, 0x0, 1, 0x10, 8, 0x0, 0x0, 0x0, false, true, 0⟩,
   ⟨.fnWinLimitLo, 0xC048, 0x0, 1, 0x10, 8, 0x0, 0x0, 0x0, false, true, 0⟩,
   ⟨.fnWinLimitHi, 0xC04C, 0x0, 1, 0x10, 8, 0x0, 0x0, 0x0, false, true, 0⟩,
   ⟨.vecAddrLo, 0xD000, 0x0, 1, 0x10, 64, 0x0, 0xFFFFFFFC, 0x0, false, true, 0⟩,
   ⟨.vecAddrHi, 0xD004, 0x0, 1, 0x10, 64, 0x0, 0xFFFFFFFF, 0x0, false, true, 0⟩,
   ⟨.vecData, 0xD008, 0x0, 1, 0x10, 64, 0x0, 0xFFFFFFFF, 0x0, false, true, 0⟩,
   ⟨.vecCtrl, 0xD00C, 0x0, 1, 0x10, 64, 0x1, 0x1, 0x0, false, true, 0⟩,
   ⟨.telSeq, 0xE000, 0x0, 1, 0x0, 1, 0x0, 0x0, 0x0, false, true, 0⟩,
   ⟨.telTimeLo, 0xE008, 0x0, 1, 0x0, 1, 0x0, 0x0, 0x0, false, true, 0⟩,
   ⟨.telTimeHi, 0xE00C, 0x0, 1, 0x0, 1, 0x0, 0x0, 0x0, false, true, 0⟩,
   ⟨.telDone, 0xE010, 0x0, 1, 0x0, 1, 0x0, 0x0, 0x0, false, true, 0⟩,
   ⟨.telRetried, 0xE014, 0x0, 1, 0x0, 1, 0x0, 0x0, 0x0, false, true, 0⟩,
   ⟨.telAuthFail, 0xE018, 0x0, 1, 0x0, 1, 0x0, 0x0, 0x0, false, true, 0⟩,
   ⟨.telRefused, 0xE01C, 0x0, 1, 0x0, 1, 0x0, 0x0, 0x0, false, true, 0⟩]

/-- Rows of the map, part 8. -/
def regRows8 : List RegRow :=
  [⟨.telDenied, 0xE020, 0x0, 1, 0x0, 1, 0x0, 0x0, 0x0, false, true, 0⟩,
   ⟨.telLate, 0xE024, 0x0, 1, 0x0, 1, 0x0, 0x0, 0x0, false, true, 0⟩,
   ⟨.telEntropy, 0xE028, 0x0, 1, 0x0, 1, 0x0, 0x0, 0x0, false, true, 0⟩,
   ⟨.telOther, 0xE02C, 0x0, 1, 0x0, 1, 0x0, 0x0, 0x0, false, true, 0⟩,
   ⟨.telBytesLo, 0xE030, 0x0, 1, 0x0, 1, 0x0, 0x0, 0x0, false, true, 0⟩,
   ⟨.telBytesHi, 0xE034, 0x0, 1, 0x0, 1, 0x0, 0x0, 0x0, false, true, 0⟩,
   ⟨.telRingDone, 0xE100, 0x0, 1, 0x4, 64, 0x0, 0x0, 0x0, false, true, 16⟩,
   ⟨.galView, 0xF000, 0x0, 1, 0x4, 512, 0x0, 0x0, 0x0, false, true, 0⟩,
   ⟨.galCountView, 0xF800, 0x0, 1, 0x4, 32, 0x0, 0x0, 0x0, false, true, 0⟩]

/-- The register map. -/
def regRows : List RegRow := regRows1 ++ regRows2 ++ regRows3 ++ regRows4 ++ regRows5 ++ regRows6 ++ regRows7 ++ regRows8
/-- Floor class of a fault source (R500): 0 CORRECTED to 4 BLOCK_FATAL; `none` for a reserved ID. The sources 0x00 and
0x01 go to the snowplough state at once, and FLT_REACT reads 4 for them (R519). -/
def faultFloor (s : Nat) : Option Nat :=
  if s ≤ 5 then some 4
  else if s ≤ 7 then some 2
  else if s = 8 then some 4
  else if s < 0x10 then none
  else if s ≤ 0x11 then some 0
  else if s ≤ 0x13 then some 1
  else if s ≤ 0x15 then some 4
  else if s ≤ 0x17 then some 2
  else if s < 0x20 then none
  else if s ≤ 0x28 then some 1
  else if s = 0x29 then some 4
  else if s = 0x2A then some 2
  else if s < 0x30 then none
  else if s ≤ 0x38 then some 1
  else if s = 0x39 then some 0
  else if s < 0x40 then none
  else if s ≤ 0x43 then some 1
  else if s = 0x44 then some 4
  else if s = 0x45 then some 2
  else if s = 0x47 then some 0
  else if s < 0x50 then none
  else if s ≤ 0x53 then some 1
  else if s = 0x54 then some 4
  else if s = 0x55 then some 2
  else if s = 0x57 then some 0
  else if s = 0x58 then some 4
  else if s < 0x60 then none
  else if s ≤ 0x68 then some 1
  else if s = 0x69 then some 0
  else if s ≤ 0x6B then some 2
  else if s < 0x70 then none
  else if s = 0x70 then some 0
  else if s = 0x71 then some 1
  else if s = 0x72 then some 2
  else if s ≤ 0x74 then some 1
  else if s ≤ 0x78 then some 2
  else if s = 0x79 then some 0
  else if s < 0x80 then none
  else if s = 0x80 then some 4
  else if s ≤ 0x88 then some 3
  else if s = 0x89 then some 2
  else if s = 0x8A then some 1
  else if s = 0x8B then some 0
  else if s < 0x90 then none
  else if s = 0x90 then some 0
  else if s = 0x91 then some 4
  else if s ≤ 0x94 then some 2
  else if s = 0x95 then some 4
  else if s = 0x96 then some 2
  else if s < 0xA0 then none
  else if s = 0xA0 then some 2
  else if s = 0xA1 then some 1
  else if s = 0xA2 then some 2
  else if s = 0xA3 then some 4
  else if s < 0xB0 then none
  else if s = 0xB0 then some 2
  else if s ≤ 0xB2 then some 4
  else if s = 0xB3 then some 0
  else none

/-- The row of a register name. -/
def RegName.row (n : RegName) : RegRow := regRows.getD n.ctorIdx ⟨.blkId, 0, 0, 1, 0, 1, 0, 0, 0, false, false, 0⟩

/-- The key under which a register is stored: its name's place in the map and its two indexes. -/
def regKey (n : RegName) (i j : Nat) : Nat := n.ctorIdx * 0x100000 + i * 0x4000 + j

/-- Reset value by register key (R562, R563); FLT_REACT resets to the floor of its source (R519). -/
def regDefault (k : Nat) : Word :=
  match regRows[k / 0x100000]? with
  | some r => if r.name = .fltReact then BitVec.ofNat 32 ((faultFloor (k % 0x4000)).getD 0) else r.reset
  | none => 0

/-- A register: a name of the map and its two indexes. -/
structure Reg where
  name : RegName
  i : Nat
  j : Nat
deriving DecidableEq, Repr

/-- Does an offset hit row `r`, and with which indexes? -/
def RegRow.hit (r : RegRow) (off : Nat) : Option (Nat × Nat) :=
  if off < r.base then none else
  let d := off - r.base
  let i := if r.s1 = 0 then 0 else d / r.s1
  let e := if r.s1 = 0 then d else d % r.s1
  let j := if r.s2 = 0 then 0 else e / r.s2
  let m := if r.s2 = 0 then e else e % r.s2
  if m = 0 ∧ i < r.c1 ∧ j < r.c2 then some (i, j) else none

/-- The first row of a list that an offset hits. -/
def firstHit (win : Bool) (off : Nat) : List RegRow → Option (RegRow × Nat × Nat)
  | [] => none
  | r :: t => if r.win = win then
      match r.hit off with
      | some (i, j) => some (r, i, j)
      | none => firstHit win off t
    else firstHit win off t

/-- The window register at an offset of function `f`'s window (R563). -/
def winAt (f off : Nat) : Option Reg :=
  match firstHit true off regRows with
  | some (r, _, j) => if f = 16 ∧ r.lim ≠ 0 ∧ r.lim ≤ j then none else some ⟨r.name, f, j⟩
  | none => none

/-- The register at a byte address, none where the address is unmapped (R554, R556). -/
def regAt (a : Nat) : Option Reg :=
  if a < 0xE0000 then
    match firstHit false a regRows with
    | some (r, i, j) => some ⟨r.name, i, j⟩
    | none => none
  else if a < 0xF0000 then winAt 16 (a - 0xE0000)
  else if a < 0x100000 then none
  else if a < 0x200000 then winAt ((a - 0x100000) / 0x10000) ((a - 0x100000) % 0x10000)
  else none

/-- The byte address of a register. -/
def Reg.addr (r : Reg) : Nat :=
  let w := r.name.row
  if w.win then (if r.i = 16 then 0xE0000 else 0x100000 + r.i * 0x10000) + w.base + r.j * w.s2
  else w.base + r.i * w.s1 + r.j * w.s2

end Sys2Proof.Machine
end

