-- ==== Sys2Proof/Machine/State.lean ====
section
/-! DEFINITION. The state of the block as plain data, the reasons to stop, and the state at reset. -/
namespace Sys2Proof.Machine

/-- Reasons to stop with a fault. No row of the table ends so: the specification gives every row an effect, and the
block's own faults are next states of the collector. -/
inductive Fault where
  /-- Never raised by this model; kept so that the type names one reason. Safe. -/
  | noEffect
deriving DecidableEq, Repr

/-- Reasons to refuse a command. -/
inductive Refusal where
  /-- The dispatch table's answer for a command without a meaning. Safe. -/
  | notModelled (mnemonic : String)
deriving DecidableEq, Repr

/-- Block states of R29. The supply is removed and returns outside the table: no row enters `unpowered`, and POR_ASSERT leaves it
for `reset` (log entry 16). -/
inductive BlkState where
  | unpowered | reset | starting | service | deepSleep | snowplough
deriving DecidableEq, Repr

/-- Block control: pins, start sequence, block state (R29, R78-R80, R83, R100, R101, R107, R515). -/
structure Blk where
  st : BlkState := .reset
  /-- `por_n` is low. -/
  porLow : Bool := true
  /-- `blk_rst_n` is low. -/
  rstLow : Bool := true
  /-- Level of `tst_mode`. -/
  tst : Bool := false
  /-- Scan is enabled (R80). -/
  scan : Bool := false
  /-- PHASE of BLK_START_STATUS (R100). -/
  phase : Nat := 0
  image : Nat := 0
  causeA : Nat := 0
  causeB : Nat := 0
  lbistRun : Bool := false
  stFail : Bool := false
  /-- VERSION of the image in use. -/
  version : Nat := 0
  /-- INIT has read the tally store (R557). -/
  tlyRead : Bool := false
  /-- HDR_FLAGS.LBIST_AT_START of the image in use. -/
  lbistAsked : Bool := false
  /-- Self-tests of WARMUP or LBIST that have not ended: unit and kind (0 LBIST, 1 MBIST, 2 KAT). -/
  toTest : List (Nat × Nat) := []
  /-- Units still to be measured: in WARMUP after a refused step of the INIT climb (R537), and a lane before its field test (R545). -/
  toMeasure : List Nat := []
  /-- AGE_END's end and unit as the last measurement left them (R541). -/
  ageEnd : Option (Nat × Nat) := none
  /-- BLK_PM.STATE (R101). -/
  pm : Nat := 0
  /-- An event whose effective class is BLOCK_FATAL has been captured (R515). -/
  frozen : Bool := false
  /-- FLT_STATE.STATE (R519). -/
  snow : Nat := 0
deriving DecidableEq, Repr

/-- Where an island's sequence of R71 stands. -/
inductive IslStep where
  | down | upPower | upRet | up | downRet | downPower
deriving DecidableEq, Repr

/-- An island: its step, the levels of its four lines (R69), and whether a wake waits for a down sequence (R105). -/
structure Isl where
  step : IslStep := .down
  req : Bool := false
  ack : Bool := false
  retReq : Bool := false
  retAck : Bool := false
  wake : Bool := false
  /-- The contents were kept through retention and are not yet checked (R28, R71 step 4). -/
  kept : Bool := false
  /-- While the island is idle: whether BLK_PM_CFG sent it to retention when it became idle (R104). -/
  idle : Option Bool := none
deriving DecidableEq, Repr

/-- Clock, power and voltage lines (R69-R73). -/
structure Pwr where
  clkReq : BitVec 13 := 0
  clkAck : BitVec 13 := 0
  /-- Domains whose clock a background activity asks for (R25, log entry 49). -/
  bg : BitVec 13 := 0
  isl : Tbl Isl := []
  vreq : Nat := 0
  vack : Nat := 0
  /-- A voltage step is awaited: the unit that asked for it, or none for the INIT climb. -/
  vwait : Option (Option Nat) := none
  /-- VPLAN as in force: V and VREFUSED (R536, R538). -/
  v : Nat := 0
  vref : Bool := false
deriving DecidableEq, Repr

/-- A stalled register read (R44). -/
inductive Stall where
  /-- FN_FENCE of `f`: the requests and the message writes (by serial number) still awaited (R494). -/
  | fence (f : Nat) (ids : List Nat) (msgs : List Nat)
  /-- ENT_WORD of `f` (R469). -/
  | entWord (f : Nat)
deriving DecidableEq, Repr

/-- The register port: a stalled read and the last response (R43-R45). -/
structure Port where
  stall : Option Stall := none
  /-- A request waits for `reg_clk` (R46). -/
  waiting : Bool := false
  code : Nat := 0
  data : Word := 0
deriving DecidableEq, Repr

/-- What a fabric transaction is for. -/
inductive Use where
  /-- Entries of ring `g`, `n` of them from position `pos`. -/
  | fetch (g pos n : Nat)
  /-- A read for request `id`. -/
  | req (id : Nat)
  /-- A data write of request `id`. -/
  | data (id : Nat)
  /-- A zero written by the scrub of request `id` (R283). -/
  | scrub (id : Nat)
  /-- The completion write of request `id`. -/
  | compl (id : Nat)
  /-- An interrupt message of `f` on vector `v`. -/
  | msg (f v : Nat)
  /-- The halt message of `f`. -/
  | haltMsg (f : Nat)
  /-- A reservation write of handle `h` that makes `limit` durable (R241). -/
  | resv (h limit : Nat)
  /-- A write-back of handle `h`. -/
  | wb (h : Nat)
  /-- A line write of the context operation `id` (R247). -/
  | ctxOp (id h : Nat)
  /-- A write of `len` bytes of raw capture `cap` (R474, R475). -/
  | raw (cap len : Nat)
  /-- A read whose data no longer has a consumer. -/
  | discard
deriving DecidableEq, Repr

/-- A fabric transaction: its number and port once issued, its first byte and byte count, the bytes of a write, the
function tag, its use, a serial number of the model, and whether it is a reissue (R56). -/
structure Txn where
  num : Nat := 0
  port : Fin 2 := 0
  addr : Nat := 0
  len : Nat := 0
  data : Bytes := []
  tag : Nat := 31
  use : Use := .raw 0 0
  serial : Nat := 0
  again : Bool := false
  /-- An order of R492 fixes the port. -/
  fixed : Option (Fin 2) := none
  /-- Serial numbers of the writes whose responses it waits for before it issues (R240). -/
  after : List Nat := []
  /-- It has been issued at least once. -/
  sent : Bool := false
  /-- Output in a write buffer: the engine (a lane, or a digest engine from 9 on) and the mark of the stroke (R295). -/
  buf : Option (Nat × Nat) := none
deriving DecidableEq, Repr

/-- Outstanding and waiting transactions of the fabric ports (R50). -/
structure Fab where
  rd : List Txn := []
  wr : List Txn := []
  rdQ : List Txn := []
  wrQ : List Txn := []
deriving DecidableEq, Repr

/-- A key-lift request (R59-R63): slot, tag, use, whether it is the repeat of R60, whether it has
timed out, when its 10 µs began. -/
structure KlReq where
  slot : Nat
  tag : Nat
  use : Nat
  again : Bool := false
  timedOut : Bool := false
  /-- Order of the needs and transfers, from which the 10 µs of R63 run. -/
  since : Nat := 0
deriving DecidableEq, Repr

/-- The key lift: requests owed an answer, requests that wait, the last refusal. -/
structure Kl where
  out : List KlReq := []
  wait : List KlReq := []
  last : Option KlReq := none
deriving DecidableEq, Repr

/-- Table memory and stencil table: the sections in use (R331, R390, R395, R439), empty before RELEASE. -/
structure Tables where
  stencils : Bytes := []
  /-- Curve entries of 448 bytes by INDEX, and the indexes written by CURVE_LOAD. -/
  curves : Tbl Bytes := []
  loaded : List Nat := []
  /-- Boot anchors of 160 bytes by INDEX. -/
  anchors : Tbl Bytes := []
  library : Bytes := []
  /-- Self-test signature section. -/
  sigs : Bytes := []
deriving DecidableEq, Repr

/-- The primer loader (R64, R84-R97). -/
structure Primer where
  /-- Image being tried: 0 none, 1 A, 2 B. -/
  img : Nat := 0
  /-- Bytes still due of the outstanding primer read, and its address and length. -/
  due : Nat := 0
  addr : Nat := 0
  /-- Image bytes received so far, newest first. -/
  rev : Bytes := []
  rootKey : Option Bytes := none
  ctxKey : Option Bytes := none
  /-- Failed compares of the signature check (R382). -/
  tries : Nat := 0
  /-- At RELEASE, while the floor is written: the tables and the context key that become usable with it (R97 steps 4, 5). -/
  staged : Option (Tables × Option Bytes) := none
deriving DecidableEq, Repr

/-- The time unit (R479-R485). -/
structure TimeU where
  count : Nat := 0
  /-- Nanoseconds of the current aon tick that `count` already holds: an edge of `time_align` resolves them (R67, R486). -/
  sub : Nat := 0
  /-- The count latched at the last edge, and the aon ticks since; the edge still awaits its load (R482). -/
  edge : Option Nat := none
  edgeAge : Nat := 0
  due : Bool := false
  /-- The edge was the first after a wake of the core island: what has been corrected at it (R484). -/
  wake : Option Int := none
  /-- A slew of `slew` ns spread over 1,000,000 ns, of which `slewPos` have passed. -/
  slew : Int := 0
  slewPos : Nat := 1000000
  /-- Nanoseconds still to give back by slowing. -/
  slow : Nat := 0
  /-- Nanoseconds for which the count is held still. -/
  hold : Nat := 0
  /-- The rate estimate in ns per 10^9 ns, and the part of a nanosecond that it has carried, in units of 10^-9 ns. -/
  rate : Int := 0
  frac : Int := 0
  /-- The most recent accepted load was within SYNC_TOL. -/
  near : Bool := false
  sync : Bool := false
  fine : Bool := false
  ever : Bool := false
  /-- Microseconds since the last reference event. -/
  age : Nat := 0
deriving DecidableEq, Repr

/-- A captured fault event (R506). -/
structure Event where
  src : Nat
  tag : Nat := 31
  detail : Nat := 0
  time : Nat := 0
  coarse : Bool := false
  inj : Bool := false
  /-- Capture cycle: events of one capture carry one number (R505). -/
  cycle : Nat := 0
  /-- The least class the event is raised with: BLOCK_FATAL for a retirement without cover (R503). -/
  least : Nat := 0
deriving DecidableEq, Repr

/-- The fault collector (R500-R514); FLT_COUNT, FLT_REACT and the enables are in `State.regs`. -/
structure Flt where
  captured : List Event := []
  /-- The latch: the event and its class. -/
  first : Option (Event × Nat) := none
  overflow : Bool := false
  lastMinor : Option (Event × Nat) := none
  pend : BitVec 32 := 0
  armed : Bool := false
  injDone : Bool := false
  /-- Running times (ms) of the counted events per source (R503). -/
  perm : List (Nat × Nat) := []
  /-- Units out of service, numbered as TLY[48] numbers them (R504). -/
  retired : BitVec 27 := 0
  /-- Captures so far: one number per capture cycle. -/
  cycle : Nat := 0
deriving DecidableEq, Repr

/-- A cell of the tally store (R520): value, wear count, generation, and whether its check bits are good. -/
structure Cell where
  val : BitVec 32 := 0
  wear : Nat := 0
  gen : BitVec 2 := 0
  good : Bool := true
deriving DecidableEq, Repr

/-- Who waits on a tally write (R522). -/
inductive TlyWho where
  | floor | epoch (f : Nat) | gen | retire | hist | seal (f : Nat) (upper : Bool) | m | plan | repair
deriving DecidableEq, Repr

/-- A requested tally write: register, value, class of R524, who waits. -/
structure TlyW where
  idx : Nat
  val : BitVec 32
  cls : Nat
  who : List TlyWho := []
deriving DecidableEq, Repr

/-- The tally store (R520-R524). -/
structure Tly where
  /-- The two cells of each register. -/
  cells : Tbl (Cell × Cell) := []
  /-- The write in progress. -/
  cur : Option TlyW := none
  /-- Queued writes, at most 16, and the waiting ones after them, in service order. -/
  queue : List TlyW := []
  wait : List TlyW := []
  writes : Nat := 0
  refused : Option Nat := none
deriving DecidableEq, Repr

/-- The sleep handshake's states (R181). -/
inductive Pm where
  | run | flushing | asleep | held
deriving DecidableEq, Repr

/-- A function (R112, R124, R134, R139, R181, R470, R528, R549). -/
structure Fn where
  enabled : Bool := false
  halted : Bool := false
  resetting : Bool := false
  /-- The reset in progress ends in Disabled (R117). -/
  disableAfter : Bool := false
  cause : Nat := 0
  noEntry : Bool := false
  ring : Nat := 0
  entry : Nat := 0
  haltAddr : Nat := 0
  /-- The halt message is still due (R128). -/
  haltMsg : Bool := false
  epochBusy : Bool := false
  epochFail : Bool := false
  pm : Pm := .run
  /-- Low 16 bits of the next counter value, STARTED, and the advance under way (R527-R529). -/
  sealLow : Nat := 0
  sealHigh : Nat := 0
  sealStarted : Bool := false
  sealAdvance : Bool := false
  sealDead : Bool := false
  /-- ENT_WORD_STATUS (R470). -/
  entStatus : BitVec 32 := 0
  /-- Completion write responses since the last reset (R494). -/
  responses : Nat := 0
  /-- Live counters behind the telemetry page: DONE, RETRIED, AUTH_FAIL, REFUSED, DENIED, LATE, ENTROPY, OTHER. -/
  live : List Nat := [0, 0, 0, 0, 0, 0, 0, 0]
  liveBytes : Nat := 0
  /-- Steps of a function reset that wait for durable write-backs (R132 step 4). -/
  resetWb : Bool := false
  /-- A reset has ended and no doorbell has been accepted since (R135). -/
  quiet : Bool := false
deriving DecidableEq, Repr

/-- A ring (R149, R179, R190): positions modulo 2N, level in 1/256 byte, moderation count and timer. -/
structure Ring where
  head : Nat := 0
  tail : Nat := 0
  fetch : Nat := 0
  /-- Next position to pass the meter. -/
  metered : Nat := 0
  /-- Next position whose completion write is to be issued (R175). -/
  next : Nat := 0
  level : Int := 0
  counted : Nat := 0
  timer : Option Nat := none
  done : Nat := 0
  telDone : Nat := 0
  /-- The chain in progress: entries that have passed the meter, the class of its first entry, and the failing
  entry's position and stamp (R168, R169). -/
  chainLen : Nat := 0
  chainCls : Nat := 0
  chainFail : Option (Nat × Nat) := none
deriving DecidableEq, Repr

/-- Where a request stands. -/
inductive Stage where
  /-- Fetched, not admitted. -/
  | queued
  /-- Admitted; the checks that precede its first stroke run. -/
  | checking
  /-- Ready for a grant, or for its operation where it takes none. -/
  | ready
  /-- A stroke or computation is granted. -/
  | running
  /-- Past its commit point; its completion is not yet issued. -/
  | committed
  /-- The completion write is issued. -/
  | completing
  /-- The completion write is acknowledged; the head has not passed it. -/
  | done
deriving DecidableEq, Repr

/-- A key that a request holds: slot selector (0 A, 1 B), key bytes, attributes, and its name in the key cache (R259): lifted, with tag,
slot and use, or inline, with handle and VERSION. -/
structure HeldKey where
  sel : Nat
  key : Bytes
  attr : Nat := 0
  lifted : Bool := true
  a : Nat := 0
  b : Nat := 0
  use : Nat := 0
deriving DecidableEq, Repr

/-- A request from its fetch to its release. -/
structure Req where
  id : Nat
  f : Nat
  n : Nat
  /-- Position in its ring. -/
  pos : Nat
  /-- The descriptor, 64 bytes. -/
  d : Bytes
  stage : Stage := .queued
  /-- Position in its chain. -/
  chainPos : Nat := 0
  /-- Order of its admission, and of its first grant. -/
  adm : Nat := 0
  grantNo : Nat := 0
  /-- The class that applies to it (R168). -/
  cls : Nat := 0
  /-- It waits at a shaping meter (R197). -/
  deferred : Bool := false
  /-- It has had its first grant. -/
  started : Bool := false
  late : Bool := false
  retried : Bool := false
  /-- It is scheduled in the gate-locked class: t_open of the interval it is bound to. -/
  bound : Option Nat := none
  /-- A gate-locked request that has fallen to the priority class (R211, R212, R215). -/
  fallen : Bool := false
  /-- Lines of memory read for it: line number to 32 bytes. -/
  rbuf : Tbl Bytes := []
  /-- Source and destination segments found by the walk (R165): address and length. -/
  segsS : List (Nat × Nat) := []
  segsD : List (Nat × Nat) := []
  /-- The least cause that a walk of its lists has found so far (R156). -/
  found : Option Nat := none
  /-- Destination segments of its strokes, as the second reading of the lists gives them, and those written so far (R165, R283). -/
  dsts : Tbl (List (Nat × Nat)) := []
  wrote : List (Nat × Nat) := []
  /-- Progress of the checks before the first stroke. -/
  step : Nat := 0
  /-- The context lines obtained: HDR, clear KEY, saved keyed state at the start of the request. -/
  hdr : Nat := 0
  ctxKey : Bytes := []
  keys : List HeldKey := []
  /-- Keys it waits for: slot, tag, use. -/
  kneed : List (Nat × Nat × Nat) := []
  /-- Inner and outer states of an HMAC key, and their name in the HMAC state cache: lifted, tag or handle, slot or VERSION (R259). -/
  hstates : Option (Bytes × Bytes) := none
  hname : Option (Bool × Nat × Nat) := none
  /-- The parameter block or the inline IV. -/
  param : Bytes := []
  /-- The counter value drawn, and whether it has been drawn. -/
  seq : Nat := 0
  drawn : Bool := false
  /-- Seal point: time and SYNC (R21). -/
  sealTime : Nat := 0
  sealSync : Bool := false
  /-- Strokes: their number, and those committed. -/
  strokes : Nat := 1
  committed : List Nat := []
  /-- Home engines of the pieces (R221), and the engine of the first grant (R297). -/
  home : List Nat := []
  first : Nat := 0
  /-- Source bytes read per stroke. -/
  srcs : Tbl Bytes := []
  /-- The expected tag, read once before the first stroke (R270, R309). -/
  expect : Bytes := []
  /-- Entry and record bytes read at AUX and SRC into the staging buffer (R364). -/
  staged : Bytes := []
  /-- Room that it takes in the staging buffer until its first grant (R364). -/
  staging : Nat := 0
  /-- Bytes of entropy received, and whether it waits for more (R465, R466). -/
  got : Bytes := []
  entWaits : Bool := false
  /-- The value it recovered, where its replay check has waited for room in the pending set (R341). -/
  pendWaited : Option Nat := none
  /-- Destination bytes written. -/
  written : Nat := 0
  -- outcome
  status : Nat := 0
  detail : Nat := 0
  outBytes : Nat := 0
  wrapped : Bool := false
  scrubbed : Bool := false
  ts : Nat := 0
  result : Bytes := []
  seqUsed : Nat := 0
deriving DecidableEq, Repr

/-- A stroke on a lane or digest engine: request, stroke number, attempt, engines that failed it (for a combined stroke, digest
engines apart), source bytes once read, output once computed (R18, R30). -/
structure Run where
  id : Nat
  k : Nat
  attempt : Nat := 1
  failed : List Nat := []
  failedDig : List Nat := []
  src : Option Bytes := none
  out : Option Bytes := none
  /-- The digest engine a lane stroke uses beside its lane (R201). -/
  digest : Option Nat := none
  /-- Second lane of a CCM stroke. -/
  pair : Option Nat := none
deriving DecidableEq, Repr

/-- A cipher lane or digest engine: requests that hold its banks, the stroke, a test in progress. -/
structure Eng where
  banks : List Nat := []
  run : Option Run := none
  test : Bool := false
deriving DecidableEq, Repr

/-- A cached context (R236, R237, R239, R241): a primary line with its extension lines, which occupy entries of their
own. Handle; the lines in memory form; clear COUNTER and extension area of the memory copy; working counter; reservation
made, its limit, the durable bound; the current extension area; the requests that pin it. -/
structure CLine where
  h : Nat
  mem : Bytes
  xmem : List Bytes := []
  memCtr : Nat := 0
  mpay : Bytes := []
  work : Nat := 0
  res : Bool := false
  limit : Nat := 0
  durable : Nat := 0
  pay : Bytes := []
  pins : List Nat := []
  /-- The reservation write of the fill has its response (R241). -/
  filled : Bool := false
deriving DecidableEq, Repr

/-- A key cache entry (R259): found by tag, slot and use when lifted, by handle and VERSION when inline. -/
structure KeyEnt where
  lifted : Bool
  a : Nat
  b : Nat
  use : Nat := 0
  key : Bytes
  attr : Nat := 0
deriving DecidableEq, Repr

/-- An HMAC state cache entry (R259). -/
structure HmEnt where
  lifted : Bool
  a : Nat
  b : Nat
  halg : Nat
  inner : Bytes
  outer : Bytes
deriving DecidableEq, Repr

/-- Contexts (R223-R263). -/
structure Ctx where
  /-- Cached lines and entries, least recently used first (R237, R259). -/
  cache : List CLine := []
  keys : List KeyEnt := []
  hmac : List HmEnt := []
  /-- The context key register (R234). -/
  key : Option Bytes := none
  /-- CTX_TABLE_CTRL.ENABLE, a disable in progress, a GEN advance in progress, GEN_FAIL. -/
  enable : Bool := false
  disabling : Bool := false
  genBusy : Bool := false
  genFail : Bool := false
  /-- An invalidation in progress: tag, and its slot unless it takes every slot (R261). -/
  inval : Option (Nat × Option Nat) := none
  /-- Replay pending sets: handle, request, sequence value (R341). -/
  pset : List (Nat × Nat × Nat) := []
deriving DecidableEq, Repr

/-- An element of a DUAL segment that has been written (R412): its bytes in each image, its binding (slot and load
count) and its value in normal form. -/
structure Elem where
  start : Nat
  len : Nat
  slot : Bool
  load : Nat
  val : Nat
deriving DecidableEq, Repr

/-- A segment of a computation's canvas (R408-R412, R440): bytes of a PLAIN segment or of one image of a DUAL one, its
kind and rights, its contents. -/
structure Seg where
  size : Nat := 0
  dual : Bool := false
  r : Bool := false
  w : Bool := false
  bytes : Bytes := []
  /-- Elements written, newest first. -/
  elems : List Elem := []
deriving DecidableEq, Repr

/-- A glaze slot (R402, R424): limb count and modulus where it is set, and its load count. -/
structure Slot where
  mod : Option (Nat × Nat) := none
  load : Nat := 0
deriving DecidableEq, Repr

/-- A computation held by an easel (R385, R402). -/
structure Comp where
  id : Nat
  f : Nat
  /-- Library entry; none for a built-in operation. -/
  entry : Option Nat := none
  attempt : Nat := 1
  pages : Nat := 0
  yielded : Bool := false
  /-- The computation has ended, and its pages wait for an outstanding extension request (R431). -/
  dead : Bool := false
  pc : Nat := 0
  stack : List Limb := []
  rets : List Nat := []
  /-- Z, N, C, V in bits 0 to 3. -/
  flags : BitVec 4 := 0
  mh : Limb := 0
  ml : Limb := 0
  /-- Products in flight: the cycle of issue and the product, oldest first. -/
  flight : List (Nat × BitVec 128) := []
  slot0 : Slot := {}
  slot1 : Slot := {}
  active : Bool := false
  segs : List Seg := []
  /-- Cycles since the start or the last resumption, and in all (R402). -/
  run : Nat := 0
  total : Nat := 0
  /-- Own work done so far by an instruction that yields internally (R428); for a built-in operation, the yields made. -/
  part : Nat := 0
  /-- A digest engine is awaited for the hashes of RSA_VERIFY_PSS (R370). -/
  hashing : Bool := false
  /-- The outstanding request of the extension port: OPC bits, IMM, a, b (R429). -/
  cx : Option (Nat × Nat × Limb × Limb) := none
deriving DecidableEq, Repr

/-- An easel (R385-R400). -/
structure Easel where
  comps : List Comp := []
  /-- Request whose computation runs. -/
  running : Option Nat := none
  recover : Nat := 0
  test : Bool := false
deriving DecidableEq, Repr

/-- Gallery registers (R320-R326). -/
structure Gal where
  val : Tbl Bytes := []
  count : Tbl Nat := []
  /-- Extensions in progress and behind it: register and X. -/
  ext : List (Nat × Bytes) := []
  /-- The digest latch: HALG, USER_LO, digest of 64 bytes. -/
  latch : Option (Nat × Nat × Bytes) := none
deriving DecidableEq, Repr

/-- States of a noise source (R477). -/
inductive SrcState where
  | off | starting | healthy | restarting | retired
deriving DecidableEq, Repr

/-- A noise source (R453-R460, R477): state, alarm, failures, periods of R459 that have ended, the numbers of the samples of its recent
failures (R458), last sample and run length; whether the start of R468 still waits for it. -/
structure Src where
  state : SrcState := .off
  alarm : Bool := false
  fails : Nat := 0
  pos : Nat := 0
  recent : List Nat := []
  last : Option Bool := none
  run : Nat := 0
  awaited : Bool := false
deriving DecidableEq, Repr

/-- Entropy (R449-R478). -/
structure Ent where
  /-- ENT_STATUS.STATE. -/
  state : Nat := 0
  src : Tbl Src := []
  /-- Released windows with the bytes not yet taken, oldest first; bytes taken of the oldest. -/
  pal : List Bytes := []
  palOff : Nat := 0
  /-- Windows that have passed while release still waits for the start (R468). -/
  held : List Bytes := []
  /-- Order of admission of the request that took the last turn (R465). -/
  turn : Nat := 0
  /-- The start period of R468 has not ended. -/
  starting : Bool := false
  enable : Bool := false
  -- raw mode
  raw : Bool := false
  rawDone : Bool := false
  rawErr : Bool := false
  /-- LEN of the capture, bytes whose writes have been queued, bytes acknowledged. -/
  rawLen : Nat := 0
  rawIssued : Nat := 0
  rawBytes : Nat := 0
  /-- Number of the current or last capture, which its writes carry (R474, R478). -/
  rawCap : Nat := 0
deriving DecidableEq, Repr

/-- Self-test (R545-R547, R552): the test in service and the last commanded one. -/
structure Bist where
  busy : Bool := false
  done : Bool := false
  pass : Bool := false
  abandoned : Bool := false
  kind : Nat := 0
  unit : Nat := 0
  sig : BitVec 128 := 0
  /-- The field tests in progress: unit and tests left. -/
  field : List (Nat × List Nat) := []
  lastField : Nat := 0
deriving DecidableEq, Repr

/-- The last measurement of a unit (R534, R553). -/
structure AgeU where
  valid : Bool := false
  slack : Nat := 0
  hour4 : Nat := 0
  projValid : Bool := false
  e : Nat := 0xFFFFF
  step : Nat := 0
  mret : Bool := false
deriving DecidableEq, Repr

/-- The scheduler (R203, R205): pointers and credits per arbiter and class, the classes that have had a round, last
contended grants per arbiter; the
retries that wait for a lane or digest engine (R292, R564), the requests of a retired digest engine that wait for a
bank (R564), and the computations that wait for another easel (R382, R389): request, attempt, the easel left; whether a rotation of
the reserve role waits (R36). -/
structure Sched where
  ptr : Tbl Nat := []
  credit : Tbl Nat := []
  began : List Nat := []
  recent : Tbl (List Bool) := []
  laneRetry : List Run := []
  digRetry : List Run := []
  digMove : List Nat := []
  easelMove : List (Nat × Nat × Nat) := []
  rotate : Bool := false
deriving DecidableEq, Repr

/-- An eligibility interval in progress: its gate, the t_open of its window, the LEAD it began under (R210, R214). -/
structure Elig where
  g : Nat
  opens : Nat
  lead : Nat
deriving DecidableEq, Repr

/-- The gate list in operation is in GATE_OPER; here OPER, PENDING, the time from which the list has been in operation, and
the eligibility intervals in progress (R208-R214). -/
structure Gate where
  oper : Bool := false
  pending : Bool := false
  since : Nat := 0
  elig : List Elig := []
deriving DecidableEq, Repr

/-- The state of the block. -/
structure State where
  /-- The commands that wait, first in, first out. -/
  pending : List Instr := []
  blk : Blk := {}
  pwr : Pwr := {}
  port : Port := {}
  /-- Stored register fields by register key. -/
  regs : Tbl Word := []
  fab : Fab := {}
  kl : Kl := {}
  primer : Primer := {}
  time : TimeU := {}
  flt : Flt := {}
  tly : Tly := {}
  fns : Tbl Fn := []
  /-- PEND bits: function and vector with a message due (R178). -/
  vpend : List (Nat × Nat) := []
  rings : Tbl Ring := []
  reqs : List Req := []
  sched : Sched := {}
  gate : Gate := {}
  ctx : Ctx := {}
  lanes : Tbl Eng := []
  /-- The lane that holds the reserve role (R36). -/
  reserve : Option Nat := none
  digs : Tbl Eng := []
  gal : Gal := {}
  easels : Tbl Easel := []
  tables : Tables := {}
  ent : Ent := {}
  bist : Bist := {}
  age : Tbl AgeU := []
  /-- aon ticks since `por_n` (R530). -/
  ticks : Nat := 0
  /-- Microseconds of running time of the lane, digest and easel clocks (R503). -/
  runLane : Nat := 0
  runDig : Nat := 0
  runPke : Nat := 0
  /-- Busy cycles of lane 0 to 8 and digest engine 9 to 12 beyond the last full 1,024 (R297, R319). -/
  busyRest : Tbl Nat := []
  /-- The model's own counter for free values (log entry 2). -/
  free : Nat := 0
  /-- The model's own counter that names requests and transactions (log entry 2). -/
  nextId : Nat := 0
deriving DecidableEq, Repr

/-- The block right after reset: `por_n` and `blk_rst_n` low, every register at its reset value, no command waiting. -/
def State.reset : State := {}

end Sys2Proof.Machine
end

