-- ==== Sys2Proof/Machine/Ops.lean ====
section
/-! DEFINITION. Named operations over the state that every unit shares: register fields, counters, unit tables, the
nanosecond count, fault capture, names for requests. -/
namespace Sys2Proof.Machine

/-- A command's outcome in this model: a next state. -/
abbrev Out := Host.Outcome State Fault Refusal

/-- The stored value of a register. -/
def State.reg (s : State) (n : RegName) (i : Nat := 0) (j : Nat := 0) : Word := tget regDefault s.regs (regKey n i j)

/-- Store a register's value. -/
def State.setReg (s : State) (n : RegName) (i j : Nat) (v : Word) : State :=
  { s with regs := tset regDefault s.regs (regKey n i j) v }

/-- Raise a counter modulo 2^32. -/
def State.bump (s : State) (n : RegName) (i : Nat := 0) (j : Nat := 0) : State := s.setReg n i j (s.reg n i j + 1)

/-- Raise a saturating counter by `k`. -/
def State.bumpSat (s : State) (n : RegName) (i : Nat := 0) (j : Nat := 0) (k : Nat := 1) : State :=
  s.setReg n i j (BitVec.ofNat 32 (min ((s.reg n i j).toNat + k) 0xFFFFFFFF))

/-- Function `f` after a block reset (R112, R113): M is enabled. -/
def fnInit (f : Nat) : Fn := { enabled := f == 16 }

/-- Function `f`. -/
def State.fn (s : State) (f : Nat) : Fn := tget fnInit s.fns f
/-- Replace function `f`. -/
def State.setFn (s : State) (f : Nat) (x : Fn) : State := { s with fns := tset fnInit s.fns f x }

/-- Global ring number (R200). -/
def ringG (f n : Nat) : Nat := if f = 16 then 1024 + n else 64 * f + n
/-- Function of a ring number. -/
def ringF (g : Nat) : Nat := if 1024 ≤ g then 16 else g / 64
/-- Ring number inside its function. -/
def ringN (g : Nat) : Nat := if 1024 ≤ g then g - 1024 else g % 64

/-- Ring `g`. -/
def State.ring (s : State) (g : Nat) : Ring := tget (fun _ => {}) s.rings g
/-- Replace ring `g`. -/
def State.setRing (s : State) (g : Nat) (x : Ring) : State := { s with rings := tset (fun _ => {}) s.rings g x }

/-- Lane `n`. -/
def State.lane (s : State) (n : Nat) : Eng := tget (fun _ => {}) s.lanes n
/-- Replace lane `n`. -/
def State.setLane (s : State) (n : Nat) (x : Eng) : State := { s with lanes := tset (fun _ => {}) s.lanes n x }
/-- Digest engine `e`. -/
def State.dig (s : State) (e : Nat) : Eng := tget (fun _ => {}) s.digs e
/-- Replace digest engine `e`. -/
def State.setDig (s : State) (e : Nat) (x : Eng) : State := { s with digs := tset (fun _ => {}) s.digs e x }
/-- Easel `e`. -/
def State.easel (s : State) (e : Nat) : Easel := tget (fun _ => {}) s.easels e
/-- Replace easel `e`. -/
def State.setEasel (s : State) (e : Nat) (x : Easel) : State := { s with easels := tset (fun _ => {}) s.easels e x }
/-- Island `i`: 0 to 8 lanes, 9 digest, 10 easel, 11 entropy, 12 core (R101). -/
def State.isl (s : State) (i : Nat) : Isl := tget (fun _ => {}) s.pwr.isl i
/-- Replace island `i`. -/
def State.setIsl (s : State) (i : Nat) (x : Isl) : State :=
  { s with pwr := { s.pwr with isl := tset (fun _ => {}) s.pwr.isl i x } }
/-- Noise source `i`. -/
def State.source (s : State) (i : Nat) : Src := tget (fun _ => {}) s.ent.src i
/-- Replace noise source `i`. -/
def State.setSource (s : State) (i : Nat) (x : Src) : State :=
  { s with ent := { s.ent with src := tset (fun _ => {}) s.ent.src i x } }
/-- Ageing record of unit `u`. -/
def State.ageU (s : State) (u : Nat) : AgeU := tget (fun _ => {}) s.age u
/-- Replace the ageing record of unit `u`. -/
def State.setAgeU (s : State) (u : Nat) (x : AgeU) : State := { s with age := tset (fun _ => {}) s.age u x }

/-- The island is powered and released from isolation. -/
def State.islandUp (s : State) (i : Nat) : Bool := (s.isl i).step == .up

/-- Bit `u` of the retirement map as the units see it (R504). -/
def State.retired (s : State) (u : Nat) : Bool := s.flt.retired.getLsbD u

/-- The nanosecond count (R480). -/
def State.now (s : State) : Nat := s.time.count % 2 ^ 64

/-- Power of two of a bit number, as a word. -/
def bit32 (b : Nat) : Word := BitVec.ofNat 32 (2 ^ b)

/-- Effective class of a source (R502): the larger of its floor and FLT_REACT.CLASS; FUNCTION_FATAL on a source that is
no halt, and codes 5 to 7, act as BLOCK_FATAL; the sources 0x00 and 0x01 have no reaction entry. -/
def State.faultClass (s : State) (src : Nat) : Nat :=
  let fl := (faultFloor src).getD 0
  if src ≤ 1 then 4 else
  let c := max fl (fld (s.reg .fltReact 0 src) 2 0)
  if c = 3 ∧ ¬ (0x81 ≤ src ∧ src ≤ 0x88) then 4 else if 4 < c then 4 else c

/-- The IDs that name one checker (R514). -/
def faultChecker (src : Nat) : Nat :=
  if src = 0x12 then 0x10 else if src = 0x13 then 0x11
  else if 0x30 ≤ src ∧ src ≤ 0x39 then 0x39
  else if src = 0x57 ∨ src = 0x58 then 0x57
  else if src = 0x68 then 0x69
  else if 0x70 ≤ src ∧ src ≤ 0x73 then 0x70
  else if src = 0x74 ∨ src = 0x75 then 0x79
  else if src = 0x80 then 0x8B
  else if src = 0x91 then 0x90
  else if src = 0xB2 then 0xB3
  else src

/-- Number of the checker that an armed injection names, if one is armed. -/
def State.armedChecker (s : State) : Option Nat :=
  if s.flt.armed then some (faultChecker (fld (s.reg .fltInj) 7 0)) else none

/-- The injection has fired: ARMED falls and DONE is set (R514). -/
def State.injFired (s : State) : State := { s with flt := { s.flt with armed := false, injDone := true } }

/-- An armed injection of word-code checker `c` strikes the word that is read now (R514): whether it makes it uncorrectable. -/
def State.wordStrike (s : State) (c : Nat) : Option Bool :=
  if s.armedChecker = some c then some (bitOf (s.reg .fltInj) 8) else none

/-- A unit's own recovery, unless its event is BLOCK_FATAL, which replaces it (R502, R515). -/
def State.recover (s : State) (k : State → State) : State := if s.blk.frozen then s else k s

/-- End a stalled register read with a response (R44, R45). -/
def State.endStall (s : State) (code : Nat) (v : Word) : State :=
  match s.port.stall with
  | some _ => { s with port := { s.port with stall := none, code := code, data := v } }
  | none => s

/-- The block is out of reset and powered (R29). -/
def State.awake (s : State) : Bool := s.blk.st != .reset && s.blk.st != .unpowered

/-- A checker's event reaches the capture stage (R506). From the capture of an event whose effective class is
BLOCK_FATAL nothing commits, drains or issues, and a stalled read ends with ERROR (R515). -/
def State.capture (s : State) (src : Nat) (detail : Nat := 0) (tag : Nat := 31) (inj : Bool := false) (least : Nat := 0) :
    State :=
  if (faultFloor src).isNone then s else
  let e : Event := { src := src, tag := tag, detail := detail % 0x10000, time := s.now,
                     coarse := !s.islandUp 12, inj := inj, cycle := s.flt.cycle, least := least }
  let s := { s with flt := { s.flt with captured := s.flt.captured ++ [e] } }
  if (s.faultClass src = 4 ∨ least = 4) ∧ s.awake = true then { (s.endStall 1 0) with blk := { s.blk with frozen := true } } else s

/-- A word read under checker `c` is corrected where an armed injection strikes it once (R514): event `src` for word `idx`. -/
def State.singleStrike (s : State) (c src idx : Nat) : State :=
  if s.wordStrike c = some false then s.injFired.capture src idx 31 true else s

/-- The block drains for deep sleep, or writes its counters back (R107 steps 1 to 3). -/
def State.draining (s : State) : Bool := s.blk.pm != 0 && s.blk.phase != 8

/-- Traffic may be issued and work may commit: in service, or starting, or draining for deep sleep, and no fatal event
has been captured (R515). -/
def State.live (s : State) : Bool := !s.blk.frozen && (s.blk.st == .service || s.blk.st == .starting || s.draining)

/-- The request with a name. -/
def State.req (s : State) (id : Nat) : Option Req := s.reqs.find? (fun r => r.id == id)

/-- Replace the request of that name. -/
def State.setReq (s : State) (r : Req) : State :=
  { s with reqs := s.reqs.map (fun x => if x.id = r.id then r else x) }

/-- Is PEND set on a vector? -/
def State.pendOn (s : State) (f v : Nat) : Bool := s.vpend.contains (f, v)

/-- Size N of a ring (R145). -/
def State.ringSize (s : State) (f n : Nat) : Nat := 2 ^ (fld (s.reg .ringCfg f n) 4 0)

/-- Base address of a ring. -/
def State.ringBase (s : State) (f n : Nat) : Nat := (s.reg .ringBaseLo f n).toNat + (s.reg .ringBaseHi f n).toNat * 2 ^ 32

/-- Address of the entry at a position. -/
def State.entryAddr (s : State) (f n pos : Nat) : Nat := s.ringBase f n + pos % s.ringSize f n * 64

/-- A position as the registers show it: LAP and INDEX (R145). -/
def State.posWord (s : State) (f n pos : Nat) : Word :=
  let N := s.ringSize f n
  BitVec.ofNat 32 (pos / N % 2 * 0x10000 + pos % N)

/-- Window `w` of function `f` covers a page for reading or for writing (R119, R120). -/
def State.winCovers (s : State) (f w page : Nat) (write : Bool) : Bool :=
  let lo := s.reg .winBaseLo f w
  let base := (lo.toNat / 0x1000) + (s.reg .winBaseHi f w).toNat * 0x100000
  let lim := ((s.reg .winLimitLo f w).toNat / 0x1000) + (s.reg .winLimitHi f w).toNat * 0x100000
  (if write then bitOf lo 1 else bitOf lo 0) && decide (base ≤ page) && decide (page ≤ lim)

/-- R120 for one page. -/
def State.pageOk (s : State) (f page : Nat) (write : Bool) : Bool := (List.range 8).any (fun w => s.winCovers f w page write)

/-- First address of a range that is not empty whose page fails R120, page by page. -/
def State.winFailF (s : State) (f : Nat) (write : Bool) : Nat → Nat → Nat → Option Nat
  | 0, _, _ => none
  | fuel + 1, a, e =>
    if s.pageOk f (a % 2 ^ 64 / 0x1000) write then
      (if e ≤ (a / 0x1000 + 1) * 0x1000 then none else s.winFailF f write fuel ((a / 0x1000 + 1) * 0x1000) e)
    else some a

/-- First address of `len` bytes from `a` that fails R120. -/
def State.winFail (s : State) (f a len : Nat) (write : Bool) : Option Nat :=
  if len = 0 then none else s.winFailF f write (len / 0x1000 + 2) a (a + len)

/-- Handle range of a function (R123): base and limit. -/
def State.ctxBase (s : State) (f : Nat) : Nat := (s.reg .fnCtxBase f).toNat
/-- Last handle of a function's range. -/
def State.ctxLimit (s : State) (f : Nat) : Nat := (s.reg .fnCtxLimit f).toNat
/-- Handle `h` lies in the function's range (R123). -/
def State.inRange (s : State) (f h : Nat) : Bool := decide (s.ctxBase f ≤ h) && decide (h ≤ s.ctxLimit f)

/-- Apply a state change `n` times. -/
def iterate (n : Nat) (g : State → State) (s : State) : State :=
  match n with
  | 0 => s
  | k + 1 => iterate k g (g s)

end Sys2Proof.Machine
end

