-- ==== Sys2Proof/Machine/Power.lean ====
section
/-! DEFINITION. Clock requests, power islands, retention (R25-R28, R69-R71, R103-R105). -/
namespace Sys2Proof.Machine

/-- Bit number of a clock domain. -/
def clkIdx : ClkDomain → Nat
  | .reg => 0 | .fab0 => 1 | .fab1 => 2 | .disp => 3 | .lane => 4 | .dig => 5 | .pke => 6 | .ent => 7 | .kl => 8
  | .nvm => 9 | .time => 10 | .bist => 11 | .tally => 12

/-- Island number (R101). -/
def islIdx : Island → Nat
  | .lane n => n.val | .dig => 9 | .easel => 10 | .ent => 11 | .core => 12

/-- Set or clear one bit of a 13-bit value. -/
def setBit13 (v : BitVec 13) (b : Nat) (x : Bool) : BitVec 13 :=
  if x then v ||| BitVec.ofNat 13 (2 ^ b) else v &&& ~~~(BitVec.ofNat 13 (2 ^ b))

/-- Clock of domain `d` is requested and acknowledged (R70). -/
def State.clkOk (s : State) (d : Nat) : Bool := s.pwr.clkReq.getLsbD d && s.pwr.clkAck.getLsbD d

/-- The island has retention that its configuration enables (R103): lanes, easel cluster, core. -/
def State.retains (s : State) (i : Nat) : Bool :=
  let c := s.reg .pmCfg
  if i < 9 then bitOf c 0 else if i = 10 then bitOf c 1 else if i = 12 then bitOf c 2 else false

/-- The island has released its isolation: the time unit resumes without FINE when it is the core (R484). -/
def State.islReady (s : State) (i : Nat) : State :=
  let s := s.setIsl i { s.isl i with step := .up, wake := false, idle := none }
  if i = 12 then { s with time := { s.time with fine := false } } else s

/-- A background activity needs the clock of a domain: where it is not acknowledged the request is raised, and the activity waits for
it (R25, R70; log entry 49). -/
def State.bgAsk (s : State) (d : Nat) : State := { s with pwr := { s.pwr with bg := setBit13 s.pwr.bg d true } }

/-- The background activity in a domain has run. -/
def State.bgDone (s : State) (d : Nat) : State := { s with pwr := { s.pwr with bg := setBit13 s.pwr.bg d false } }

/-- A wake request (R71, R105): from down it raises the power request, unless the last acknowledge has not fallen (R69);
during the down sequence it waits for the sequence to complete. -/
def State.islWake (s : State) (i : Nat) : State :=
  let x := s.isl i
  match x.step with
  | .down => if x.ack then s.setIsl i { x with wake := true }
             else s.setIsl i { x with step := .upPower, req := true, wake := false }
  | .downRet => s.setIsl i { x with wake := true }
  | .downPower => s.setIsl i { x with wake := true }
  | _ => s

/-- What the island loses when it goes off without retention, and what is zeroed before retention (R27, R103). -/
def State.islLose (s : State) (i : Nat) (kept : Bool) : State :=
  let s := if i = 12 then { s with ctx := { s.ctx with keys := [], hmac := [], cache := if kept then s.ctx.cache else [] }
                                   time := { s.time with fine := false } }
           else s
  let s := if i = 11 then { s with ent := { s.ent with pal := [], palOff := 0 } } else s
  if i < 9 ∧ ¬kept then s.setLane i { s.lane i with banks := [], run := none } else s

/-- What BLK_PM_CFG held when the island became idle decides whether it goes to retention (R104). -/
def State.keeps (s : State) (i : Nat) : Bool := (s.isl i).idle.getD (s.retains i)

/-- Begin the down sequence of R71: isolation, then retention if enabled, then power. The retention request rises once the
acknowledge of the last one has fallen (R69). -/
def State.islDown (s : State) (i : Nat) : State :=
  let x := s.isl i
  if x.step ≠ .up then s else
  let kept := s.keeps i
  let s := s.islLose i kept
  if kept then s.setIsl i { x with step := .downRet, retReq := !x.retAck, kept := true, idle := none }
  else s.setIsl i { x with step := .downPower, req := false, kept := false, idle := none }

/-- `pwr_ack_i` moves (R69, R71). -/
def State.powerAck (s : State) (i : Nat) (v : Bool) : State :=
  let x := { s.isl i with ack := v }
  if v then
    match x.step with
    | .upPower => if x.retReq || x.retAck then s.setIsl i { x with retReq := false, step := .upRet } else (s.setIsl i x).islReady i
    | _ => s.setIsl i x
  else if x.req then (s.setIsl i x).capture 0x05
  else
    match x.step with
    | .downPower => let s := s.setIsl i { x with step := .down }
                    if x.wake then s.islWake i else s
    | .down => let s := s.setIsl i x
               if x.wake then s.islWake i else s
    | _ => s.setIsl i x

/-- `ret_ack_i` moves, or is taken as moved when R500 treats the island as off (R69, R71). -/
def State.retAck (s : State) (i : Nat) (v : Bool) : State :=
  let x := { s.isl i with retAck := v }
  match x.step, v with
  | .downRet, true => if x.retReq then s.setIsl i { x with req := false, step := .downPower } else s.setIsl i x
  | .downRet, false => s.setIsl i { x with retReq := true }
  | .upRet, false => (s.setIsl i x).islReady i
  | _, _ => s.setIsl i x

/-- `clk_ack_d` moves; a fall while the request is high is CLK_ACK (R70, R500). -/
def State.clockAck (s : State) (d : Nat) (v : Bool) : State :=
  let s := { s with pwr := { s.pwr with clkAck := setBit13 s.pwr.clkAck d v } }
  if !v && s.pwr.clkReq.getLsbD d then s.capture 0x04 else s

/-- One request line under the four-phase order of R69: it rises when wanted and the acknowledge has fallen, and falls
when no longer wanted and the acknowledge has risen. -/
def fourPhase (want req ack : Bool) : Bool := if want then req || !ack else req && !ack

/-- Drive the clock requests from what each domain wants (R25). -/
def State.driveClocks (s : State) (want : Nat → Bool) : State :=
  { s with pwr := { s.pwr with
      clkReq := (List.range 13).foldl
        (fun v d => setBit13 v d (fourPhase (want d) (s.pwr.clkReq.getLsbD d) (s.pwr.clkAck.getLsbD d))) s.pwr.clkReq } }

/-- All fast clocks and islands off, the acknowledges being the host chip's: reset, deep sleep, snowplough (R40, R107,
R516). -/
def State.allOff (s : State) : State :=
  { s with pwr := { s.pwr with
      clkReq := 0
      isl := s.pwr.isl.filterMap (fun e =>
        if e.2.ack || e.2.retAck then some (e.1, { ack := e.2.ack, retAck := e.2.retAck }) else none) } }

end Sys2Proof.Machine
end

