-- ==== Sys2Proof/Machine/Tally.lean ====
section
/-! DEFINITION. The tally store (R520-R526): paired cells, the write queue, refusals, and the persistent counters'
high parts (R527). -/
namespace Sys2Proof.Machine

/-- Endurance limit of a register (R522). -/
def tlyLimit : Nat := 1000000

/-- Cell 1 holds the newer generation, counting modulo 4 (R520). -/
def cellNewer (c : Cell × Cell) : Bool := c.2.gen == c.1.gen + 1

/-- The valid cell with the newer generation, none where neither is valid (R520, R523). -/
def tlyPick (c : Cell × Cell) : Option Cell :=
  if c.1.good ∧ c.2.good then some (if cellNewer c then c.2 else c.1)
  else if c.1.good then some c.1
  else if c.2.good then some c.2
  else none

/-- The two cells of register `i`; a freshly cleared store reads 0 with wear 0. -/
def State.tlyCells (s : State) (i : Nat) : Cell × Cell := tget (fun _ => ({}, {})) s.tly.cells i

/-- The durable value of register `i`. -/
def State.tlyVal (s : State) (i : Nat) : Word := ((tlyPick (s.tlyCells i)).getD {}).val

/-- WEAR of register `i`. -/
def State.tlyWearOf (s : State) (i : Nat) : Nat := ((tlyPick (s.tlyCells i)).getD {}).wear

/-- Writes to register `i` in progress, queued or waiting, oldest first. -/
def State.tlyAhead (s : State) (i : Nat) : List TlyW :=
  (s.tly.cur.toList ++ s.tly.queue ++ s.tly.wait).filter (fun w => w.idx == i)

/-- The value that the register will hold once every earlier write has ended as requested (R521). -/
def State.tlyNext (s : State) (i : Nat) : Word :=
  match (s.tlyAhead i).getLast? with
  | some w => w.val
  | none => s.tlyVal i

/-- Insert by class, after the writes of the same class (R524). -/
def tlyInsert (w : TlyW) : List TlyW → List TlyW
  | [] => [w]
  | x :: t => if w.cls < x.cls then w :: x :: t else x :: tlyInsert w t

/-- Merge a later write into a queued one of the same register: the later value, the better class, the earlier place
within that class; every waiter is served (R524). -/
def tlyMerge (w : TlyW) (l : List TlyW) : List TlyW :=
  match l.find? (fun x => x.idx == w.idx) with
  | none => l
  | some x =>
    let m := { x with val := w.val, cls := min x.cls w.cls, who := x.who ++ w.who }
    if x.cls ≤ w.cls then l.map (fun y => if y.idx = w.idx then m else y)
    else tlyInsert m (l.filter (fun y => y.idx != w.idx))

/-- Move waiting writes into the queue while it has room (R524). -/
def tlyFillF : Nat → List TlyW → List TlyW → List TlyW × List TlyW
  | 0, q, w => (q, w)
  | _, q, [] => (q, [])
  | f + 1, q, x :: t => if q.length < 16 then tlyFillF f (tlyInsert x q) t else (q, x :: t)

/-- The high part H of a function's persistent counter as the store holds it (R527). -/
def State.sealH (s : State) (f : Nat) : Nat :=
  (s.tlyVal (64 + 2 * f)).toNat + (s.tlyVal (65 + 2 * f)).toNat % 0x10000 * 2 ^ 32

/-- Units tested at start: the unretired lanes, digest engines and easels (R542). -/
def State.testUnits (s : State) : List Nat := (List.range 17).filter (fun u => !s.retired u)

/-- A noise source starts under R455 unless it is retired or its SRC_EN bit is 0. -/
def State.startSource (s : State) (i : Nat) : State :=
  if s.retired (19 + i) ∨ ¬ bitOf (s.reg .entCtrl) i then s
  else s.setSource i { s.source i with state := .starting, alarm := false, last := none, run := 0, awaited := true }

/-- Entropy starts (R468): the island comes up, every enabled source starts, STATE is WARMING. -/
def State.entropyStart (s : State) : State :=
  let s := s.islWake 11
  let s := (List.range 8).foldl State.startSource s
  { s with ent := { s.ent with enable := true, state := 1, starting := true } }

/-- Start of WARMUP (R83): every unit is powered, MBIST and KAT are due on every lane, digest engine and easel, entropy
is enabled. -/
def State.enterWarmup (s : State) : State :=
  let s := { s with blk := { s.blk with phase := 5, toTest := s.testUnits.flatMap (fun u => [(u, 1), (u, 2)]) } }
  let s := (List.range 11).foldl State.islWake s
  s.entropyStart

/-- Step 5 of RELEASE (R97): the tables and the context key of the image become usable. -/
def State.usable (s : State) : State :=
  match s.primer.staged with
  | some (t, k) => { s with tables := t, ctx := { s.ctx with key := k }, primer := {} }
  | none => s

/-- What a finished or refused tally write does for its requester (R98, R139, R226, R522, R528, R529). -/
def State.tlyEffect (s : State) (idx : Nat) (ok : Bool) : TlyWho → State
  | .floor => s.usable.enterWarmup
  | .epoch f => s.setFn f { s.fn f with epochBusy := false, epochFail := !ok }
  | .gen => { s with ctx := { s.ctx with genBusy := false, genFail := !ok } }
  | .seal f upper =>
    let x := s.fn f
    if ok then
      (if upper then s
       else if x.sealStarted then s.setFn f { x with sealAdvance := false }
       else s.setFn f { x with sealAdvance := false, sealStarted := true, sealHigh := s.sealH f, sealLow := 0 })
    else
      let s := s.setFn f { s.fn f with sealAdvance := false, sealDead := true }
      -- without its upper part the lower part would fall back (R526)
      if upper then { s with tly := { s.tly with queue := s.tly.queue.filter (fun w => w.idx != 64 + 2 * f)
                                                 wait := s.tly.wait.filter (fun w => w.idx != 64 + 2 * f) } } else s
  | .retire | .hist | .m | .plan | .repair => if idx = 1024 then s else s

/-- Start queued writes until one runs: a write past the endurance limit is refused, recorded and reported (R522). -/
def State.tlyStartF : Nat → State → State
  | 0, s => s
  | fuel + 1, s =>
    match s.tly.cur, s.tly.queue with
    | none, w :: t =>
      let (q, wt) := tlyFillF (s.tly.wait.length) t s.tly.wait
      let s := { s with tly := { s.tly with queue := q, wait := wt } }
      if tlyLimit ≤ s.tlyWearOf w.idx then
        let s := { s with tly := { s.tly with refused := some w.idx } }
        let s := s.capture 0x92 w.idx
        tlyStartF fuel (w.who.foldl (fun s x => s.tlyEffect w.idx false x) s)
      else { s with tly := { s.tly with cur := some w } }
    | _, _ => s

/-- Start the next write if none runs. -/
def State.tlyStart (s : State) : State := State.tlyStartF (s.tly.queue.length + s.tly.wait.length + 1) s

/-- A write joins the queue: merged with a queued or waiting one of its register, else by class; behind 16 queued writes it waits
outside the queue (R524). -/
def State.tlyEnqueue (s : State) (w : TlyW) : State :=
  let s : State :=
    if s.tly.queue.any (fun x => x.idx == w.idx) then { s with tly := { s.tly with queue := tlyMerge w s.tly.queue } }
    else if s.tly.wait.any (fun x => x.idx == w.idx) then { s with tly := { s.tly with wait := tlyMerge w s.tly.wait } }
    else if s.tly.queue.length < 16 then { s with tly := { s.tly with queue := tlyInsert w s.tly.queue } }
    else { s with tly := { s.tly with wait := tlyInsert w s.tly.wait } }
  s.tlyStart

/-- A write is requested (R521, R524). -/
def State.tlyWrite (s : State) (idx : Nat) (val : Word) (cls : Nat) (who : List TlyWho) : State :=
  let ahead := s.tlyAhead idx
  if val = s.tlyNext idx then
    match ahead.getLast? with
    | none => who.foldl (fun s x => s.tlyEffect idx true x) s
    | some _ =>
      -- complete when the last of the earlier writes is durable
      if (s.tly.queue ++ s.tly.wait).any (fun w => w.idx == idx) then
        { s with tly := { s.tly with
            queue := s.tly.queue.map (fun w => if w.idx = idx then { w with who := w.who ++ who } else w)
            wait := s.tly.wait.map (fun w => if w.idx = idx then { w with who := w.who ++ who } else w) } }
      else { s with tly := { s.tly with cur := s.tly.cur.map (fun w => { w with who := w.who ++ who }) } }
  else
    s.tlyEnqueue { idx := idx, val := val, cls := cls, who := who }

/-- Program the cell that does not hold the current value (R521). -/
def tlyProgram (c : Cell × Cell) (v : Word) : Cell × Cell :=
  match tlyPick c with
  | none => c
  | some cur =>
    let new : Cell := { val := v, wear := cur.wear + 1, gen := cur.gen + 1, good := true }
    if c.1.good ∧ (¬ c.2.good ∨ ¬ cellNewer c) then (c.1, new) else (new, c.2)

/-- The write in progress becomes durable (R521), and the next one starts; the store works only while `tally_clk` runs (R70). -/
def State.tlyDurable (s : State) : State :=
  if ¬ s.clkOk 12 then s else
  match s.tly.cur with
  | none => s
  | some w =>
    let s := { s with tly := { s.tly with
        cells := tset (fun _ => ({}, {})) s.tly.cells w.idx (tlyProgram (s.tlyCells w.idx) w.val)
        cur := none, writes := s.tly.writes + 1 } }
    let s := w.who.foldl (fun s x => s.tlyEffect w.idx true x) s
    s.tlyStart

/-- A history record (R508): the record, then the count. -/
def State.history (s : State) (src cls detail : Nat) : State :=
  let k := (s.tlyNext 49).toNat
  let rec_ := k % 256 * 2 ^ 24 + src * 2 ^ 16 + cls * 2 ^ 13 + detail % 2 ^ 13
  let s := s.tlyWrite (50 + k % 8) (BitVec.ofNat 32 rec_) 1 [.hist]
  s.tlyWrite 49 (BitVec.ofNat 32 (k + 1)) 1 [.hist]

/-- First and last unit number of the class of unit `u` (R504, R525). -/
def unitClass (u : Nat) : Nat × Nat :=
  if u < 9 then (0, 9) else if u < 13 then (9, 13) else if u < 17 then (13, 17) else if u < 19 then (17, 19) else (19, 27)

/-- Retired units of the class of `u`. -/
def State.classRetired (s : State) (u : Nat) : Nat :=
  ((List.range 27).filter (fun x => decide ((unitClass u).1 ≤ x) && decide (x < (unitClass u).2) && s.retired x)).length

/-- Retirement ID of a unit (R500, R503): ports report FAB_PERM. -/
def retireId (u : Nat) : Nat :=
  if u < 9 then 0x2A else if u < 13 then 0x45 else if u < 17 then 0x55 else if u < 19 then 0x16 + (u - 17) else 0x6A

/-- A permanent fault of unit `u` (R35, R503): its bit is set in the retirement map, and its retirement ID is raised with
DETAIL the unit number (the source number for entropy), as BLOCK_FATAL where its class has lost a unit before; entropy
sources follow their own rule. -/
def State.markRetired (s : State) (u : Nat) : State :=
  if s.retired u then s else
  let s := { s with flt := { s.flt with retired := s.flt.retired ||| BitVec.ofNat 27 (2 ^ u) } }
  let s := s.tlyWrite 48 (s.tlyNext 48 ||| BitVec.ofNat 32 (2 ^ u)) 1 [.retire]
  s.capture (retireId u) (if u < 19 then u else u - 19) 31 false (if u < 19 ∧ 1 < s.classRetired u then 4 else 0)

/-- Advance a function's persistent counter's high part: the upper register first where it carries, and not at all where that write is
refused (R526, R528, R529). -/
def State.sealAdvanceStart (s : State) (f : Nat) : State :=
  if (s.fn f).sealAdvance ∨ (s.fn f).sealDead then s else
  let h := s.sealH f + 1
  if 2 ^ 48 ≤ h then s.setFn f { s.fn f with sealDead := true } else
  let s := s.setFn f { s.fn f with sealAdvance := true }
  let s := if h % 2 ^ 32 = 0 then s.tlyWrite (65 + 2 * f) (BitVec.ofNat 32 (h / 2 ^ 32)) 2 [.seal f true] else s
  if (s.fn f).sealDead then s else s.tlyWrite (64 + 2 * f) (BitVec.ofNat 32 (h % 2 ^ 32)) 2 [.seal f false]

/-- The failed cell of register `i` is rewritten with the valid value; the repair counts as a write (R522, R523). -/
def State.tlyRepair (s : State) (i : Nat) (v : Word) : State :=
  if tlyLimit ≤ s.tlyWearOf i then (({ s with tly := { s.tly with refused := some i } } : State).capture 0x92 i)
  else if s.tlyAhead i = [] then s.tlyEnqueue { idx := i, val := v, cls := 5, who := [.repair] }
  else s

/-- Register `i` reads back through its newer valid cell at INIT or in the background (R523): a bad cell beside a valid
one is rewritten and TLY_CORR raised; with neither valid, TLY_LOST. -/
def State.tlyScanOne (s : State) (i : Nat) : State :=
  let c := s.tlyCells i
  if c.1.good ∧ c.2.good then s
  else match tlyPick c with
    | none => s.capture 0x91 i
    | some cur => (s.capture 0x90 i).recover (fun s => (s.bumpSat .tlyRepairCount).tlyRepair i cur.val)

end Sys2Proof.Machine
end

