-- ==== Sys2Proof/Machine/Bus.lean ====
section
/-! DEFINITION. The word code (R497-R499), fabric transactions (R47-R58) and key-lift requests (R59-R63). -/
namespace Sys2Proof.Machine

/-- For j = 0 to 7, the data bits whose column value has bit j set (R497). -/
def codeMasks : List (BitVec 128) :=
  [0x55AAAAAAAAAAAAAAAB55555556AAAD5B,
   0x66CCCCCCCCCCCCCCCD9999999B33366D,
   0x78F0F0F0F0F0F0F0F1E1E1E1E3C3C78E,
   0x80FF00FF00FF00FF01FE01FE03FC07F0,
   0x00FFFF0000FFFF0001FFFE0003FFF800,
   0x00FFFFFFFF00000001FFFFFFFC000000,
   0x00FFFFFFFFFFFFFFFE00000000000000,
   0xFF000000000000000000000000000000]

/-- Parity of a 128-bit value. -/
def parity128 (x : BitVec 128) : Bool :=
  let a := x ^^^ (x >>> 64)
  let a := a ^^^ (a >>> 32)
  let a := a ^^^ (a >>> 16)
  let a := a ^^^ (a >>> 8)
  let a := a ^^^ (a >>> 4)
  let a := a ^^^ (a >>> 2)
  (a ^^^ (a >>> 1)).getLsbD 0

/-- A number from bits, bit 0 first. -/
def ofBits : List Bool → Nat
  | [] => 0
  | b :: t => (if b then 1 else 0) + 2 * ofBits t

/-- The low eight check bits of the plain code (R497). -/
def codeLow (d : BitVec 128) : Nat := ofBits (codeMasks.map (fun m => parity128 (d &&& m)))

/-- The plain code C(d): nine check bits (R497). -/
def wordCode (d : BitVec 128) : BitVec 9 :=
  let lo := codeLow d
  BitVec.ofNat 9 (lo + if xor (parity128 d) (parity128 (BitVec.ofNat 128 lo)) then 256 else 0)

/-- The key k(W) of a word number (R498). -/
def wordKey (w : Nat) : BitVec 9 :=
  let b := (List.range 8).foldl (fun a i => Nat.xor a (w % 2 ^ 60 / 2 ^ (8 * i) % 256)) 0
  BitVec.ofNat 9 (b + if parity128 (BitVec.ofNat 128 b) then 256 else 0)

/-- Stored check bits of a word (R498). -/
def storedCode (w : Nat) (d : BitVec 128) : BitVec 9 := wordCode d ^^^ wordKey w

/-- Column value v_i of data bit i: the (i+1)-th smallest integer from 3 that is no power of two (R497). -/
def columnBit (v : Nat) : Option Nat :=
  -- v - 3 numbers lie below v from 3 on, of which those that are powers of two are 4, 8, 16, 32, 64, 128
  if v < 3 ∨ v = 4 ∨ v = 8 ∨ v = 16 ∨ v = 32 ∨ v = 64 ∨ v = 128 then none
  else
    let p := ([4, 8, 16, 32, 64, 128].filter (fun x => decide (x < v))).length
    if v - 3 - p < 128 then some (v - 3 - p) else none

/-- What the reader of a word finds (R499). -/
inductive WordRead where
  | good (d : BitVec 128)
  | corrected (d : BitVec 128)
  | bad
deriving DecidableEq, Repr

/-- Check a word read with its check bits at the word number expected (R499). -/
def readWord (w : Nat) (d : BitVec 128) (c : BitVec 9) : WordRead :=
  let c' := c ^^^ wordKey w
  let sH := Nat.xor (codeLow d) (c'.toNat % 256)
  let sP := xor (parity128 d) (parity128 (BitVec.ofNat 128 c'.toNat))
  if sP then
    if sH = 0 then .corrected d
    else match columnBit sH with
      | some i => .corrected (d ^^^ BitVec.ofNat 128 (2 ^ i))
      | none => if sH = 1 ∨ sH = 2 ∨ sH = 4 ∨ sH = 8 ∨ sH = 16 ∨ sH = 32 ∨ sH = 64 ∨ sH = 128 then .corrected d else .bad
  else if sH = 0 then .good d else .bad

/-- Invert c[0], or c[0] and c[1], of check bits: the injection of R514. -/
def injectCode (double : Bool) (c : BitVec 9) : BitVec 9 := c ^^^ (if double then 3 else 1)

-- fabric ----------------------------------------------------------------------------------------------------------

/-- Lines that `len` bytes from `a` touch. -/
def linesOf (a len : Nat) : Nat := if len = 0 then 0 else (a + len - 1) / 32 - a / 32 + 1

/-- Beats of a transaction (R48). -/
def Txn.beats (t : Txn) : Nat := linesOf t.addr t.len

/-- Cut a range into bursts that stay in a 4 KiB page and name at most 64 beats (R48). -/
def burstsF : Nat → Nat → Nat → List (Nat × Nat)
  | 0, _, _ => []
  | f + 1, a, len =>
    if len = 0 then [] else
    let stop := min ((a / 0x1000 + 1) * 0x1000) (a / 32 * 32 + 64 * 32)
    let l := min len (stop - a)
    (a, l) :: burstsF f (a + l) (len - l)

/-- The bursts of a range. -/
def bursts (a len : Nat) : List (Nat × Nat) := burstsF (len / 0x800 + 3) a len

/-- Port `p` is in service. -/
def State.portUp (s : State) (p : Fin 2) : Bool := !s.retired (17 + p.val)

/-- The other port. -/
def otherPort (p : Fin 2) : Fin 2 := if p = 0 then 1 else 0

/-- A port's clock is running and requested, and the core island is up (R25, R70). -/
def State.portClock (s : State) (p : Fin 2) : Bool := s.clkOk (1 + p.val) && s.islandUp 12

/-- The port that carries a transaction: the fixed one where an order fixes it and it is in service, the only one in
service, else a free choice of the block (R492). -/
def State.choosePort (s : State) (t : Txn) : Fin 2 :=
  match t.fixed with
  | some p => if s.portUp p then p else otherPort p
  | none => if ¬ s.portUp 0 then 1 else if ¬ s.portUp 1 then 0 else if Config.freePort s.free then 1 else 0

/-- Lowest transaction number that no outstanding transaction of the port and direction uses, below `lim` (R50). -/
def freeNum (l : List Txn) (p : Fin 2) (lim : Nat) : Option Nat :=
  (List.range lim).find? (fun n => l.all (fun t => t.port != p || t.num != n))

/-- RING_CFG.ORDER: as-ready completion. -/
def State.asReady (s : State) (f n : Nat) : Bool := bitOf (s.reg .ringCfg f n) 8

/-- The ring of the request whose completion a write carries. -/
def State.complRing (s : State) (t : Txn) : Option (Nat × Nat) :=
  match t.use with
  | .compl id => (s.req id).map (fun r => (r.f, r.n))
  | _ => none

/-- A completion write of a ring with ORDER = 0 that has not been issued waits while an earlier one of the ring is under reissue
(R492). -/
def State.behindReissue (s : State) (t : Txn) : Bool :=
  match s.complRing t with
  | some (f, n) => !t.sent && !s.asReady f n && (s.fab.wr ++ s.fab.wrQ).any (fun x => x.again && s.complRing x == some (f, n))
  | none => false

/-- Issue one waiting read if its port can take it; none otherwise. -/
def State.issueRd (s : State) (t : Txn) : Option State :=
  let p := s.choosePort t
  if ¬ s.portUp p ∨ ¬ s.portClock p then none else
  match freeNum s.fab.rd p 256 with
  | none => none
  | some n => some { s with fab := { s.fab with rd := s.fab.rd ++ [{ t with port := p, num := n, sent := true }] }, free := s.free + 1 }

/-- Issue one waiting write if its port can take it. -/
def State.issueWr (s : State) (t : Txn) : Option State :=
  let p := s.choosePort t
  if ¬ s.portUp p ∨ ¬ s.portClock p ∨ (s.fab.wr ++ s.fab.wrQ).any (fun x => t.after.contains x.serial) ∨ s.behindReissue t = true then none
  else
  match freeNum s.fab.wr p 128 with
  | none => none
  | some n => some { s with fab := { s.fab with wr := s.fab.wr ++ [{ t with port := p, num := n, sent := true }] }, free := s.free + 1 }

/-- Try every waiting read in order. -/
def State.pumpRdF : List Txn → State → State
  | [], s => s
  | t :: l, s =>
    match s.issueRd t with
    | some s' => pumpRdF l s'
    | none => pumpRdF l { s with fab := { s.fab with rdQ := s.fab.rdQ ++ [t] } }

/-- Try every waiting write in order; a write that others follow stands in one of the two lists while they are tried. -/
def State.pumpWrF : List Txn → State → State
  | [], s => s
  | t :: l, s =>
    match s.issueWr t with
    | some s' => pumpWrF l s'
    | none => pumpWrF l { s with fab := { s.fab with wrQ := s.fab.wrQ ++ [t] } }

/-- Issue what waits (R25, R50); nothing after the capture of a fatal event (R515). -/
def State.pumpFab (s : State) : State :=
  if ¬ s.live then s else
  let s := State.pumpRdF s.fab.rdQ { s with fab := { s.fab with rdQ := [] } }
  State.pumpWrF s.fab.wrQ { s with fab := { s.fab with wrQ := [] } }

/-- Queue the reads of a range for a use and a tag. -/
def State.queueRead (s : State) (a len tag : Nat) (use : Use) : State :=
  let ts := (bursts a len).map (fun b => ({ addr := b.1, len := b.2, tag := tag, use := use } : Txn))
  { s with fab := { s.fab with rdQ := s.fab.rdQ ++ ts } }

/-- Queue the writes of a range. -/
def State.queueWrite (s : State) (a : Nat) (data : Bytes) (tag : Nat) (use : Use) (fixed : Option (Fin 2) := none)
    (after : List Nat := []) (buf : Option (Nat × Nat) := none) : State :=
  let ts := (bursts a data.length).map (fun b =>
    ({ addr := b.1, len := b.2, data := slice data (b.1 - a) b.2, tag := tag, use := use, fixed := fixed,
       after := after, serial := s.nextId, buf := buf } : Txn))
  { s with fab := { s.fab with wrQ := s.fab.wrQ ++ ts }, nextId := s.nextId + 1 }

/-- A write that is issued at once or not at all. -/
def State.sendNow (s : State) (a : Nat) (data : Bytes) (tag : Nat) (use : Use) : Option State :=
  (s.issueWr { addr := a, len := data.length, data := data, tag := tag, use := use, serial := s.nextId }).map
    (fun s => { s with nextId := s.nextId + 1 })

/-- Every write of a use, waiting or outstanding. -/
def State.writesOf (s : State) (p : Use → Bool) : List Txn := (s.fab.wr ++ s.fab.wrQ).filter (fun t => p t.use)

/-- Every read of a use, waiting or outstanding. -/
def State.readsOf (s : State) (p : Use → Bool) : List Txn := (s.fab.rd ++ s.fab.rdQ).filter (fun t => p t.use)

/-- A permanent fault of a port (R57, R503): the port is retired, its outstanding transactions are reissued on the other
one; the second retired port is BLOCK_FATAL. -/
def State.portFault (s : State) (p : Fin 2) : State :=
  if ¬ s.portUp p then s else
  let s := s.markRetired (17 + p.val)
  let mine := fun (t : Txn) => t.port == p
  { s with fab := { s.fab with
      rd := s.fab.rd.filter (fun t => !mine t), wr := s.fab.wr.filter (fun t => !mine t)
      rdQ := s.fab.rd.filter mine ++ s.fab.rdQ, wrQ := s.fab.wr.filter mine ++ s.fab.wrQ } }

/-- The two halves of a beat: word number and data (R53, R498). -/
def beatHalf (a : Nat) (d : BitVec 256) (hi : Bool) : Nat × BitVec 128 :=
  if hi then (a / 16 + 1, d.extractLsb' 128 128) else (a / 16, d.extractLsb' 0 128)

/-- Data of one line, byte i of the line in bits [8i+7:8i]. -/
def beatBytes (lo hi : BitVec 128) : Bytes := natLE 16 lo.toNat ++ natLE 16 hi.toNat

/-- What checking a burst yields: its bytes if no beat is errored, and how many halves were corrected. -/
structure BurstRead where
  bytes : Option Bytes := some []
  corr : Nat := 0

/-- Check one half (R54, R499). -/
def BurstRead.half (b : BurstRead) (w : Nat) (d : BitVec 128) (c : BitVec 9) : BurstRead :=
  match readWord w d c with
  | .good x => { b with bytes := b.bytes.map (· ++ natLE 16 x.toNat) }
  | .corrected x => { bytes := b.bytes.map (· ++ natLE 16 x.toNat), corr := b.corr + 1 }
  | .bad => { b with bytes := none }

/-- Check one beat at its line address (R53-R55). -/
def BurstRead.beat (b : BurstRead) (a : Nat) (x : ReadBeat) : BurstRead :=
  let b := if x.stat = 0 then b else { b with bytes := none }
  let b := b.half (a / 16) (x.data.extractLsb' 0 128) (x.chk.extractLsb' 0 9)
  b.half (a / 16 + 1) (x.data.extractLsb' 128 128) (x.chk.extractLsb' 9 9)

/-- Check all beats of a burst from its line address. -/
def readBurst (a : Nat) (beats : List ReadBeat) : BurstRead :=
  (beats.zipIdx).foldl (fun b x => b.beat (a / 32 * 32 + 32 * x.2) x.1) {}

/-- The beats are numbered 0, 1 and so on, as many as the read named (R51, R57). -/
def beatsInOrder (n : Nat) (beats : List ReadBeat) : Bool :=
  beats.length == n && (beats.zipIdx).all (fun x => x.1.beat == x.2)

/-- Check bits of a burst that the block writes: bytes outside the enabled run are 0 (R53). -/
def writeBeat (t : Txn) (k : Nat) : BitVec 256 × BitVec 18 :=
  let line := t.addr / 32 * 32
  let pre := if k = 0 then t.addr - line else 0
  let start := if k = 0 then 0 else line + 32 * k - t.addr
  let body := (t.data.drop start).take (32 - pre)
  let b := slice (zeros pre ++ body) 0 32
  let lo := BitVec.ofNat 128 (leNat (b.take 16))
  let hi := BitVec.ofNat 128 (leNat (b.drop 16))
  let w := (line + 32 * k) / 16
  (BitVec.ofNat 256 (leNat b), (storedCode (w + 1) hi) ++ (storedCode w lo))

-- key lift --------------------------------------------------------------------------------------------------------

/-- A key is needed: unless the same request is outstanding or waits, it is queued (R257, R59). -/
def State.klNeed (s : State) (slot tag use : Nat) : State :=
  let same := fun (k : KlReq) => k.slot == slot && k.tag == tag && k.use == use && !k.timedOut
  if (s.kl.out ++ s.kl.wait).any same then s
  else { s with kl := { s.kl with wait := s.kl.wait ++ [{ slot := slot, tag := tag, use := use, since := s.nextId }] }, nextId := s.nextId + 1 }

/-- Issue waiting key-lift requests while fewer than four are owed an answer; the 10 µs of each begin with its transfer (R59, R63). -/
def State.pumpKl (s : State) : State :=
  if ¬ s.live ∨ ¬ s.clkOk 8 then s else
  let room := 4 - s.kl.out.length
  { s with kl := { s.kl with out := s.kl.out ++ (s.kl.wait.take room).map (fun k => { k with since := s.nextId })
                             wait := s.kl.wait.drop room }
           nextId := s.nextId + 1 }

/-- A refusal is counted and recorded (R258). -/
def State.klRefused (s : State) (k : KlReq) : State :=
  (({ s with kl := { s.kl with last := some k } } : State)).bumpSat .klRefuseCount

end Sys2Proof.Machine
end

