-- ==== Sys2Proof/Machine/Aes.lean ====
section
/-! DEFINITION. The AES block cipher (FIPS 197) and GF(2^128) multiplication, which R264, R272 and R232 use by name. -/
namespace Sys2Proof.Machine

/-- Doubling in GF(2^8). -/
def gfDouble (b : Byte) : Byte := (b <<< 1) ^^^ (if b.msb then 0x1b#8 else 0#8)

/-- Product in GF(2^8), bit by bit of the second factor; `n` counts the bits left. -/
def gfMulF : Nat → Byte → Byte → Byte
  | 0, _, _ => 0
  | n + 1, a, b => (if b.getLsbD 0 then a else 0#8) ^^^ gfMulF n (gfDouble a) (b >>> 1)

/-- Product in GF(2^8). -/
def gfMul (a b : Byte) : Byte := gfMulF 8 a b

/-- The inverse in GF(2^8), 0 for 0: the power 254. -/
def gfInv (a : Byte) : Byte :=
  let a2 := gfMul a a
  let a3 := gfMul a2 a
  let a12 := let t := gfMul a3 a3; gfMul t t
  let a15 := gfMul a12 a3
  let a240 := let t := gfMul a15 a15; let t := gfMul t t; let t := gfMul t t; gfMul t t
  gfMul (gfMul a240 a12) a2

/-- The substitution of one byte. -/
def sboxOf (a : Byte) : Byte :=
  let i := gfInv a
  i ^^^ i.rotateLeft 1 ^^^ i.rotateLeft 2 ^^^ i.rotateLeft 3 ^^^ i.rotateLeft 4 ^^^ 0x63#8

/-- The substitution box. -/
def sboxTable : List Byte := (List.range 256).map (fun i => sboxOf (BitVec.ofNat 8 i))

/-- The inverse substitution box. -/
def sboxInvTable : List Byte := (List.range 256).map (fun i => BitVec.ofNat 8 (sboxTable.idxOf (BitVec.ofNat 8 i)))

/-- Substitution of a byte by the table. -/
def sbox (b : Byte) : Byte := sboxTable.getD b.toNat 0

/-- Inverse substitution of a byte by the table. -/
def sboxInv (b : Byte) : Byte := sboxInvTable.getD b.toNat 0

/-- Row shift of a 16-byte state in column order; `inv` selects the inverse direction. -/
def shiftRows (inv : Bool) (s : Bytes) : Bytes :=
  (List.range 16).map (fun i =>
    let r := i % 4
    let c := i / 4
    byteAt s (r + 4 * ((if inv then c + 4 - r else c + r) % 4)))

/-- Column mix by the circulant row `m`. -/
def mixColumns (m : Bytes) (s : Bytes) : Bytes :=
  (List.range 16).map (fun i =>
    let r := i % 4
    let c := i / 4
    (List.range 4).foldl (fun acc k => acc ^^^ gfMul (byteAt s (4 * c + k)) (byteAt m ((k + 4 - r) % 4))) 0)

/-- The next round-key word from the word before and the word `nk` before. -/
def keyWord (nk i : Nat) (rcon : Byte) (prev back : Bytes) : Bytes :=
  let t := if i % nk = 0 then xorBytes ((prev.drop 1 ++ prev.take 1).map sbox) [rcon, 0, 0, 0]
           else if nk > 6 ∧ i % nk = 4 then prev.map sbox else prev
  xorBytes back t

/-- Key expansion: words are kept newest first. -/
def expandF (nk : Nat) : Nat → Nat → Byte → List Bytes → List Bytes
  | 0, _, _, ws => ws
  | n + 1, i, rcon, ws =>
    let w := keyWord nk i rcon (ws.getD 0 []) (ws.getD (nk - 1) [])
    expandF nk n (i + 1) (if i % nk = 0 then gfDouble rcon else rcon) (w :: ws)

/-- The round keys of a key of 16, 24 or 32 bytes, 16 bytes each. -/
def roundKeys (key : Bytes) : List Bytes :=
  let nk := key.length / 4
  let ws := (expandF nk (4 * (nk + 7) - nk) nk 1 (chunks 4 key).reverse).reverse
  (chunks 16 ws.flatten)

/-- AES encryption of one 16-byte block under expanded round keys. -/
def aesEncRK (rks : List Bytes) (b : Bytes) : Bytes :=
  match rks with
  | [] => b
  | k0 :: rest =>
    let mid := rest.dropLast
    let s := mid.foldl (fun s k => xorBytes (mixColumns [2, 3, 1, 1] (shiftRows false (s.map sbox))) k) (xorBytes b k0)
    xorBytes (shiftRows false (s.map sbox)) (rest.getLastD [])

/-- AES decryption of one 16-byte block under expanded round keys. -/
def aesDecRK (rks : List Bytes) (b : Bytes) : Bytes :=
  match rks.reverse with
  | [] => b
  | k0 :: rest =>
    let mid := rest.dropLast
    let s := mid.foldl (fun s k => mixColumns [14, 11, 13, 9] (xorBytes ((shiftRows true s).map sboxInv) k)) (xorBytes b k0)
    xorBytes ((shiftRows true s).map sboxInv) (rest.getLastD [])

/-- AES encryption of one block. -/
def aesEnc (key b : Bytes) : Bytes := aesEncRK (roundKeys key) b

/-- AES decryption of one block. -/
def aesDec (key b : Bytes) : Bytes := aesDecRK (roundKeys key) b

/-- One step of the shift-and-add product in GF(2^128) of GCM; `n` bits are left. -/
def ghMulF : Nat → BitVec 128 → BitVec 128 → BitVec 128 → BitVec 128
  | 0, _, _, z => z
  | n + 1, x, v, z =>
    ghMulF n (x <<< 1)
      (if v.getLsbD 0 then (v >>> 1) ^^^ (0xE1#128 <<< 120) else v >>> 1)
      (if x.msb then z ^^^ v else z)

/-- Product in GF(2^128) with the bit order of SP 800-38D. -/
def ghMul (x y : BitVec 128) : BitVec 128 := ghMulF 128 x y 0

/-- A 16-byte block as a 128-bit value, first byte highest. -/
def blockBV (b : Bytes) : BitVec 128 := BitVec.ofNat 128 (beNat (slice b 0 16))

/-- A 128-bit value as a 16-byte block. -/
def bvBlock (x : BitVec 128) : Bytes := natBE 16 x.toNat

/-- GHASH of zero-padded data under the hash key `h`. -/
def ghash (h : BitVec 128) (b : Bytes) : BitVec 128 :=
  (chunks 16 b).foldl (fun y c => ghMul (y ^^^ blockBV c) h) 0

end Sys2Proof.Machine
end

