-- ==== Sys2Proof/Machine/Sha.lean ====
section
/-! DEFINITION. The hash algorithms of R299: SHA-2 (FIPS 180-4), SHA-3 and SHAKE (FIPS 202), and HMAC (FIPS 198-1).
Constants are computed from the definitions of the standards. -/
namespace Sys2Proof.Machine

/-- The hash algorithms by their HALG code (R299). -/
inductive Halg where
  | sha224 | sha256 | sha384 | sha512 | sha512_256 | sha3_224 | sha3_256 | sha3_384 | sha3_512 | shake128 | shake256
deriving DecidableEq, Repr

/-- HALG code to algorithm; 0xB to 0xF are reserved (R299). -/
def Halg.ofCode : Nat → Option Halg
  | 0 => some .sha224 | 1 => some .sha256 | 2 => some .sha384 | 3 => some .sha512 | 4 => some .sha512_256
  | 5 => some .sha3_224 | 6 => some .sha3_256 | 7 => some .sha3_384 | 8 => some .sha3_512
  | 9 => some .shake128 | 10 => some .shake256 | _ => none

/-- Algorithm to HALG code (R299). -/
def Halg.code : Halg → Nat
  | .sha224 => 0 | .sha256 => 1 | .sha384 => 2 | .sha512 => 3 | .sha512_256 => 4 | .sha3_224 => 5 | .sha3_256 => 6
  | .sha3_384 => 7 | .sha3_512 => 8 | .shake128 => 9 | .shake256 => 10

/-- Block size or rate B in bytes (R299). -/
def Halg.block : Halg → Nat
  | .sha224 | .sha256 => 64
  | .sha384 | .sha512 | .sha512_256 => 128
  | .sha3_224 => 144 | .sha3_256 => 136 | .sha3_384 => 104 | .sha3_512 => 72 | .shake128 => 168 | .shake256 => 136

/-- Digest size D in bytes (R299); 0 for SHAKE, whose output length is AUX_LENGTH. -/
def Halg.digest : Halg → Nat
  | .sha224 => 28 | .sha256 => 32 | .sha384 => 48 | .sha512 => 64 | .sha512_256 => 32
  | .sha3_224 => 28 | .sha3_256 => 32 | .sha3_384 => 48 | .sha3_512 => 64 | .shake128 => 0 | .shake256 => 0

/-- Size F of the SHA-2 length field in bytes (R299). -/
def Halg.lenField : Halg → Nat
  | .sha224 | .sha256 => 8
  | .sha384 | .sha512 | .sha512_256 => 16
  | _ => 0

/-- SHA-2 family. -/
def Halg.isSha2 : Halg → Bool
  | .sha224 | .sha256 | .sha384 | .sha512 | .sha512_256 => true
  | _ => false

/-- SHAKE. -/
def Halg.isShake : Halg → Bool
  | .shake128 | .shake256 => true
  | _ => false

/-- The 64-byte-block members of SHA-2, with 32-bit words. -/
def Halg.narrow : Halg → Bool
  | .sha224 | .sha256 => true
  | _ => false

/-- Bytes S of the intermediate state in a state record (R310). -/
def Halg.stateBytes (a : Halg) : Nat := if a.narrow then 32 else if a.isSha2 then 64 else 200

/-- Largest `r` below `2^n` times the step with `r^k ≤ v`, built bit by bit. -/
def rootF (k v : Nat) : Nat → Nat → Nat
  | 0, r => r
  | n + 1, r => rootF k v n (if (r + 2 ^ n) ^ k ≤ v then r + 2 ^ n else r)

/-- Integer `k`-th root. -/
def iroot (k v : Nat) : Nat := rootF k v 80 0

/-- The first 80 primes. -/
def primes80 : List Nat := (List.range 410).filter (fun n => 2 ≤ n ∧ (List.range n).all (fun d => d < 2 ∨ n % d ≠ 0))

/-- Round constants with `w`-bit words: fractional parts of cube roots of primes. -/
def shaK (w n : Nat) : List Nat := (primes80.take n).map (fun p => iroot 3 (p * 2 ^ (3 * w)) % 2 ^ w)

/-- Round constants of the narrow members. -/
def shaK32 : List Nat := shaK 32 64

/-- Round constants of the wide members. -/
def shaK64 : List Nat := shaK 64 80

/-- Rotate right in `w` bits. -/
def rotr (w x n : Nat) : Nat := (x / 2 ^ n + x * 2 ^ (w - n)) % 2 ^ w

/-- The parameters of a SHA-2 member: word size, constants and the twelve rotation and shift counts. -/
structure ShaParams where
  w : Nat
  k : List Nat
  s0 : Nat × Nat × Nat
  s1 : Nat × Nat × Nat
  b0 : Nat × Nat × Nat
  b1 : Nat × Nat × Nat

/-- Parameters of a narrow or wide member (FIPS 180-4). -/
def shaParams (narrow : Bool) : ShaParams :=
  if narrow then ⟨32, shaK32, (7, 18, 3), (17, 19, 10), (2, 13, 22), (6, 11, 25)⟩
  else ⟨64, shaK64, (1, 8, 7), (19, 61, 6), (28, 34, 39), (14, 18, 41)⟩

/-- Small sigma: two rotations and a shift. -/
def smallSigma (w : Nat) (c : Nat × Nat × Nat) (x : Nat) : Nat :=
  Nat.xor (Nat.xor (rotr w x c.1) (rotr w x c.2.1)) (x / 2 ^ c.2.2)

/-- Big sigma: three rotations. -/
def bigSigma (w : Nat) (c : Nat × Nat × Nat) (x : Nat) : Nat :=
  Nat.xor (Nat.xor (rotr w x c.1) (rotr w x c.2.1)) (rotr w x c.2.2)

/-- Message schedule, newest word first. -/
def shaSchedF (p : ShaParams) : Nat → List Nat → List Nat
  | 0, ws => ws
  | n + 1, ws =>
    let x := (smallSigma p.w p.s1 (ws.getD 1 0) + ws.getD 6 0 + smallSigma p.w p.s0 (ws.getD 14 0) + ws.getD 15 0) % 2 ^ p.w
    shaSchedF p n (x :: ws)

/-- One round on the eight working words. -/
def shaRound (p : ShaParams) (h : List Nat) (kw : Nat × Nat) : List Nat :=
  match h with
  | [a, b, c, d, e, f, g, hh] =>
    let m := 2 ^ p.w
    let ch := Nat.xor (Nat.land e f) (Nat.land (m - 1 - e) g)
    let maj := Nat.xor (Nat.xor (Nat.land a b) (Nat.land a c)) (Nat.land b c)
    let t1 := (hh + bigSigma p.w p.b1 e + ch + kw.1 + kw.2) % m
    let t2 := (bigSigma p.w p.b0 a + maj) % m
    [(t1 + t2) % m, a, b, c, (d + t1) % m, e, f, g]
  | _ => h

/-- SHA-2 compression of one block into the chaining words. -/
def shaCompress (p : ShaParams) (h : List Nat) (blk : Bytes) : List Nat :=
  let w0 := (chunks (p.w / 8) blk).map beNat
  let ws := (shaSchedF p (p.k.length - 16) w0.reverse).reverse
  List.zipWith (fun x y => (x + y) % 2 ^ p.w) h ((p.k.zip ws).foldl (shaRound p) h)

/-- Chaining words to bytes, each word big-endian (R310). -/
def wordsBytes (w : Nat) (h : List Nat) : Bytes := h.flatMap (natBE (w / 8))

/-- Fractional parts of square roots of eight primes from the `i`-th. -/
def sqrtWords (w i : Nat) : List Nat := ((primes80.drop i).take 8).map (fun p => iroot 2 (p * 2 ^ (2 * w)) % 2 ^ w)

/-- SHA-512 initial words. -/
def iv512 : List Nat := sqrtWords 64 0

/-- SHA-512/256 initial words: the generation function of FIPS 180-4. -/
def iv512t : List Nat :=
  let m : Bytes := [0x53, 0x48, 0x41, 0x2d, 0x35, 0x31, 0x32, 0x2f, 0x32, 0x35, 0x36]
  shaCompress (shaParams false) (iv512.map (Nat.xor 0xa5a5a5a5a5a5a5a5)) (m ++ [0x80] ++ zeros 108 ++ natBE 8 88)

/-- Keccak lane index. -/
def kIdx (x y : Nat) : Nat := x % 5 + 5 * (y % 5)

/-- The degree-8 shift register that gives the round-constant bits; state and the bits so far. -/
def kRc : Nat → Nat → List Bool → List Bool
  | 0, _, acc => acc.reverse
  | n + 1, r, acc => kRc n (let r2 := r * 2; if r2 ≥ 256 then Nat.xor (r2 - 256) 0x71 else r2) ((r % 2 == 1) :: acc)

/-- The 24 round constants. -/
def kConsts : List Nat :=
  let bits := kRc 168 1 []
  (List.range 24).map (fun i => (List.range 7).foldl (fun a j => if bits.getD (7 * i + j) false then a + 2 ^ (2 ^ j - 1) else a) 0)

/-- Rotation offsets and lane moves of rho and pi as triples (x, y, offset). -/
def kRhoF : Nat → Nat → Nat → Nat → List (Nat × Nat × Nat)
  | 0, _, _, _ => []
  | n + 1, t, x, y => (x, y, (t + 1) * (t + 2) / 2 % 64) :: kRhoF n (t + 1) y ((2 * x + 3 * y) % 5)

/-- Rotation offsets by lane index. -/
def kRho : List Nat :=
  (kRhoF 24 0 1 0).foldl (fun l e => setAt l (kIdx e.1 e.2.1) e.2.2) (List.replicate 25 0)

/-- Rotate left in 64 bits. -/
def rotl64 (x n : Nat) : Nat := (x * 2 ^ n + x / 2 ^ (64 - n)) % 2 ^ 64

/-- One round of Keccak-f[1600] on 25 lanes. -/
def kRound (a : List Nat) (rc : Nat) : List Nat :=
  let c := (List.range 5).map (fun x => (List.range 5).foldl (fun v y => Nat.xor v (a.getD (kIdx x y) 0)) 0)
  let d := (List.range 5).map (fun x => Nat.xor (c.getD ((x + 4) % 5) 0) (rotl64 (c.getD ((x + 1) % 5) 0) 1))
  let t := (List.range 25).map (fun i => Nat.xor (a.getD i 0) (d.getD (i % 5) 0))
  -- lane (x, y) of b comes from lane (x + 3y, x)
  let b := (List.range 25).map (fun i =>
    let x := i % 5
    let y := i / 5
    let s := kIdx (x + 3 * y) x
    rotl64 (t.getD s 0) (kRho.getD s 0))
  let e := (List.range 25).map (fun i =>
    let x := i % 5
    let y := i / 5
    Nat.xor (b.getD i 0) (Nat.land (2 ^ 64 - 1 - b.getD (kIdx (x + 1) y) 0) (b.getD (kIdx (x + 2) y) 0)))
  match e with
  | h :: r => Nat.xor h rc :: r
  | [] => []

/-- Keccak-f[1600] on a 200-byte state. -/
def keccakF (s : Bytes) : Bytes := (kConsts.foldl kRound ((chunks 8 s).map leNat)).flatMap (natLE 8)

/-- The intermediate state of a hash in the byte form of a state record (R310). -/
def Halg.init : Halg → Bytes
  | .sha224 => wordsBytes 32 ((sqrtWords 64 8).map (· % 2 ^ 32))
  | .sha256 => wordsBytes 32 (sqrtWords 32 0)
  | .sha384 => wordsBytes 64 (sqrtWords 64 8)
  | .sha512 => wordsBytes 64 iv512
  | .sha512_256 => wordsBytes 64 iv512t
  | _ => zeros 200

/-- Absorb one whole block of B bytes. -/
def Halg.absorb1 (a : Halg) (st blk : Bytes) : Bytes :=
  if a.isSha2 then
    let p := shaParams a.narrow
    wordsBytes p.w (shaCompress p ((chunks (p.w / 8) st).map beNat) blk)
  else keccakF (xorBytes st (blk ++ zeros (200 - blk.length)))

/-- Absorb whole blocks; a last partial block is not absorbed. -/
def Halg.absorb (a : Halg) (st data : Bytes) : Bytes :=
  ((chunks a.block data).filter (fun c => c.length = a.block)).foldl a.absorb1 st

/-- Squeeze `n` bytes from a sponge state; `fuel` bounds the permutations. -/
def squeezeF (rate : Nat) : Nat → Nat → Bytes → Bytes
  | 0, _, _ => []
  | f + 1, n, st => if n ≤ rate then st.take n else st.take rate ++ squeezeF rate f (n - rate) (keccakF st)

/-- Output of `n` bytes from the final state. -/
def Halg.output (a : Halg) (n : Nat) (st : Bytes) : Bytes :=
  if a.isSha2 then st.take n else squeezeF a.block (n + 1) n st

/-- The SHA-2 padding of a message of `m` bytes (R303). -/
def Halg.pad2 (a : Halg) (m : Nat) : Bytes :=
  let f := a.lenField
  let total := ceilDiv (m + 1 + f) a.block * a.block
  [0x80] ++ zeros (total - m - 1 - f) ++ natBE f (8 * m)

/-- Hash of a whole message that the block pads itself (SHA-2 only, R314). -/
def Halg.hashMsg (a : Halg) (m : Bytes) : Bytes := a.output a.digest (a.absorb a.init (m ++ a.pad2 m.length))

/-- SHA-512 of a message. -/
def sha512 (m : Bytes) : Bytes := Halg.sha512.hashMsg m

/-- Inner and outer HMAC states of a key no longer than a block (R260, FIPS 198-1). -/
def hmacStates (a : Halg) (key : Bytes) : Bytes × Bytes :=
  let k := slice key 0 a.block
  (a.absorb1 a.init (k.map (· ^^^ 0x36)), a.absorb1 a.init (k.map (· ^^^ 0x5c)))

/-- The outer hash over the inner digest (R314). -/
def hmacOuter (a : Halg) (outer innerState : Bytes) : Bytes :=
  let d := a.output a.digest innerState
  a.output a.digest (a.absorb outer (d ++ a.pad2 (a.block + a.digest)))

end Sys2Proof.Machine
end

