-- ==== Sys2Proof/Machine/Cipher.lean ====
section
/-! DEFINITION. The symmetric modes (R272-R281): ECB, CBC, CTR, XTS, GCM, CCM, CMAC, ChaCha20, Poly1305, key wrap.
Modes with a position take the offset of the first byte, so that a stroke is computed from its own bytes (R289). -/
namespace Sys2Proof.Machine

/-- ECB over whole blocks. -/
def ecbEnc (key data : Bytes) : Bytes :=
  let rk := roundKeys key
  (chunks 16 data).flatMap (aesEncRK rk)

/-- ECB decryption over whole blocks. -/
def ecbDec (key data : Bytes) : Bytes :=
  let rk := roundKeys key
  (chunks 16 data).flatMap (aesDecRK rk)

/-- CBC over blocks: output and last ciphertext block. -/
def cbcEncF (rk : List Bytes) : Bytes → List Bytes → Bytes → Bytes × Bytes
  | iv, [], acc => (acc, iv)
  | iv, b :: t, acc => let c := aesEncRK rk (xorBytes b iv); cbcEncF rk c t (acc ++ c)

/-- CBC encryption: output and chaining value after the last block (R273). -/
def cbcEnc (key iv data : Bytes) : Bytes × Bytes := cbcEncF (roundKeys key) iv (chunks 16 data) []

/-- CBC decryption over blocks. -/
def cbcDecF (rk : List Bytes) : Bytes → List Bytes → Bytes → Bytes × Bytes
  | iv, [], acc => (acc, iv)
  | iv, b :: t, acc => cbcDecF rk b t (acc ++ xorBytes (aesDecRK rk b) iv)

/-- CBC decryption: output and last ciphertext block. -/
def cbcDec (key iv data : Bytes) : Bytes × Bytes := cbcDecF (roundKeys key) iv (chunks 16 data) []

/-- A counter block whose low-order `w` bits, big-endian, are increased by `j` (R274). -/
def ctrAdd (w : Nat) (blk : Bytes) (j : Nat) : Bytes :=
  let v := beNat blk
  natBE 16 (v / 2 ^ w * 2 ^ w + (v % 2 ^ w + j) % 2 ^ w)

/-- Keystream of `n` blocks from block `j`. -/
def ctrStream (key : Bytes) (w : Nat) (blk : Bytes) (j n : Nat) : Bytes :=
  let rk := roundKeys key
  (List.range n).flatMap (fun i => aesEncRK rk (ctrAdd w blk (j + i)))

/-- CTR over bytes that start at byte `off` of the payload. -/
def ctrAt (key : Bytes) (w : Nat) (blk : Bytes) (off : Nat) (data : Bytes) : Bytes :=
  xorBytes data ((ctrStream key w blk (off / 16) (ceilDiv (off % 16 + data.length) 16)).drop (off % 16))

/-- Multiply an XTS tweak by alpha (SP 800-38E). -/
def xtsAlpha (t : Bytes) : Bytes :=
  let v := leNat t * 2
  natLE 16 (if 2 ^ 128 ≤ v then Nat.xor (v % 2 ^ 128) 0x87 else v)

/-- Tweak of block `j`. -/
def xtsTweak (key2 i : Bytes) (j : Nat) : Bytes := Nat.repeat xtsAlpha j (aesEnc key2 i)

/-- One XTS block. -/
def xtsBlock (enc : Bool) (rk : List Bytes) (t b : Bytes) : Bytes :=
  xorBytes (if enc then aesEncRK rk (xorBytes b t) else aesDecRK rk (xorBytes b t)) t

/-- XTS over the blocks from the tweak `t`, with ciphertext stealing where the last piece is partial. -/
def xtsF (enc : Bool) (rk : List Bytes) : List Bytes → Bytes → Bytes → Bytes
  | [], _, acc => acc
  | [b], t, acc => acc ++ xtsBlock enc rk t b
  | [b, p], t, acc =>
    if p.length = 16 then acc ++ xtsBlock enc rk t b ++ xtsBlock enc rk (xtsAlpha t) p
    else
      let t1 := if enc then t else xtsAlpha t
      let t2 := if enc then xtsAlpha t else t
      let c := xtsBlock enc rk t1 b
      acc ++ xtsBlock enc rk t2 (p ++ c.drop p.length) ++ c.take p.length
  | b :: l, t, acc => xtsF enc rk l (xtsAlpha t) (acc ++ xtsBlock enc rk t b)

/-- XTS over the bytes from block `j` of a data unit (R276, R289). -/
def xtsAt (enc : Bool) (key1 key2 i : Bytes) (j : Nat) (data : Bytes) : Bytes :=
  xtsF enc (roundKeys key1) (chunks 16 data) (xtsTweak key2 i j) []

/-- GCM hash key. -/
def gcmH (key : Bytes) : BitVec 128 := blockBV (aesEnc key (zeros 16))

/-- GCM pre-counter block (R277). -/
def gcmJ0 (key iv : Bytes) : Bytes :=
  if iv.length = 12 then iv ++ [0, 0, 0, 1]
  else bvBlock (ghash (gcmH key) (padTo 16 iv ++ zeros 8 ++ natBE 8 (8 * iv.length)))

/-- GCM payload transform of bytes from payload offset `off`. -/
def gcmCtr (key iv : Bytes) (off : Nat) (data : Bytes) : Bytes := ctrAt key 32 (ctrAdd 32 (gcmJ0 key iv) 1) off data

/-- GCM tag over AAD and ciphertext, 16 bytes. -/
def gcmTag (key iv aad ct : Bytes) : Bytes :=
  let s := bvBlock (ghash (gcmH key) (padTo 16 aad ++ padTo 16 ct ++ natBE 8 (8 * aad.length) ++ natBE 8 (8 * ct.length)))
  xorBytes (aesEnc key (gcmJ0 key iv)) s

/-- CCM AAD length encoding (R278). -/
def ccmAadLen (n : Nat) : Bytes := if n = 0 then [] else if n ≤ 65279 then natBE 2 n else [0xff, 0xfe] ++ natBE 4 n

/-- CCM MAC input: B0, encoded AAD, payload. -/
def ccmInput (nonce aad pt : Bytes) (t : Nat) : Bytes :=
  let q := 15 - nonce.length
  let flags := (if aad = [] then 0 else 64) + (t - 2) / 2 * 8 + (q - 1)
  [BitVec.ofNat 8 flags] ++ nonce ++ natBE q pt.length ++ (if aad = [] then [] else padTo 16 (ccmAadLen aad.length ++ aad)) ++ padTo 16 pt

/-- CCM counter block 0. -/
def ccmA0 (nonce : Bytes) : Bytes := [BitVec.ofNat 8 (14 - nonce.length)] ++ nonce ++ zeros (15 - nonce.length)

/-- CCM payload transform from payload offset `off`. -/
def ccmCtr (key nonce : Bytes) (off : Nat) (data : Bytes) : Bytes :=
  let w := 8 * (15 - nonce.length)
  ctrAt key w (ctrAdd w (ccmA0 nonce) 1) off data

/-- CCM tag over AAD and plaintext, `t` bytes. -/
def ccmTag (key nonce aad pt : Bytes) (t : Nat) : Bytes :=
  let mac := (cbcEnc key (zeros 16) (ccmInput nonce aad pt t)).2
  (xorBytes mac (aesEnc key (ccmA0 nonce))).take t

/-- Doubling in GF(2^128), big-endian (SP 800-38B). -/
def cmacDouble (b : Bytes) : Bytes :=
  let v := beNat b * 2
  natBE 16 (if 2 ^ 128 ≤ v then Nat.xor (v % 2 ^ 128) 0x87 else v)

/-- CMAC (R280), 16 bytes. -/
def cmac (key m : Bytes) : Bytes :=
  let k1 := cmacDouble (aesEnc key (zeros 16))
  let n := if m.length = 0 then 0 else (m.length - 1) / 16 * 16
  let last := m.drop n
  let lb := if last.length = 16 then xorBytes last k1 else xorBytes (slice (last ++ [0x80]) 0 16) (cmacDouble k1)
  (cbcEnc key (zeros 16) (m.take n ++ lb)).2

-- ChaCha20 and Poly1305 ------------------------------------------------------------------------------------------

/-- ChaCha20 quarter round on four words of the state. -/
def quarter (s : List Nat) (a b c d : Nat) : List Nat :=
  let m := 2 ^ 32
  let rl := fun (x n : Nat) => (x * 2 ^ n % m) + x / 2 ^ (32 - n)
  let va := (s.getD a 0 + s.getD b 0) % m
  let vd := rl (Nat.xor (s.getD d 0) va) 16
  let vc := (s.getD c 0 + vd) % m
  let vb := rl (Nat.xor (s.getD b 0) vc) 12
  let va := (va + vb) % m
  let vd := rl (Nat.xor vd va) 8
  let vc := (vc + vd) % m
  let vb := rl (Nat.xor vb vc) 7
  (((s.set a va).set b vb).set c vc).set d vd

/-- Two rounds. -/
def chachaDouble (s : List Nat) : List Nat :=
  let s := quarter (quarter (quarter (quarter s 0 4 8 12) 1 5 9 13) 2 6 10 14) 3 7 11 15
  quarter (quarter (quarter (quarter s 0 5 10 15) 1 6 11 12) 2 7 8 13) 3 4 9 14

/-- One ChaCha20 block (RFC 8439). -/
def chachaBlock (key nonce : Bytes) (ctr : Nat) : Bytes :=
  let s := [0x61707865, 0x3320646e, 0x79622d32, 0x6b206574] ++ (chunks 4 key).map leNat ++ [ctr % 2 ^ 32] ++ (chunks 4 nonce).map leNat
  (List.zipWith (fun x y => (x + y) % 2 ^ 32) (Nat.repeat chachaDouble 10 s) s).flatMap (natLE 4)

/-- ChaCha20 over bytes that start at byte `off`, with the block counter of byte 0. -/
def chachaAt (key nonce : Bytes) (ctr off : Nat) (data : Bytes) : Bytes :=
  let n := ceilDiv (off % 64 + data.length) 64
  xorBytes data (((List.range n).flatMap (fun i => chachaBlock key nonce (ctr + off / 64 + i))).drop (off % 64))

/-- Poly1305 (RFC 8439). -/
def poly1305 (key m : Bytes) : Bytes :=
  let r := Nat.land (leNat (slice key 0 16)) 0x0ffffffc0ffffffc0ffffffc0fffffff
  let p := 2 ^ 130 - 5
  let a := (chunks 16 m).foldl (fun a b => (a + leNat b + 2 ^ (8 * b.length)) * r % p) 0
  natLE 16 (a + leNat (slice key 16 16))

/-- Tag of the AEAD construction of RFC 8439. -/
def chachaTag (key nonce aad ct : Bytes) : Bytes :=
  poly1305 ((chachaBlock key nonce 0).take 32) (padTo 16 aad ++ padTo 16 ct ++ natLE 8 aad.length ++ natLE 8 ct.length)

-- key wrap (SP 800-38F) --------------------------------------------------------------------------------------------

/-- One round of wrapping over the semiblocks. -/
def wrapRound (rk : List Bytes) (x : Bytes × List Bytes × Nat) : Bytes × List Bytes × Nat :=
  x.2.1.foldl (fun (y : Bytes × List Bytes × Nat) r =>
    let b := aesEncRK rk (y.1 ++ r)
    (natBE 8 (Nat.xor (beNat (b.take 8)) (y.2.2 + 1)), y.2.1 ++ [b.drop 8], y.2.2 + 1)) (x.1, [], x.2.2)

/-- Wrapping function W with an initial value. -/
def wrapW (kek iv p : Bytes) : Bytes :=
  let (a, r, _) := Nat.repeat (wrapRound (roundKeys kek)) 6 (iv, chunks 8 p, 0)
  a ++ r.flatten

/-- One round of unwrapping. -/
def unwrapRound (rk : List Bytes) (x : Bytes × List Bytes × Nat) : Bytes × List Bytes × Nat :=
  x.2.1.foldr (fun r (y : Bytes × List Bytes × Nat) =>
    let b := aesDecRK rk (natBE 8 (Nat.xor (beNat y.1) y.2.2) ++ r)
    (b.take 8, b.drop 8 :: y.2.1, y.2.2 - 1)) (x.1, [], x.2.2)

/-- Inverse of W: initial value and plaintext. -/
def unwrapW (kek c : Bytes) : Bytes × Bytes :=
  let r := chunks 8 (c.drop 8)
  let (a, l, _) := Nat.repeat (unwrapRound (roundKeys kek)) 6 (c.take 8, r, 6 * r.length)
  (a, l.flatten)

/-- KW wrap. -/
def kwWrap (kek p : Bytes) : Bytes := wrapW kek (List.replicate 8 0xa6) p

/-- KW unwrap; none where the integrity check fails. -/
def kwUnwrap (kek c : Bytes) : Option Bytes :=
  let (a, p) := unwrapW kek c
  if a = List.replicate 8 0xa6 then some p else none

/-- KWP wrap. -/
def kwpWrap (kek p : Bytes) : Bytes :=
  let aiv : Bytes := [0xa6, 0x59, 0x59, 0xa6] ++ natBE 4 p.length
  let q := padTo 8 p
  if q.length ≤ 8 then aesEnc kek (aiv ++ q) else wrapW kek aiv q

/-- KWP unwrap; none where the integrity check, the padding or the MLI fails. -/
def kwpUnwrap (kek c : Bytes) : Option Bytes :=
  let (a, q) := if c.length = 16 then (let b := aesDec kek c; (b.take 8, b.drop 8)) else unwrapW kek c
  let n := beNat (a.drop 4)
  if a.take 4 = [0xa6, 0x59, 0x59, 0xa6] ∧ q.length < n + 8 ∧ n ≤ q.length ∧ allZero (q.drop n) then some (q.take n) else none

end Sys2Proof.Machine
end

