-- ==== Sys2Proof/Machine/Operands.lean ====
section
/-! DEFINITION. Operand forms: descriptors (R157), fragment entries (R163), completions (R171), context lines (R229),
algorithms (R230), and the descriptor checks of the symmetric, combined, context and random operations. -/
namespace Sys2Proof.Machine

-- completion status codes (R173) -------------------------------------------------------------------------------------

/-- The request succeeded. -/
abbrev stOk : Nat := 0x00
/-- A tag, MAC or record check did not match. -/
abbrev stAuthFail : Nat := 0x01
/-- A signature did not verify. -/
abbrev stVerifyFail : Nat := 0x02
/-- Some signatures of a batch failed. -/
abbrev stPartialBatch : Nat := 0x03
/-- A public-key input or parameter failed its checks. -/
abbrev stInputReject : Nat := 0x04
/-- Declared lengths or parameters disagree with the data. -/
abbrev stFormatMismatch : Nat := 0x05
/-- An inbound sequence number was not accepted. -/
abbrev stReplay : Nat := 0x06
/-- The protocol's counter limit was reached. -/
abbrev stSeqExhausted : Nat := 0x07
/-- The context cannot be used by this function. -/
abbrev stContextDenied : Nat := 0x08
/-- A policing meter refused the request. -/
abbrev stRefusedRate : Nat := 0x09
/-- Entropy did not become available within ENT_WAIT. -/
abbrev stEntropyUnavailable : Nat := 0x0A
/-- A sketch ended in a fault. -/
abbrev stSketchFault : Nat := 0x0B
/-- An earlier chain entry failed. -/
abbrev stChainSkipped : Nat := 0x0C

-- descriptors ------------------------------------------------------------------------------------------------------

/-- CTRL word of a descriptor. -/
def dCtrl (d : Bytes) : Word := BitVec.ofNat 32 (fieldLE d 0 4)
/-- OWN bit. -/
def dOwn (d : Bytes) : Bool := bitOf (dCtrl d) 31
/-- CHAIN bit. -/
def dChain (d : Bytes) : Bool := bitOf (dCtrl d) 30
/-- IRQ bit. -/
def dIrq (d : Bytes) : Bool := bitOf (dCtrl d) 29
/-- FRAG_SRC bit. -/
def dFragSrc (d : Bytes) : Bool := bitOf (dCtrl d) 28
/-- FRAG_DST bit. -/
def dFragDst (d : Bytes) : Bool := bitOf (dCtrl d) 27
/-- CLASS: 0 bulk, 1 priority, 2 gate-locked. -/
def dClass (d : Bytes) : Nat := fld (dCtrl d) 26 25
/-- COLOUR: 0 green, 1 yellow, 2 red. -/
def dColour (d : Bytes) : Nat := fld (dCtrl d) 24 23
/-- PARAM, bits 15:8 of CTRL, numbered as PARAM bit 15 to PARAM bit 8. -/
def dParam (d : Bytes) : Nat := fld (dCtrl d) 15 8
/-- PARAM bit `b`, 8 to 15. -/
def dPbit (d : Bytes) (b : Nat) : Bool := bitOf (dCtrl d) b
/-- OP. -/
def dOp (d : Bytes) : Nat := fld (dCtrl d) 7 0
/-- Word at 0x04. -/
def dW1 (d : Bytes) : Word := BitVec.ofNat 32 (fieldLE d 4 4)
/-- CTX. -/
def dCtx (d : Bytes) : Nat := fld (dW1 d) 24 0
/-- SRC. -/
def dSrc (d : Bytes) : Nat := fieldLE d 0x08 8
/-- DST. -/
def dDst (d : Bytes) : Nat := fieldLE d 0x10 8
/-- LENGTH. -/
def dLen (d : Bytes) : Nat := fieldLE d 0x18 4
/-- AUX_LENGTH. -/
def dAuxLen (d : Bytes) : Nat := fieldLE d 0x1C 4
/-- IV, 16 bytes. -/
def dIv (d : Bytes) : Bytes := slice d 0x20 16
/-- Parameter block address with IV_PTR = 1. -/
def dParamAddr (d : Bytes) : Nat := fieldLE d 0x20 8
/-- AUX. -/
def dAux (d : Bytes) : Nat := fieldLE d 0x30 8
/-- USER. -/
def dUser (d : Bytes) : Bytes := slice d 0x38 4

/-- OP values of R161. -/
def opListed (op : Nat) : Bool :=
  op ≤ 1 || (0x10 ≤ op && op ≤ 0x16) || (0x18 ≤ op && op ≤ 0x24) || (0x30 ≤ op && op ≤ 0x34) || (0x40 ≤ op && op ≤ 0x42)
  || (0x50 ≤ op && op ≤ 0x53) || (0x60 ≤ op && op ≤ 0x68) || op == 0x6F || op == 0x70 || op == 0x71 || (0x80 ≤ op && op ≤ 0x86)

/-- A descriptor of function `f` breaks the STRUCTURE rules of R157 or R161. -/
def dBadStructure (f : Nat) (d : Bytes) : Bool :=
  dClass d == 3 || dColour d == 3 || fld (dCtrl d) 22 16 != 0 || fld (dW1 d) 31 25 != 0 || fieldLE d 0x3C 4 != 0
  || !opListed (dOp d) || (dOp d == 0x68 && f != 16)

/-- Operations on cipher lanes: symmetric, combined and transform (R201). -/
def opLane (op : Nat) : Bool := (0x10 ≤ op && op ≤ 0x24) || (0x40 ≤ op && op ≤ 0x42) || (0x50 ≤ op && op ≤ 0x53)
/-- Operations on digest engines. -/
def opDigest (op : Nat) : Bool := 0x30 ≤ op && op ≤ 0x34
/-- Operations on easels. -/
def opEasel (op : Nat) : Bool := 0x60 ≤ op && op ≤ 0x6F
/-- A combined operation: it uses a lane and a digest engine (R201). -/
def opCombined (op : Nat) : Bool := decide (0x40 ≤ op) && decide (op ≤ 0x42)
/-- Operations that take a grant (R201). -/
def opGranted (op : Nat) : Bool := opLane op || opDigest op || opEasel op
/-- Context operations under R246, RANDOM_KEY among them (R472). -/
def opCtx (op : Nat) : Bool := (0x80 ≤ op && op ≤ 0x86) || op == 0x71
/-- Operations whose AUX_LENGTH counts AAD bytes in the source (R160, R272). -/
def opAad (op : Nat) : Bool :=
  op == 0x18 || op == 0x19 || op == 0x1A || op == 0x1B || op == 0x1C || op == 0x1D || op == 0x21 || op == 0x22
  || (0x40 ≤ op && op ≤ 0x42)
/-- Transforms, whose AUX_LENGTH their stencil defines. -/
def opTransform (op : Nat) : Bool := 0x50 ≤ op && op ≤ 0x53

/-- Declared source size (R160): AAD and payload, or LENGTH. -/
def srcSize (d : Bytes) : Nat := if opAad (dOp d) then dAuxLen d + dLen d else dLen d

/-- Charged size of a request (R184). -/
def charged (d : Bytes) : Nat := max 64 (srcSize d)

/-- The operation reads a source buffer (R159). -/
def opUsesSrc (op : Nat) : Bool :=
  opLane op || opDigest op || op == 0x60 || op == 0x63 || op == 0x64 || op == 0x68 || op == 0x6F || op == 0x80 || op == 0x84

/-- HALG of PARAM. -/
def dHalg (d : Bytes) : Nat := fld (dCtrl d) 14 11

/-- The hash that a digest descriptor names is a SHAKE. -/
def dShake (d : Bytes) : Bool := ((Halg.ofCode (dHalg d)).map Halg.isShake).getD false

/-- The operation writes a destination buffer (R159); MAC, verification and most control operations do not, and of the digest
operations HASH with SHAKE alone (R302). -/
def opUsesDst (d : Bytes) : Bool :=
  let op := dOp d
  (0x10 ≤ op && op ≤ 0x1B) || (0x20 ≤ op && op ≤ 0x24) || (0x40 ≤ op && op ≤ 0x42) || opTransform op
  || (op == 0x30 && dShake d) || op == 0x65 || op == 0x66 || op == 0x6F || op == 0x70 || (op == 0x71 && dPbit d 8) || op == 0x83

-- fragments ---------------------------------------------------------------------------------------------------------

/-- What one fragment entry is (R163). -/
inductive Frag where
  | data (addr len : Nat) (last : Bool)
  | link (addr : Nat)
  /-- Malformed: halt cause 3 STRUCTURE or 4 FRAGMENT. -/
  | bad (cause : Nat)
deriving DecidableEq, Repr

/-- Read a fragment entry of 16 bytes (R163). -/
def fragOf (b : Bytes) : Frag :=
  let addr := fieldLE b 0 8
  let len := fieldLE b 8 4
  let w := BitVec.ofNat 32 (fieldLE b 12 4)
  if fld w 29 0 ≠ 0 then .bad 3
  else if bitOf w 31 then (if len ≠ 0 ∨ bitOf w 30 then .bad 3 else .link addr)
  else if len = 0 then .bad 4 else .data addr len (bitOf w 30)

/-- The part of a segment list from byte `off`, `len` bytes long. -/
def segSlice : List (Nat × Nat) → Nat → Nat → List (Nat × Nat)
  | [], _, _ => []
  | (a, l) :: t, off, len =>
    if len = 0 then []
    else if l ≤ off then segSlice t (off - l) len
    else
      let k := min (l - off) len
      ((a + off) % 2 ^ 64, k) :: segSlice t 0 (len - k)

/-- Total bytes of a segment list. -/
def segTotal (l : List (Nat × Nat)) : Nat := (l.map (·.2)).foldl (· + ·) 0

/-- Place bytes at a list of segments. -/
def segPlace : List (Nat × Nat) → Bytes → List (Nat × Bytes)
  | [], _ => []
  | (a, l) :: t, b => if b = [] then [] else (a, b.take l) :: segPlace t (b.drop l)

-- completions -------------------------------------------------------------------------------------------------------

/-- The 64 bytes of a completion (R171). -/
def completion (r : Req) : Bytes :=
  let flags := r.status + (if r.retried then 0x100 else 0) + (if r.late then 0x200 else 0)
    + (if r.scrubbed then 0x400 else 0) + (if r.wrapped then 0x800 else 0) + r.detail % 0x10000 * 0x10000
  natLE 4 (0x40000000 + dOp r.d) ++ natLE 4 flags ++ natLE 4 r.outBytes ++ natLE 4 0 ++ natLE 8 r.ts
    ++ slice r.result 0 32 ++ dUser r.d ++ natLE 4 r.seqUsed

-- context lines ------------------------------------------------------------------------------------------------------

/-- HDR of a line (R229). -/
structure Hdr where
  owner : Nat := 0
  epoch : Nat := 0
  alg : Nat := 0
  format : Nat := 0
  scrub : Bool := false
  inline : Bool := false
  exp : Bool := false
  cmode : Nat := 0
  ext : Nat := 0
  version : Nat := 0
deriving DecidableEq, Repr

/-- HDR as a 64-bit number. -/
def Hdr.toNat (h : Hdr) : Nat :=
  h.owner * 2 ^ 59 + h.epoch * 2 ^ 43 + h.alg * 2 ^ 38 + h.format * 2 ^ 36 + (if h.scrub then 2 ^ 35 else 0)
  + (if h.inline then 2 ^ 34 else 0) + (if h.exp then 2 ^ 33 else 0) + h.cmode * 2 ^ 31 + h.ext * 2 ^ 28 + h.version

/-- HDR from a 64-bit number. -/
def Hdr.ofNat (v : Nat) : Hdr :=
  { owner := v / 2 ^ 59 % 32, epoch := v / 2 ^ 43 % 2 ^ 16, alg := v / 2 ^ 38 % 32, format := v / 2 ^ 36 % 4
    scrub := v / 2 ^ 35 % 2 == 1, inline := v / 2 ^ 34 % 2 == 1, exp := v / 2 ^ 33 % 2 == 1, cmode := v / 2 ^ 31 % 4
    ext := v / 2 ^ 28 % 8, version := v % 2 ^ 28 }

/-- ALG values that a primary line may hold (R230). -/
def algOk (a : Nat) : Bool :=
  (1 ≤ a && a ≤ 6) || (8 ≤ a && a ≤ 0x0C) || (0x10 ≤ a && a ≤ 0x13) || a == 0x18 || a == 0x1A || a == 0x1C
/-- ALG values that allow KSRC INLINE (R230). -/
def algInline (a : Nat) : Bool := (1 ≤ a && a ≤ 3) || a == 6 || (8 ≤ a && a ≤ 0x0C) || a == 0x18
/-- ALG values that use slot B (R230). -/
def algSlotB (a : Nat) : Bool := a == 4 || a == 5 || (0x10 ≤ a && a ≤ 0x13)
/-- HMAC contexts. -/
def algHmac (a : Nat) : Bool := 8 ≤ a && a ≤ 0x0C

/-- Hash of an HMAC or combined ALG (R230). -/
def algHash (a : Nat) : Option Halg :=
  if a = 8 then some .sha224 else if a = 9 then some .sha256 else if a = 0x0A then some .sha384 else if a = 0x0B then some .sha512
  else if a = 0x0C then some .sha512_256 else if a = 0x10 ∨ a = 0x11 then some .sha256 else if a = 0x12 then some .sha384
  else if a = 0x13 then some .sha512 else none

/-- Bytes of a key by its size attribute (R61); none for the reserved value. -/
def attrBytes (attr : Nat) : Option Nat :=
  if attr % 4 = 0 then some 16 else if attr % 4 = 1 then some 24 else if attr % 4 = 2 then some 32 else none

/-- The size of a lifted key is allowed for slot `sel` of an ALG (R230). -/
def keySizeOk (alg sel n : Nat) : Bool :=
  if algHmac alg || alg == 0x18 then true
  else if sel == 1 && 0x10 ≤ alg && alg ≤ 0x13 then true
  else if alg = 1 || alg = 4 || alg = 0x10 then n == 16
  else if alg = 2 then n == 24
  else if alg = 0x1C then true
  else n == 32

/-- Bytes of an inline key (R251, R472). -/
def inlineBytes (alg : Nat) : Nat := if alg = 1 then 16 else if alg = 2 then 24 else 32

/-- A slot number that a line may name: 0x001 to 0xFFE (R248, R257). -/
def slotOk (v : Nat) : Bool := 1 ≤ v && v ≤ 0xFFE

/-- The fields of a line make it invalid under R229, R230 and R257, given its clear KEY. -/
def lineInvalid (h : Hdr) (key : Bytes) : Bool :=
  16 < h.owner || h.format == 3 || h.cmode == 3
  || (if h.format = 1 then
        !algOk h.alg || (h.inline && !algInline h.alg)
        || (!h.inline && (!slotOk (fieldLE key 0 2)
            || (if algSlotB h.alg then !slotOk (fieldLE key 2 2)
                else if h.alg = 0x1C then fieldLE key 2 2 != 0 && !slotOk (fieldLE key 2 2)
                else fieldLE key 2 2 != 0)))
      else h.alg != 0)

/-- IV of a line's protection (R232). -/
def lineIv (h ver gen : Nat) : Bytes := natLE 4 h ++ natLE 4 ver ++ natLE 2 gen ++ [0, 0]

/-- A line in its memory form (R232): HDR, the 40-byte payload encrypted, tag. -/
def lineSeal (ck : Bytes) (h gen : Nat) (hdr : Hdr) (payload : Bytes) : Bytes :=
  let iv := lineIv h hdr.version gen
  let aad := natLE 8 hdr.toNat
  let ct := gcmCtr ck iv 0 (slice payload 0 40)
  aad ++ ct ++ gcmTag ck iv aad ct

/-- Check and decrypt a line (R232): its clear payload of 40 bytes. -/
def lineOpen (ck : Bytes) (h gen : Nat) (mem : Bytes) : Option Bytes :=
  let aad := slice mem 0 8
  let iv := lineIv h (Hdr.ofNat (leNat aad)).version gen
  let ct := slice mem 8 40
  if gcmTag ck iv aad ct = slice mem 48 16 then some (gcmCtr ck iv 0 ct) else none

/-- HDR of a line in memory form. -/
def lineHdr (mem : Bytes) : Hdr := Hdr.ofNat (fieldLE mem 0 8)

/-- Largest VERSION a line is written with (R233). -/
def versionMax : Nat := 0x0FFFFFFE

-- descriptor checks before any use of the context ----------------------------------------------------------------------

/-- TAG_LEN of PARAM (R267): bytes T, 0 meaning 16. -/
def dTagLen (d : Bytes) : Nat := let t := fld (dCtrl d) 14 11; if t = 0 then 16 else t

/-- Bits of PARAM that R267 assigns to an operation, as a mask of bits 15:8. -/
def paramMask (op : Nat) : Nat :=
  let ivPtr := if op = 0x18 ∨ op = 0x19 ∨ op = 0x1C ∨ op = 0x1D ∨ (0x40 ≤ op ∧ op ≤ 0x42) then 0x80 else 0
  let tagLen := if (0x18 ≤ op ∧ op ≤ 0x1F) ∨ op = 0x21 ∨ op = 0x22 then 0x78 else 0
  let tagAux := if op = 0x18 ∨ op = 0x1A ∨ op = 0x1C ∨ op = 0x1E ∨ op = 0x21 ∨ op = 0x40 ∨ op = 0x42 then 0x04 else 0
  let b9 := if op = 0x18 ∨ op = 0x21 ∨ op = 0x42 then 0x02 else if op = 0x14 then 0x03 else 0
  let b8 := if op = 0x23 ∨ op = 0x24 ∨ (0x40 ≤ op ∧ op ≤ 0x42) then 0x01 else 0
  Nat.lor ivPtr (Nat.lor tagLen (Nat.lor tagAux (Nat.lor b9 b8)))

/-- Allowed tag lengths (R272). -/
def tagLenOk (op t : Nat) (raw : Nat) : Bool :=
  if op = 0x18 ∨ op = 0x19 ∨ op = 0x1C ∨ op = 0x1D then [4, 8, 12, 13, 14, 15, 16].contains t
  else if op = 0x1A ∨ op = 0x1B then [4, 6, 8, 10, 12, 14, 16].contains t
  else if op = 0x1E ∨ op = 0x1F then decide (8 ≤ t) && decide (t ≤ 16)
  else if op = 0x21 ∨ op = 0x22 then raw == 0
  else true

/-- A nonce drawn from the context is asked for (R271). -/
def dIvCtx (d : Bytes) : Bool := (dOp d == 0x18 || dOp d == 0x21) && dPbit d 9

/-- The direction bit of CTR_HMAC (opcode 0x42): verify, then decrypt (R286, R287). -/
def dDir (d : Bytes) : Bool := dOp d == 0x42 && dPbit d 9

/-- Checks 1 to 4 of R268 on a symmetric or combined descriptor: the DETAIL of FORMAT_MISMATCH, or none. -/
def laneCheck (d : Bytes) : Option Nat :=
  let op := dOp d
  let p := dParam d
  let len := dLen d
  let aux := dAuxLen d
  let iv := dIv d
  let ptr := dPbit d 15
  if Nat.land p (0xFF - paramMask op) ≠ 0 then some 0x0004
  else if (0x40 ≤ op ∧ op ≤ 0x42) ∧ ¬ptr then some 0x0004
  else if dIvCtx d ∧ ptr then some 0x0004
  else if op = 0x42 ∧ dPbit d 9 ∧ dPbit d 10 then some 0x0004
  else if op = 0x14 ∧ p % 4 = 3 then some 0x0004
  else if ¬ tagLenOk op (dTagLen d) (fld (dCtrl d) 14 11) then some 0x0113
  else if (0x10 ≤ op ∧ op ≤ 0x13) ∧ len % 16 ≠ 0 then some 0x0110
  else if (op = 0x15 ∨ op = 0x16) ∧ (len < 16 ∨ 16777216 < len) then some 0x0110
  else if (op = 0x1A ∨ op = 0x1B) ∧ 7 ≤ (byteAt iv 0).toNat ∧ (byteAt iv 0).toNat ≤ 13 ∧ 2 ^ (8 * (15 - (byteAt iv 0).toNat)) ≤ len then some 0x0110
  else if (op = 0x1C ∨ op = 0x1D) ∧ len ≠ 0 then some 0x0110
  else if op = 0x23 ∧ p % 2 = 0 ∧ (len < 16 ∨ 1024 < len ∨ len % 8 ≠ 0) then some 0x0110
  else if op = 0x23 ∧ p % 2 = 1 ∧ (len < 1 ∨ 1024 < len) then some 0x0110
  else if op = 0x24 ∧ p % 2 = 0 ∧ (len < 24 ∨ 1032 < len ∨ len % 8 ≠ 0) then some 0x0110
  else if op = 0x24 ∧ p % 2 = 1 ∧ (len < 16 ∨ 1032 < len ∨ len % 8 ≠ 0) then some 0x0110
  else if (op = 0x40 ∨ op = 0x41) ∧ len % 16 ≠ 0 then some 0x0110
  else if ¬ opAad op ∧ aux ≠ 0 then some 0x0111
  else if op = 0x1A ∨ op = 0x1B then
    (let n := (byteAt iv 0).toNat
     if n < 7 ∨ 13 < n then some 0x0112 else if ¬ allZero (iv.drop (n + 1)) then some 0x0004 else none)
  else if (op = 0x18 ∨ op = 0x19 ∨ op = 0x1C ∨ op = 0x1D) ∧ ¬ptr then
    (if dIvCtx d then (if allZero iv then none else some 0x0004) else if allZero (iv.drop 12) then none else some 0x0004)
  else if op = 0x21 ∨ op = 0x22 then
    (if dIvCtx d then (if allZero iv then none else some 0x0004) else if allZero (iv.drop 12) then none else some 0x0004)
  else none

/-- Check of a context operation's or RANDOM_KEY's descriptor and inline block that does not depend on the line (R246,
R248-R256, R472): the DETAIL of FORMAT_MISMATCH, or none. -/
def ctxOpCheck (d : Bytes) : Option Nat :=
  let op := dOp d
  let p := dParam d
  let iv := dIv d
  let b := fun i => (byteAt iv i).toNat
  if dPbit d 15 then some 4
  else if op = 0x80 then
    (let alg := b 0; let fl := b 1
     if p ≠ 0 then some 4
     else if ¬ algOk alg then some 4
     else if fl / 4 % 4 = 3 ∨ fl / 16 ≠ 0 then some 4
     else if b 2 / 8 ≠ 0 ∨ b 3 ≠ 0 then some 4
     else if ¬ slotOk (fieldLE iv 4 2) then some 4
     else if algSlotB alg then (if slotOk (fieldLE iv 6 2) then (if 28 < dLen d then some 4 else none) else some 4)
     else if alg = 0x1C then (if fieldLE iv 6 2 = 0 ∨ slotOk (fieldLE iv 6 2) then (if 28 < dLen d then some 4 else none) else some 4)
     else if fieldLE iv 6 2 ≠ 0 then some 4
     else if 28 < dLen d then some 4 else none)
  else if op = 0x81 ∨ op = 0x85 then (if p ≠ 0 then some 4 else none)
  else if op = 0x82 then
    (if p ≠ 0 then some 4
     else if 1 < b 0 then some 4
     else if b 1 ≠ 0 ∨ b 2 ≠ 0 ∨ b 3 ≠ 0 then some 4
     else if b 0 = 0 ∧ ¬ slotOk (fieldLE iv 4 2) then some 4
     else if b 0 = 1 ∧ fieldLE iv 4 4 ≠ 0 then some 4 else none)
  else if op = 0x83 then
    (if p ≠ 0 ∧ p ≠ 1 then some 4
     else if ¬ slotOk (fieldLE iv 0 2) ∨ ¬ allZero (iv.drop 2) then some 4 else none)
  else if op = 0x84 then
    (if p ≠ 0 then some 4
     else if ¬ slotOk (fieldLE iv 0 2) ∨ ¬ allZero (iv.drop 2) then some 4
     else if dLen d < 72 ∨ 72 + 280 < dLen d ∨ (dLen d - 72) % 40 ≠ 0 then some 4 else none)
  else if op = 0x86 then (if p ≠ 0 ∧ p ≠ 1 then some 4 else none)
  else if op = 0x71 then
    (if p ≠ 0 ∧ p ≠ 1 then some 4
     else if p = 1 ∧ ¬ slotOk (fieldLE iv 0 2) then some 4
     else if p = 0 ∧ fieldLE iv 0 2 ≠ 0 then some 4
     else if ¬ allZero (iv.drop 2) then some 4
     else if dLen d ≠ 0 then some 0x0110
     else if dAuxLen d ≠ 0 then some 0x0111 else none)
  else none

/-- Check of RANDOM_FILL (R471). -/
def fillCheck (d : Bytes) : Option Nat :=
  if dParam d ≠ 0 then some 4
  else if dLen d = 0 ∨ 1048576 < dLen d then some 0x0110
  else if dAuxLen d ≠ 0 then some 0x0111 else none

/-- ALG values that a lane operation accepts (R272, R230). -/
def laneAlg (op alg : Nat) : Bool :=
  if op = 0x15 ∨ op = 0x16 then alg == 4 || alg == 5
  else if 0x20 ≤ op ∧ op ≤ 0x22 then alg == 6
  else if op = 0x23 ∨ op = 0x24 then alg == 0x18
  else if 0x40 ≤ op ∧ op ≤ 0x42 then 0x10 ≤ alg && alg ≤ 0x13
  else 1 ≤ alg && alg ≤ 3

/-- Output size of a lane operation for R164. -/
def laneOut (d : Bytes) : Nat :=
  let op := dOp d
  if op = 0x23 then (if dPbit d 8 then 8 * ceilDiv (dLen d) 8 + 8 else dLen d + 8)
  else if op = 0x24 then dLen d - 8
  else if 0x1C ≤ op ∧ op ≤ 0x1F then 0
  else dLen d

/-- Use of the key in slot A of a lane operation (R257). -/
def laneUse (op : Nat) : Nat :=
  if 0x1C ≤ op ∧ op ≤ 0x1F then 1 else if op = 0x23 ∨ op = 0x24 then 2 else 0

/-- The IV or counter block of a lane operation, from the descriptor or the parameter block (R277, R286). -/
def laneIv (d param : Bytes) : Bytes :=
  let op := dOp d
  if (op = 0x18 ∨ op = 0x19 ∨ op = 0x1C ∨ op = 0x1D) then
    (if dPbit d 15 then slice param 8 (byteAt param 0).toNat else (dIv d).take 12)
  else if op = 0x21 ∨ op = 0x22 then (dIv d).take 12
  else if 0x40 ≤ op ∧ op ≤ 0x42 then slice param 0 16
  else dIv d

/-- Counter limit of CTR and ChaCha20 (R274, R275): the request would pass it. -/
def ctrOver (d param : Bytes) : Bool :=
  let op := dOp d
  let n := ceilDiv (dLen d) 16
  let past := fun (w : Nat) (b : Bytes) => decide (0 < n) && decide (2 ^ w ≤ beNat b % 2 ^ w + (n - 1))
  if op = 0x14 then past (if dParam d % 4 = 0 then 32 else if dParam d % 4 = 1 then 64 else 128) (dIv d)
  else if op = 0x42 then past 32 (slice param 0 16)
  else if op = 0x20 then
    (let m := ceilDiv (dLen d) 64
     decide (0 < m) && decide (2 ^ 32 ≤ fieldLE (dIv d) 0 4 + (m - 1)))
  else false

end Sys2Proof.Machine
end

