-- ==== Sys2Proof/Machine/Digest.lean ====
section
/-! DEFINITION. Digest operations (R299-R317): checks of the descriptor, the pad check, state records, saved keyed
states, and results; and the outcome that an engine fixes for a request at its commit point (R19). -/
namespace Sys2Proof.Machine

/-- What an engine fixes at the end of a request: status, detail, RESULT, bytes for AUX, bytes for DST beyond the
strokes', a new saved keyed state, and the completion's flags and numbers. -/
structure Finish where
  status : Nat := 0
  detail : Nat := 0
  result : Bytes := []
  aux : Bytes := []
  dst : Bytes := []
  /-- OUT_BYTES where it is not the count of bytes written. -/
  saved : Option Bytes := none
  wrapped : Bool := false
  scrub : Bool := false
  seqUsed : Nat := 0
  /-- An accepted inbound sequence value to commit (R341). -/
  accept : Option Nat := none
  /-- The digest for the latch of R323. -/
  latch : Option Bytes := none
deriving DecidableEq, Repr

/-- PAD_CHECK. -/
def dPadCheck (d : Bytes) : Bool := dPbit d 10
/-- CONT. -/
def dCont (d : Bytes) : Bool := dPbit d 9

/-- PARAM bits that R300 gives an operation. -/
def digMask (op : Nat) : Nat := if op = 0x30 then 0x7E else if op = 0x31 then 0x7A else if op = 0x34 then 0x02 else 0x06

/-- LENGTH and AUX_LENGTH under R301 for an algorithm: the DETAIL, or none. -/
def digLens (d : Bytes) (a : Halg) : Option Nat :=
  let op := dOp d
  let len := dLen d
  let aux := dAuxLen d
  if len % a.block ≠ 0 ∨ (len = 0 ∧ op ≠ 0x31 ∧ op ≠ 0x34) then some 0x0002
  else if op = 0x30 ∧ a.isShake then (if aux = 0 ∨ 65536 < aux then some 0x0111 else none)
  else if op = 0x32 ∨ op = 0x33 then (if aux ≠ 0 ∧ (aux < 10 ∨ a.digest < aux) then some 0x0111 else none)
  else if aux ≠ 0 then some 0x0111 else none

/-- Checks of a digest descriptor that come before the context (R300-R302). For the HMAC operations the hash is that of
the context, so only what no hash allows is decided here (DEDUCED, log entry 20). -/
def digPre (d : Bytes) : Option Nat :=
  let op := dOp d
  if Nat.land (dParam d) (0xFF - digMask op) ≠ 0 then some 0x0004
  else if op = 0x30 ∨ op = 0x31 then
    (match Halg.ofCode (dHalg d) with
     | none => some 0x0004
     | some a => digLens d a)
  else if dLen d % 64 ≠ 0 ∨ (dLen d = 0 ∧ op ≠ 0x34) then some 0x0002
  else if dLen d % 128 = 0 ∧ dAuxLen d ≠ 0 ∧ (op = 0x34 ∨ dAuxLen d < 10 ∨ 64 < dAuxLen d) then some 0x0111
  else none

/-- Tag bytes of HMAC and HMAC_VERIFY (R301). -/
def hmacT (d : Bytes) (a : Halg) : Nat := if dAuxLen d = 0 then a.digest else dAuxLen d

/-- Bytes of the HMAC states that an INLINE line keeps first in its extension area (R244). -/
def inlineStates (a : Halg) : Nat := 2 * a.stateBytes

/-- Offset of the saved keyed state in the extension area (R244). -/
def savedOff (inline : Bool) (a : Halg) : Nat := if inline then inlineStates a else 0

/-- Bytes of a saved keyed state (R315). -/
def savedLen (a : Halg) : Nat := a.stateBytes + 16

/-- The operation reads or writes the saved keyed state (R317). -/
def dStateful (d : Bytes) : Bool := dOp d == 0x34 || ((dOp d == 0x32 || dOp d == 0x33) && dCont d)

/-- Scan backward for the first nonzero byte of the padding's end. -/
def lastNonzero : Bytes → Option Byte
  | [] => none
  | b :: t => if b = 0 then lastNonzero t else some b

/-- The pad check over the final block of `data`, with `total` bytes absorbed at the end (R305, R306): the DETAIL of a
failure, or none. -/
def padCheck (a : Halg) (data : Bytes) (total : Nat) : Option Nat :=
  let n := data.length
  if a.isSha2 then
    let f := a.lenField
    let L := beNat (data.drop (n - f))
    let m := L / 8
    let start := total - n
    if L % 8 ≠ 0 ∨ total ≠ ceilDiv (m + 1 + f) a.block * a.block then some 0x0003
    else if m < start ∨ total ≤ m then some 0x0120
    else if byteAt data (m - start) ≠ 0x80 ∨ ¬ allZero ((data.drop (m - start + 1)).take (n - f - (m - start + 1))) then some 0x0120
    else none
  else
    let last := byteAt data (n - 1)
    if ¬ last.getLsbD 7 then some 0x0120
    else
      let tail := ((data.take (n - 1)).drop (n - a.block)) ++ [last &&& 0x7F]
      if lastNonzero tail.reverse = some (if a.isShake then 0x1F else 0x06) then none else some 0x0120

/-- A state record (R310). -/
def stateRecord (a : Halg) (count : Nat) (st : Bytes) : Bytes :=
  [BitVec.ofNat 8 a.code] ++ zeros 7 ++ natLE 8 count ++ st

/-- Bytes of a state record. -/
def recordLen (a : Halg) : Nat := 16 + a.stateBytes

/-- Check of a state record read with CONT = 1 (R311). -/
def recordCheck (a : Halg) (r : Bytes) : Option Nat :=
  if byteAt r 0 ≠ BitVec.ofNat 8 a.code ∨ ¬ allZero ((r.drop 1).take 7) then some 0x0004
  else if fieldLE r 8 8 % a.block ≠ 0 then some 0x0121 else none

/-- COUNT limit (R312). -/
def countOver (count len : Nat) : Bool := decide (2 ^ 61 - 1 < count + len)

/-- Outcome of HASH and HASH_PARTIAL over the whole source (R308, R311). `record` is the state record read, if any. R323 latches the
digest of every HASH by M; of a SHAKE output, which may be longer than the latch, the model holds the first 64 bytes (DEDUCED, log
entry 54). -/
def hashFinish (d : Bytes) (a : Halg) (record src : Bytes) : Finish :=
  let cont := dCont d
  let count := if cont then fieldLE record 8 8 else 0
  let st := if cont then slice record 16 a.stateBytes else a.init
  let st' := a.absorb st src
  if dOp d = 0x31 then { aux := stateRecord a (count + src.length) st' }
  else
    match (if dPadCheck d then padCheck a src (count + src.length) else none) with
    | some det => { status := stFormatMismatch, detail := det }
    | none =>
      if a.isShake then
        let o := a.output (dAuxLen d) st'
        { result := o.take 32, dst := o, latch := some (o.take 64) }
      else
        let o := a.output a.digest st'
        { result := o.take 32, aux := if 32 < a.digest then o else [], latch := some o }

/-- Outcome of the HMAC operations over the whole source (R309, R314-R316): `inner` and `outer` are the key's states,
`saved` the saved keyed state, `expect` the expected tag. -/
def hmacFinish (d : Bytes) (a : Halg) (inner outer saved expect src : Bytes) : Finish :=
  let cont := dCont d
  let count := if cont then fieldLE saved a.stateBytes 8 else a.block
  let st := if cont then saved.take a.stateBytes else inner
  let st' := a.absorb st src
  let total := count + src.length
  if dOp d = 0x34 then { saved := some (st' ++ natLE 8 total ++ natLE 8 1), wrapped := true }
  else
    match (if dPadCheck d then padCheck a src total else none) with
    | some det => { status := stFormatMismatch, detail := det }
    | none =>
      let clear := if cont then some (zeros (savedLen a)) else none
      let tag := (hmacOuter a outer st').take (hmacT d a)
      if dOp d = 0x33 then { status := if tag = expect then stOk else stAuthFail, saved := clear }
      else { result := tag.take 32, aux := if 32 < hmacT d a then tag else [], saved := clear }

end Sys2Proof.Machine
end

