-- ==== Sys2Proof/Machine/Rings.lean ====
section
/-! DEFINITION. Rings: doorbells, fetch, entry checks, halts, completions, moderation, messages, fences (R124-R183,
R490-R495), and the admission meters (R184-R199). -/
namespace Sys2Proof.Machine

/-- The function's admitted requests run: Enabled (R112), with the block in service or draining for deep sleep (R107). -/
def State.fnRuns (s : State) (f : Nat) : Bool :=
  (s.blk.st == .service || s.draining) && (s.fn f).enabled && !(s.fn f).halted && !(s.fn f).resetting

/-- RING_CFG.ENABLE. -/
def State.ringOn (s : State) (f n : Nat) : Bool := bitOf (s.reg .ringCfg f n) 31

/-- Entries posted and not released (before R149). -/
def State.posted (s : State) (f n : Nat) : Nat :=
  let N := s.ringSize f n
  let r := s.ring (ringG f n)
  (r.tail + 2 * N - r.head) % (2 * N)

/-- The request at a position of a ring. -/
def State.reqAt (s : State) (f n pos : Nat) : Option Req := s.reqs.find? (fun r => r.f == f && r.n == n && r.pos == pos)

/-- Data writes of a request that are waiting or outstanding. -/
def State.writing (s : State) (id : Nat) : Bool :=
  (s.fab.wr ++ s.fab.wrQ).any (fun t => t.use == .data id || t.use == .scrub id || (match t.use with | .ctxOp i _ => i == id | _ => false))

-- dropping requests ---------------------------------------------------------------------------------------------------

/-- Cycles of a unit's run, lanes 0 to 8, digest engines 9 to 12 and easels 13 to 16, in its busy counter unless its counters are
frozen: the counter counts units of 1,024 (R297, R319, R400). -/
def State.addBusy (s : State) (u c : Nat) : State :=
  let n := if u < 9 then RegName.laneBusyCount else if u < 13 then .digBusyCount else .easelBusyCount
  let i := if u < 9 then u else if u < 13 then u - 9 else u - 13
  if bitOf (s.reg (if u < 9 then .laneCntCtrl else if u < 13 then .digCntCtrl else .easelCntCtrl) i) 0 then s else
  let t := tget (fun _ => 0) s.busyRest u + c
  let s : State := { s with busyRest := tset (fun _ => 0) s.busyRest u (t % 1024) }
  s.setReg n i 0 (s.reg n i + BitVec.ofNat 32 (t / 1024))

/-- Lane or digest engine `u` runs a stroke of a request, or easel `u` its computation. -/
def State.runsFor (s : State) (id u : Nat) : Bool :=
  if 13 ≤ u then (s.easel (u - 13)).running == some id else
  match (if u < 9 then s.lane u else s.dig (u - 9)).run with
  | some w => w.id == id
  | none => false

/-- A stroke of an abandoned request stops on unit `u`, or a computation within its run on an easel: how many of its cycles it has
spent, at most the 5,851 of a stroke with the set-up, or YIELD_LIMIT on an easel, is a free value (R266, R296, R297, R386, R400). -/
def State.abandonRun (s : State) (id u : Nat) : State :=
  if s.runsFor id u then ({ s with free := s.free + 1 } : State).addBusy u (Config.freeNat s.free % (if u < 13 then 5943 else 2 ^ 20)) else s

/-- Free what a request holds in an engine. -/
def Eng.drop (e : Eng) (id : Nat) : Eng :=
  { e with banks := e.banks.filter (· != id), run := e.run.filter (fun r => r.id != id) }

/-- Free what a request holds in an easel (R388); pages wait for an outstanding extension request (R431). -/
def Easel.drop (e : Easel) (id : Nat) : Easel :=
  { e with comps := e.comps.filterMap (fun c => if c.id ≠ id ∨ c.dead then some c else if c.cx.isSome then some { c with dead := true } else none)
           running := e.running.filter (· != id) }

/-- Zero the banks and canvas pages of a request and unpin its lines: at its commit point or when it is abandoned (R237,
R265, R388). -/
def State.freeReq (s : State) (id : Nat) : State :=
  let s := (List.range 17).foldl (fun s u => s.abandonRun id u) s
  let s := (List.range 9).foldl (fun s n => s.setLane n ((s.lane n).drop id)) s
  let s := (List.range 4).foldl (fun s e => s.setDig e ((s.dig e).drop id)) s
  let s := (List.range 4).foldl (fun s e => s.setEasel e ((s.easel e).drop id)) s
  { s with ctx := { s.ctx with
             cache := s.ctx.cache.map (fun l => { l with pins := l.pins.filter (· != id) })
             pset := s.ctx.pset.filter (fun p => p.2.1 != id) }
           sched := { s.sched with
             laneRetry := s.sched.laneRetry.filter (fun w => w.id != id)
             digRetry := s.sched.digRetry.filter (fun w => w.id != id)
             digMove := s.sched.digMove.filter (· != id)
             easelMove := s.sched.easelMove.filter (fun m => m.1 != id) } }

/-- Abandon a request: it leaves no completion and no effect of R20. -/
def State.dropReq (s : State) (id : Nat) : State :=
  let s := s.freeReq id
  { s with reqs := s.reqs.filter (fun r => r.id != id)
           fab := { s.fab with rdQ := s.fab.rdQ.filter (fun t => t.use != .req id)
                               wrQ := s.fab.wrQ.filter (fun t => t.use != .compl id || t.sent) } }

/-- A request survives the halt or reset of its function only while its issued completion write has no response, a reissue that waits
(R56) included, or once it is done (R125, R132). -/
def State.keepsOnHalt (s : State) (r : Req) : Bool :=
  (r.stage == .completing && (s.fab.wr ++ s.fab.wrQ).any (fun t => t.use == .compl r.id && t.sent)) || r.stage == .done

/-- Abandon every request of a function that has not been completed. -/
def State.abandonAll (s : State) (f : Nat) : State :=
  let ids := (s.reqs.filter (fun r => r.f == f && !s.keepsOnHalt r)).map (·.id)
  let s := ids.foldl State.dropReq s
  { s with fab := { s.fab with
      rdQ := s.fab.rdQ.filter (fun t => t.tag != f)
      wrQ := s.fab.wrQ.filter (fun t => t.tag != f || t.sent || (match t.use with | .msg _ _ => false | .compl _ => false | _ => true)) } }

-- halts ---------------------------------------------------------------------------------------------------------------

/-- A halt cause (R124-R129): the first one of a running function is recorded, reported as FUNCTION_FATAL, its requests
are abandoned, and a stalled FN_FENCE of the function returns 0. HALT_IRQ is read here and HALT_VEC when the message is sent, where
R128 does not say which values of FN_CTRL, writable while Halted, apply (DESIGN CHOICE, log entry 51). -/
def State.halt (s : State) (f cause ring entry : Nat) (noEntry : Bool) (addr : Nat) : State :=
  let x := s.fn f
  if x.halted ∨ x.resetting then s else
  let s := s.capture (0x80 + cause) (if noEntry then 0 else entry) f
  if s.faultClass (0x80 + cause) = 4 then s else
  let s := s.setFn f { s.fn f with halted := true, cause := cause, noEntry := noEntry, ring := if noEntry then 0 else ring,
                                   entry := if noEntry then 0 else entry, haltAddr := addr,
                                   haltMsg := bitOf (s.reg .fnCtrl f) 0 }
  let s := s.abandonAll f
  match s.port.stall with
  | some (.fence g _ _) => if g = f then s.endStall 0 0 else s
  | _ => s

/-- A halt tied to the entry of a request. -/
def State.haltReq (s : State) (r : Req) (cause : Nat) (addr : Nat := 0) : State :=
  s.halt r.f cause r.n (r.pos % s.ringSize r.f r.n) false addr

-- completions -----------------------------------------------------------------------------------------------------------

/-- A sleeping function's completion commits: ASLEEP becomes HELD (R77, R181). -/
def State.wakeOnCommit (s : State) (f : Nat) : State :=
  let x := s.fn f
  if x.pm = .asleep then s.setFn f { x with pm := .held } else s

/-- A failing entry of the chain in progress is remembered for the entries after it (R169). -/
def State.chainNote (s : State) (r : Req) : State :=
  let g := ringG r.f r.n
  let x := s.ring g
  let N2 := 2 * s.ringSize r.f r.n
  let behind := (x.metered + N2 - r.pos) % N2
  if r.status ≠ 0 ∧ x.chainLen ≠ 0 ∧ x.chainFail.isNone ∧ 0 < behind ∧ behind ≤ x.chainLen then
    s.setRing g { x with chainFail := some (r.chainPos, r.ts) }
  else s

/-- The commit point of a request (R19): status, detail and the rest are fixed, the stamp is taken, what it holds is
freed. The caller has set the outcome fields in `r`. -/
def State.commit (s : State) (r : Req) (status detail : Nat) : State :=
  if ¬ s.live then s else
  let r := { r with status := status, detail := detail, ts := s.now, stage := .committed, deferred := false,
                    rbuf := [], srcs := [], keys := [], hstates := none, ctxKey := [], kneed := [], expect := [], staged := [], entWaits := false }
  let s := s.setReq r
  let s := s.freeReq r.id
  let s := s.chainNote r
  let s := if status = stEntropyUnavailable then s.bumpSat .entUnavailCount else s
  let s := if opTransform (dOp r.d) ∧ status = stReplay then s.bumpSat .stnReplayCount else s
  let s := if opTransform (dOp r.d) ∧ status = stFormatMismatch then s.bumpSat .stnMismatchCount else s
  s.wakeOnCommit r.f

/-- A request ends without result before its first stroke or computation, or in its check phase. -/
def State.fail (s : State) (r : Req) (status detail : Nat) : State :=
  s.commit { r with outBytes := r.written, result := [], seqUsed := r.seqUsed } status detail

/-- The completion write of a request over its entry, and the position of its ring after it (R171, R492). -/
def State.writeCompletion (s : State) (r : Req) : State :=
  let g := ringG r.f r.n
  let s := s.setReq { r with stage := .completing }
  let fixed : Option (Fin 2) := if s.asReady r.f r.n then none else some (if g % 2 = 1 then 1 else 0)
  let s := s.queueWrite (s.entryAddr r.f r.n r.pos) (completion r) r.f (.compl r.id) fixed
  let x := s.ring g
  if x.next = r.pos then s.setRing g { x with next := (x.next + 1) % (2 * s.ringSize r.f r.n) } else s

/-- The completion write of a request is issued over its entry, window-checked (R122). -/
def State.issueCompletion (s : State) (r : Req) : State :=
  match s.winFail r.f (s.entryAddr r.f r.n r.pos) 64 true with
  | some bad => s.haltReq r 7 bad
  | none => s.writeCompletion r

/-- With ORDER = 1 the completions of a chain are written one after the other (R170): the entry before has its write response, since
the ports of two writes are chosen freely and an errored write is written again (R492; DEDUCED, log entry 51). -/
def State.chainTurn (s : State) (r : Req) : Bool :=
  r.chainPos == 0 || (match s.reqAt r.f r.n ((r.pos + 2 * s.ringSize r.f r.n - 1) % (2 * s.ringSize r.f r.n)) with
    | some q => q.stage == .done
    | none => true)

/-- The request may have its completion issued: past its commit point, its data writes acknowledged (R490), and its turn
in ring order or in its chain (R170, R175, R176). -/
def State.mayComplete (s : State) (r : Req) : Bool :=
  r.stage == .committed && !s.writing r.id && s.fnRuns r.f &&
  (if s.asReady r.f r.n then s.chainTurn r else (s.ring (ringG r.f r.n)).next == r.pos)

/-- Issue the completions that may be issued, oldest request first; `fuel` bounds the passes. -/
def State.completeF : Nat → State → State
  | 0, s => s
  | fuel + 1, s =>
    match s.reqs.find? (fun r => s.mayComplete r) with
    | some r => completeF fuel (s.issueCompletion r)
    | none => s

/-- With ORDER = 1 the position `next` passes the issued completions. -/
def State.nextF : Nat → Nat → State → State
  | 0, _, s => s
  | fuel + 1, g, s =>
    let x := s.ring g
    match s.reqAt (ringF g) (ringN g) x.next with
    | some r => if r.stage = .completing ∨ r.stage = .done then
        nextF fuel g (s.setRing g { x with next := (x.next + 1) % (2 * s.ringSize (ringF g) (ringN g)) }) else s
    | none => s

/-- Add one to element `i` of a counter list, modulo 2^32. -/
def incAt (l : List Nat) (i : Nat) : List Nat := l.set i ((l.getD i 0 + 1) % 2 ^ 32)

/-- Live counters of a completion (R549). -/
def liveCount (l : List Nat) (r : Req) : List Nat :=
  let l := incAt l 0
  let l := if r.retried then incAt l 1 else l
  let l := if r.late then incAt l 5 else l
  match r.status with
  | 0 => l
  | 1 => incAt l 2
  | 9 => incAt l 3
  | 8 => incAt l 4
  | 0x0A => incAt l 6
  | _ => incAt l 7

/-- A message becomes due on a vector (R178). -/
def State.due (s : State) (f v : Nat) : State := if s.pendOn f v then s else { s with vpend := s.vpend ++ [(f, v)] }

/-- The counted completions of a ring become due on its vector; count and timer restart (R179). -/
def State.ringDue (s : State) (f n : Nat) : State :=
  let g := ringG f n
  let s := s.setRing g { s.ring g with counted := 0, timer := none }
  s.due f (fld (s.reg .ringIrq f n) 5 0)

/-- MOD_COUNT, 0 acting as 1. -/
def State.modCount (s : State) (f n : Nat) : Nat := max 1 (fld (s.reg .ringIrq f n) 15 8)
/-- MOD_TIME. -/
def State.modTime (s : State) (f n : Nat) : Nat := fld (s.reg .ringIrq f n) 31 16

/-- A counted completion's write response has returned (R179, R181); while the block drains for deep sleep its message is
due at once (R107). One that committed before ASLEEP and whose response returns there is counted and held, without wake, and MODE :=
RUN makes it due only once the count reaches MOD_COUNT (DESIGN CHOICE, log entry 51: R181 names triggers by their commit). -/
def State.countIrq (s : State) (f n : Nat) : State :=
  let g := ringG f n
  let x := s.ring g
  let c := x.counted + 1
  let s := s.setRing g { x with counted := c, timer := if x.counted = 0 then some 0 else x.timer }
  match (s.fn f).pm with
  | .flushing => s.ringDue f n
  | .run => if s.modCount f n ≤ c ∨ s.draining = true then s.ringDue f n else s
  | _ => s

/-- The head passes entries whose completions are acknowledged, releasing them (R149). -/
def State.headF : Nat → Nat → State → State
  | 0, _, s => s
  | fuel + 1, g, s =>
    let x := s.ring g
    match s.reqAt (ringF g) (ringN g) x.head with
    | some r =>
      if r.stage = .done then
        let N := s.ringSize (ringF g) (ringN g)
        headF fuel g (({ s with reqs := s.reqs.filter (fun q => q.id != r.id) } : State).setRing g { x with head := (x.head + 1) % (2 * N) })
      else s
    | none => s

/-- A completion write response has returned (R149, R179, R494, R549). -/
def State.completionAck (s : State) (id : Nat) : State :=
  match s.req id with
  | none => s
  | some r =>
    let g := ringG r.f r.n
    let s := s.setReq { r with stage := .done }
    let x := s.fn r.f
    let s := s.setFn r.f { x with responses := x.responses + 1, live := liveCount x.live r, liveBytes := (x.liveBytes + r.outBytes) % 2 ^ 64 }
    let y := s.ring g
    let s := s.setRing g { y with done := (y.done + 1) % 2 ^ 32, telDone := (y.telDone + 1) % 2 ^ 32 }
    let s := if ¬ x.resetting ∧ dIrq r.d = true then s.countIrq r.f r.n else s
    let s := s.nextF s.reqs.length g
    s.headF s.reqs.length g

/-- Address and value of a vector (R177). -/
def State.vecAddr (s : State) (f v : Nat) : Nat := (s.reg .vecAddrLo f v).toNat + (s.reg .vecAddrHi f v).toNat * 2 ^ 32

/-- Issue the message due on a vector unless it is masked (R178): window-checked; PEND falls, and address and value are read, as the
write goes out. A message that becomes unmasked in ASLEEP or HELD goes out at once (DESIGN CHOICE, log entry 51: R182 keeps masked
messages pending across the handshake and does not say what an unmasking there does). -/
def State.issueMsg (s : State) (fv : Nat × Nat) : State :=
  let (f, v) := fv
  if bitOf (s.reg .vecCtrl f v) 0 ∨ ¬ s.fnRuns f ∨ ¬ s.pendOn f v then s else
  let a := s.vecAddr f v
  match s.winFail f a 4 true with
  | some bad => s.halt f 7 0 0 true bad
  | none =>
    match s.sendNow a (natLE 4 (s.reg .vecData f v).toNat) f (.msg f v) with
    | some s => { s with vpend := s.vpend.filter (· != (f, v)) }
    | none => s

/-- A message waits to be issued. -/
def State.msgWaits (s : State) : Bool :=
  s.vpend.any (fun p => !bitOf (s.reg .vecCtrl p.1 p.2) 0 && s.fnRuns p.1) || (List.range 17).any (fun f => (s.fn f).haltMsg)

/-- Issue every message that is due and unmasked. -/
def State.issueMsgs (s : State) : State := s.vpend.foldl State.issueMsg s

/-- The halt message, after the last issued completion write has its response; dropped and reported where its address
fails R120 (R128). -/
def State.issueHaltMsg (s : State) (f : Nat) : State :=
  let x := s.fn f
  if ¬ x.halted ∨ ¬ x.haltMsg then s
  else if (s.fab.wr ++ s.fab.wrQ).any (fun t => t.tag == f && (match t.use with | .compl _ => true | _ => false)) then s
  else
    let sent := fun (s : State) => s.setFn f { x with haltMsg := false }
    let v := fld (s.reg .fnCtrl f) 13 8
    let a := s.vecAddr f v
    match s.winFail f a 4 true with
    | some _ => (sent s).capture 0x89 0 f
    | none =>
      match s.sendNow a (natLE 4 (s.reg .vecData f v).toNat) f (.haltMsg f) with
      | some s => sent s
      | none => s

/-- FLUSHING ends when no unmasked message of the function is due or awaiting its response (R181). -/
def State.pmAdvance (s : State) (f : Nat) : State :=
  let x := s.fn f
  if x.pm ≠ .flushing then s
  else if s.vpend.any (fun p => p.1 == f && !bitOf (s.reg .vecCtrl f p.2) 0) then s
  else if (s.fab.wr ++ s.fab.wrQ).any (fun t => match t.use with | .msg g _ => g == f | _ => false) then s
  else s.setFn f { x with pm := .asleep }

/-- A stalled FN_FENCE returns once its set is acknowledged (R494). -/
def State.fenceAdvance (s : State) : State :=
  match s.port.stall with
  | some (.fence f ids msgs) =>
    if s.reqs.any (fun r => ids.contains r.id && (r.stage == .committed || r.stage == .completing)) then s
    else if (s.fab.wr ++ s.fab.wrQ).any (fun t => msgs.contains t.serial) then s
    else s.endStall 0 (BitVec.ofNat 32 (2 ^ 31 + (s.fn f).responses % 2 ^ 31))
  | _ => s

-- doorbells and fetch -----------------------------------------------------------------------------------------------------

/-- Outcome of a doorbell on an Enabled function (R152). -/
inductive Bell where
  | same | accept (tail : Nat) | bad
deriving DecidableEq, Repr

/-- Compare the doorbell with the positions held (R152). -/
def bellCheck (on : Bool) (N head tail : Nat) (v : Word) : Bell :=
  let t := fld v 15 0
  let pNew := (fld v 16 16 * N + t + 2 * N - head) % (2 * N)
  let pOld := (tail + 2 * N - head) % (2 * N)
  if ¬ on ∨ N ≤ t ∨ N < pNew ∨ pNew < pOld then .bad
  else if pNew = pOld then .same
  else .accept (fld v 16 16 * N + t)

/-- A word of the ring register file is read (R514). -/
def State.ringStrike (s : State) : State :=
  if s.wordStrike 0x8B = some true then s.injFired.capture 0x80 0 31 true else s.singleStrike 0x8B 0x8B 0

/-- A doorbell write to a function in any state but Disabled (R129, R130, R151, R152): a malformed one halts. -/
def State.bell (s : State) (f n : Nat) (v : Word) : State :=
  let x := s.fn f
  if x.halted ∨ x.resetting then s else
  let s := s.ringStrike
  let g := ringG f n
  let r := s.ring g
  match bellCheck (s.ringOn f n) (s.ringSize f n) r.head r.tail v with
  | .same => s
  | .bad => s.halt f 2 n (fld v 15 0) false 0
  | .accept t => ((s.setRing g { r with tail := t }).setFn f { x with quiet := false }).islWake 12

/-- Entries of the next fetch burst from a position: to the tail, the end of the ring, the end of the page, 64 beats. -/
def State.fetchCount (s : State) (f n pos avail : Nat) : Nat :=
  let N := s.ringSize f n
  let a := s.entryAddr f n pos
  min (min avail (N - pos % N)) (min 32 ((0x1000 - a % 0x1000) / 64))

/-- Fetch posted entries of a ring in ring order (R154). -/
def State.fetchF : Nat → Nat → Nat → State → State
  | 0, _, _, s => s
  | fuel + 1, f, n, s =>
    let g := ringG f n
    let r := s.ring g
    let N := s.ringSize f n
    let avail := (r.tail + 2 * N - r.fetch) % (2 * N)
    if avail = 0 ∨ ¬ s.fnRuns f ∨ s.blk.pm ≠ 0 ∨ ¬ s.ringOn f n then s else
    let c := s.fetchCount f n r.fetch avail
    let a := s.entryAddr f n r.fetch
    match s.winFail f a (64 * c) false with
    | some bad => s.halt f 7 n (r.fetch % N) false bad
    | none =>
      let s := s.setRing g { r with fetch := (r.fetch + c) % (2 * N) }
      fetchF fuel f n (s.queueRead a (64 * c) f (.fetch g r.fetch c))

/-- Fetch on one ring. -/
def State.fetchRing (s : State) (f n : Nat) : State := State.fetchF (s.ringSize f n / 32 + 4) f n s

/-- Number the entries of chains from the next entry to pass the meter, and halt on a 65th (R167); `len` entries precede. -/
def State.rechainF : Nat → Nat → Nat → Nat → Nat → State → State
  | 0, _, _, _, _, s => s
  | fuel + 1, f, n, pos, len, s =>
    match s.reqAt f n pos with
    | none => s
    | some r =>
      if len = 64 then s.haltReq r 6
      else
        let s := s.setReq { r with chainPos := len }
        rechainF fuel f n ((pos + 1) % (2 * s.ringSize f n)) (if dChain r.d then len + 1 else 0) s

/-- One fetched entry: OWN and STRUCTURE (R155, R156), then it becomes a request. -/
def State.entryIn (s : State) (f n pos : Nat) (d : Bytes) : State :=
  if ¬ s.fnRuns f then s else
  let e := pos % s.ringSize f n
  if ¬ dOwn d then s.halt f 1 n e false 0
  else if dBadStructure f d then s.halt f 3 n e false 0
  else
    let r : Req := { id := s.nextId, f := f, n := n, pos := pos, d := d }
    { s with reqs := s.reqs ++ [r], nextId := s.nextId + 1 }

/-- One fetched entry, its own causes first, then CHAIN where it is the 65th of its chain: before any later entry is looked at (R126,
R156, R167). -/
def State.entryNext (s : State) (f n pos : Nat) (d : Bytes) : State :=
  let s := s.entryIn f n pos d
  let x := s.ring (ringG f n)
  if s.fnRuns f then s.rechainF s.reqs.length f n x.metered x.chainLen else s

/-- A descriptor fetch burst has returned (R154-R157, R167): its entries in ring order. -/
def State.fetchIn (s : State) (g pos n : Nat) (b : Bytes) : State :=
  let f := ringF g
  let m := ringN g
  let N := s.ringSize f m
  (List.range n).foldl (fun s i => s.entryNext f m ((pos + i) % (2 * N)) (slice b (64 * i) 64)) s

-- meters --------------------------------------------------------------------------------------------------------------------

/-- LEVEL in whole bytes (R190). -/
def levelBytes (lv : Int) : Int := lv / 256

/-- LEVEL as the register shows it: 32-bit two's complement. -/
def levelWord (lv : Int) : Word := BitVec.ofInt 32 (levelBytes lv)

/-- One aon tick of a meter (R190). -/
def refill (mode rate burst : Nat) (lv : Int) : Int := if mode = 0 then lv else min (lv + rate) (burst * 256)

/-- Charge `c` bytes, saturating at a LEVEL of -2^31 (R190, R192). -/
def chargeLevel (lv : Int) (c : Nat) : Int := max (lv - c * 256) (-(2 ^ 31) * 256)

/-- What the meter answers. -/
inductive Meter where
  | pass (lv : Int) | wait | refuse
deriving DecidableEq, Repr

/-- The decision of R193 to R196. -/
def meterDecide (mode : Nat) (aware : Bool) (yellow burst : Nat) (lv : Int) (colour c : Nat) : Meter :=
  let L := levelBytes lv
  let ty := burst * yellow / 8
  let col := if aware then colour else 0
  if mode = 0 then .pass lv
  else if mode = 1 then
    (if (col = 0 ∧ 1 ≤ L) ∨ (col = 1 ∧ (ty : Int) + 1 ≤ L) ∨ (col = 2 ∧ L = burst) then .pass (chargeLevel lv c) else .wait)
  else
    (if (col = 0 ∧ (c : Int) ≤ L) ∨ (col = 1 ∧ (ty : Int) + c ≤ L) then .pass (chargeLevel lv c) else .refuse)

/-- The meter of a ring on a request of size `c` and colour. -/
def State.meter (s : State) (f n colour c : Nat) : Meter :=
  let cfg := s.reg .meterCfg f n
  meterDecide (fld cfg 1 0) (bitOf cfg 3) (fld cfg 10 8) (fld (s.reg .meterBurst f n) 23 0) (s.ring (ringG f n)).level colour c

/-- Requests of a ring from a position on, as long as the chain runs: charged sizes and whether the last is present. -/
def State.chainSizeF : Nat → Nat → Nat → Nat → State → Option Nat
  | 0, _, _, _, _ => none
  | fuel + 1, f, n, pos, s =>
    match s.reqAt f n pos with
    | none => none
    | some r =>
      if dChain r.d then (chainSizeF fuel f n ((pos + 1) % (2 * s.ringSize f n)) s).map (· + charged r.d)
      else some (charged r.d)

/-- BURST_M1 + 1. -/
def State.burst (s : State) (f n : Nat) : Nat := fld (s.reg .ringSched f n) 5 0 + 1

/-- Admitted requests of a ring that have not started (R204). -/
def State.waitingStart (s : State) (f n : Nat) : Nat :=
  (s.reqs.filter (fun r => r.f == f && r.n == n && !r.started && (r.stage == .checking || r.stage == .ready))).length

/-- A FENCE of the ring still holds later entries (R162). -/
def State.fenceHolds (s : State) (f n : Nat) : Bool :=
  s.reqs.any (fun r => r.f == f && r.n == n && dOp r.d == 1 && (r.stage == .checking || r.stage == .ready || r.stage == .running))

/-- The entry before a chain entry has passed its commit point and its data writes have their responses (R168). -/
def State.prevDone (s : State) (r : Req) : Bool :=
  match s.reqAt r.f r.n ((r.pos + 2 * s.ringSize r.f r.n - 1) % (2 * s.ringSize r.f r.n)) with
  | none => true
  | some q => (q.stage == .committed || q.stage == .completing || q.stage == .done) && !s.writing q.id

/-- The gate of a ring. -/
def State.gateOf (s : State) (f n : Nat) : Nat := fld (s.reg .ringSched f n) 18 16

/-- Entries of the list in operation with their start and end within the cycle (R209): the last lasts to the cycle end. -/
def gateSpansF : Nat → Nat → Nat → Nat → (Nat → Nat) → (Nat → Nat) → List (Nat × Nat × Nat)
  | 0, _, _, _, _, _ => []
  | fuel + 1, i, t, cycle, ivl, gates =>
    if cycle ≤ t then [] else
    let e := if fuel = 0 then cycle else min cycle (t + ivl i)
    (t, e, gates i) :: gateSpansF fuel (i + 1) e cycle ivl gates

/-- The gate is open at some instant of the cycle of the list in operation (R215). -/
def State.gateOpens (s : State) (g : Nat) : Bool :=
  (gateSpansF (s.reg .gateOperLen).toNat 0 0 (s.reg .gateOperCycle).toNat
    (fun i => (s.reg .gateOperIvl 0 i).toNat) (fun i => (s.reg .gateOperGates 0 i).toNat)).any
    (fun x => x.2.2 / 2 ^ g % 2 == 1)

/-- A gate list is in operation and the time unit is synchronised (R212). -/
def State.gated (s : State) : Bool := s.gate.oper && s.time.sync

/-- A gate-locked request while no list is in operation or the time unit is unsynchronised: it is scheduled in the priority class and
completes with LATE (R212). -/
def State.lateUngated (s : State) (r : Req) : Req :=
  if r.cls = 2 ∧ opGranted (dOp r.d) = true ∧ s.gated = false ∧ (r.stage = .checking ∨ r.stage = .ready ∨ r.stage = .running) then { r with late := true }
  else r

/-- A gate-locked request at its admission (R213, R215): bound to the interval in progress, if any; where its gate never
opens it has fallen to the priority class for good and completes with LATE. -/
def State.bindGate (s : State) (r : Req) : Req :=
  if r.cls ≠ 2 ∨ ¬ opGranted (dOp r.d) then r
  else
    let g := s.gateOf r.f r.n
    if ¬ s.gated then r
    else if ¬ s.gateOpens g then { r with fallen := true, late := true }
    else match s.gate.elig.find? (fun e => e.g == g) with
      | some e => { r with bound := some e.opens }
      | none => r

/-- The entry at the admission position passes on: chain bookkeeping of the ring (R168). -/
def State.passAdmit (s : State) (r : Req) : State :=
  let g := ringG r.f r.n
  let x := s.ring g
  let first := x.chainLen = 0
  s.setRing g { x with
    metered := (x.metered + 1) % (2 * s.ringSize r.f r.n)
    chainLen := if dChain r.d then x.chainLen + 1 else 0
    chainCls := if first then dClass r.d else x.chainCls
    chainFail := if dChain r.d then x.chainFail else none }

/-- A request is admitted: it takes its place in the order of admission, and the checks before its first stroke begin.
The first SEAL of a function after a release of `blk_rst_n` asks for the advance of its counter (R528). -/
def State.admitReq (s : State) (r : Req) : State :=
  let r := s.lateUngated (s.bindGate { r with stage := .checking, adm := s.nextId })
  let s : State := { (s.setReq r) with nextId := s.nextId + 1 }
  if dOp r.d = 0x52 ∧ ¬ (s.fn r.f).sealStarted then s.sealAdvanceStart r.f else s

/-- Admit, refuse or hold the next entry of a ring (R167-R169, R185, R186, R194-R197, R204); none where nothing moves. While the block
drains for deep sleep no entry is admitted, those fetched before included, whether they wait at the meter or belong to a chain in
progress (DESIGN CHOICE, log entry 51: R107 stops the fetch and speaks of the admitted requests alone). -/
def State.admitOne (s : State) (f n : Nat) : Option State :=
  let g := ringG f n
  let x := s.ring g
  match s.reqAt f n x.metered with
  | none => none
  | some r =>
    if r.stage ≠ .queued ∨ ¬ s.fnRuns f ∨ s.blk.pm ≠ 0 ∨ ¬ s.live then none
    else if s.fenceHolds f n then none
    else if x.chainLen ≠ 0 then
      if ¬ s.prevDone r then none
      else match x.chainFail with
        | some (p, t) =>
          let r' := { r with status := stChainSkipped, detail := p, ts := t, stage := .committed }
          some (((s.setReq r').wakeOnCommit f).passAdmit r)
        | none =>
          if 2 * s.burst f n ≤ s.waitingStart f n then none
          else some ((s.admitReq { r with cls := x.chainCls }).passAdmit r)
    else
      match s.chainSizeF 65 f n x.metered with
      | none => none
      | some c =>
        if 2 * s.burst f n ≤ s.waitingStart f n then none else
        match s.meter f n (dColour r.d) c with
        | .pass lv =>
          let s := (s.admitReq { r with cls := dClass r.d, deferred := false }).passAdmit r
          some (s.setRing g { s.ring g with level := lv })
        | .wait => if r.deferred then none else some (s.setReq { r with deferred := true })
        | .refuse =>
          let s := s.passAdmit r
          some (s.commit { r with cls := dClass r.d } stRefusedRate 0)

/-- Admit what can be admitted on a ring. -/
def State.admitF : Nat → Nat → Nat → State → State
  | 0, _, _, s => s
  | fuel + 1, f, n, s =>
    match s.admitOne f n with
    | some s' => admitF fuel f n s'
    | none => s

/-- RING_STATUS (R145). -/
def State.ringStatus (s : State) (f n : Nat) : Word :=
  let x := s.ring (ringG f n)
  let wait := match s.reqAt f n x.metered with
    | some r => x.chainLen == 0 && dChain r.d && (s.chainSizeF 65 f n x.metered).isNone
    | none => false
  flag wait 31 ||| flag (s.fenceHolds f n) 30 ||| BitVec.ofNat 32 (s.posted f n)

/-- Active rings: those with a request, or entries posted and not fetched. -/
def State.activeRings (s : State) : List (Nat × Nat) :=
  s.rings.filterMap (fun p =>
    if p.2.tail = p.2.head then none else some (ringF p.1, ringN p.1))

end Sys2Proof.Machine
end

