-- ==== Sys2Proof/Machine/Context.lean ====
section
/-! DEFINITION. Contexts (R223-R245): the table and its protection, the cache, reservations and write-backs, the order of
requests and context operations on a handle, keys and HMAC states. -/
namespace Sys2Proof.Machine

-- reads of a request ----------------------------------------------------------------------------------------------------

/-- What a step of a request's preparation answers. -/
inductive Prep (α : Type) where
  /-- Go on with a value. -/
  | go (s : State) (a : α)
  /-- Wait. -/
  | wait (s : State)
  /-- The request has ended, or its function has halted. -/
  | stop (s : State)

/-- Line `i` of memory as read for a request; unread lines have no bytes. -/
def Req.line (r : Req) (i : Nat) : Bytes := tget (fun _ => []) r.rbuf i

/-- Bytes of a range as read for a request, none while a line of it is missing. -/
def Req.bytes (r : Req) (a len : Nat) : Option Bytes :=
  let first := a / 32
  let n := linesOf a len
  let ls := (List.range n).map (fun i => r.line (first + i))
  if ls.any (· == []) then none else some (slice ls.flatten (a % 32) len)

/-- The part of a range from its first line not yet read to its last: a line is read once (R268). -/
def Req.missing (r : Req) (a len : Nat) : Nat × Nat :=
  let ls := ((List.range (linesOf a len)).map (a / 32 + ·)).filter (fun i => r.line i == [])
  (max a (32 * ls.headD (a / 32)), min (a + len) (32 * (ls.getLastD (a / 32)) + 32))

/-- Bytes that a request needs from memory under a tag; with a function's tag the range passes R120 first (R122). -/
def State.want (s : State) (r : Req) (a len tag : Nat) : Prep Bytes :=
  if len = 0 then .go s [] else
  match r.bytes a len with
  | some b => .go s b
  | none =>
    if (s.readsOf (fun u => u == .req r.id)) ≠ [] then .wait s
    else match (if tag = 31 then none else s.winFail tag a len false) with
      | some bad => .stop (s.haltReq r 7 bad)
      | none => let x := r.missing a len
                .wait (s.queueRead x.1 (x.2 - x.1) tag (.req r.id))

/-- Bytes of several ranges under tag 31, one range after the other. -/
def State.wantEach (s : State) (r : Req) : List (Nat × Nat) → Bytes → Prep Bytes
  | [], acc => .go s acc
  | (a, l) :: t, acc => match s.want r a l 31 with
    | .go s b => s.wantEach r t (acc ++ b)
    | .wait s => .wait s
    | .stop s => .stop s

/-- Forget lines read for a request. -/
def Req.forget (r : Req) (a len : Nat) : Req :=
  { r with rbuf := r.rbuf.filter (fun e => decide (e.1 < a / 32) || decide (a / 32 + linesOf a len ≤ e.1)) }

-- the table --------------------------------------------------------------------------------------------------------------

/-- CTX_TABLE_BASE. -/
def State.tableBase (s : State) : Nat := (s.reg .ctxTableBaseLo).toNat + (s.reg .ctxTableBaseHi).toNat * 2 ^ 32

/-- Address of a line (R223). -/
def State.lineAddr (s : State) (h : Nat) : Nat := (s.tableBase + 64 * h) % 2 ^ 64

/-- Handle `h` is valid (R223). -/
def State.handleOk (s : State) (h : Nat) : Bool := decide (h < 2 ^ fld (s.reg .ctxTableSize) 4 0)

/-- GEN (R226). -/
def State.gen (s : State) : Nat := (s.tlyVal 33).toNat % 0x10000

/-- Current epoch of a function (R139). -/
def State.epoch (s : State) (f : Nat) : Nat := (s.tlyVal (16 + f)).toNat % 0x10000

/-- The context key, zeros while none is held. -/
def State.ck (s : State) : Bytes := s.ctx.key.getD (zeros 32)

/-- The cached context with primary handle `h`. -/
def State.cached (s : State) (h : Nat) : Option CLine := s.ctx.cache.find? (fun l => l.h == h)

/-- Replace a cached context. -/
def State.setCached (s : State) (l : CLine) : State :=
  { s with ctx := { s.ctx with cache := s.ctx.cache.map (fun x => if x.h = l.h then l else x) } }

/-- A use makes the entry the most recent one. -/
def State.touch (s : State) (h : Nat) : State :=
  { s with ctx := { s.ctx with cache := s.ctx.cache.filter (fun x => x.h != h) ++ s.ctx.cache.filter (fun x => x.h == h) } }

/-- HDR of a cached context. -/
def CLine.hdr (l : CLine) : Hdr := lineHdr l.mem

/-- The context is dirty (R239). -/
def CLine.dirty (l : CLine) : Bool := (l.res && l.work != l.memCtr) || l.pay != l.mpay

/-- Handles of the lines of a cached context. -/
def CLine.lines (l : CLine) : List Nat := (List.range (1 + l.xmem.length)).map (l.h + ·)

/-- Context-table writes of a handle's lines that have no response yet: their serial numbers. -/
def State.tableWrites (s : State) (hs : List Nat) : List Nat :=
  ((s.fab.wr ++ s.fab.wrQ).filter (fun t => t.tag == 31 && hs.any (fun h => s.lineAddr h == t.addr / 64 * 64))).map (·.serial)

/-- Data already read, or being read, of a line that is about to be written is dropped: it will be read again. -/
def State.purgeLine (s : State) (h : Nat) : State :=
  let a := s.lineAddr h
  let hit := fun (t : Txn) => t.tag == 31 && decide (t.addr < a + 64) && decide (a < t.addr + t.len)
  { s with reqs := s.reqs.map (fun r => if r.rbuf = [] then r else r.forget a 64)
           fab := { s.fab with rd := s.fab.rd.map (fun t => if hit t then { t with use := .discard } else t)
                               rdQ := s.fab.rdQ.filter (fun t => !hit t) } }

/-- Write one line with VERSION raised by 1 (R232, R233): the memory form, and the state with the write queued behind
`after` and behind earlier writes of the line. -/
def State.putLine (s : State) (h : Nat) (hdr : Hdr) (payload : Bytes) (use : Use) (after : List Nat) : State × Bytes :=
  let hdr := { hdr with version := hdr.version + 1 }
  let mem := lineSeal s.ck h s.gen hdr payload
  let s := s.purgeLine h
  (s.queueWrite (s.lineAddr h) mem 31 use none (after ++ s.tableWrites [h]), mem)

/-- Payload of 40 bytes of extension line `i`. -/
def extPay (pay : Bytes) (i : Nat) : Bytes := slice pay (40 * i) 40

/-- Write the extension lines whose payload changes to `pay`, each behind `after`. -/
def State.putExts (s : State) (l : CLine) (pay : Bytes) (use : Use) (after : List Nat) : State × CLine :=
  (List.range l.xmem.length).foldl (fun (x : State × CLine) i =>
    if extPay pay i = extPay x.2.mpay i then x else
    let mem := x.2.xmem.getD i []
    let (s, mem') := x.1.putLine (l.h + 1 + i) (lineHdr mem) (extPay pay i) use after
    (s, { x.2 with xmem := x.2.xmem.set i mem' })) (s, l)

/-- The memory copy can be moved to COUNTER `ctr` and extension area `pay` under the limit of R233. -/
def CLine.canPut (l : CLine) (ctr : Nat) (pay : Bytes) : Bool :=
  (l.memCtr == ctr || decide (l.hdr.version < versionMax))
  && (List.range l.xmem.length).all (fun i => extPay pay i == extPay l.mpay i || decide ((lineHdr (l.xmem.getD i [])).version < versionMax))

/-- The clear KEY of a cached context. -/
def State.lineKey (s : State) (l : CLine) : Bytes := ((lineOpen s.ck l.h s.gen l.mem).getD (zeros 40)).drop 8

/-- Serial numbers of writes queued since serial `n`. -/
def State.since (s : State) (n : Nat) : List Nat := (List.range (s.nextId - n)).map (n + ·)

/-- Move the memory copy of a cached context to COUNTER `ctr` and extension area `pay` (R240): upward the extension
lines are written first, downward the primary line. -/
def State.putGroup (s : State) (l : CLine) (ctr : Nat) (pay : Bytes) (use : Use) : State × CLine :=
  let key := s.lineKey l
  let prim := fun (x : State × CLine) (after : List Nat) =>
    if x.2.memCtr = ctr then x else
    let (s, mem) := x.1.putLine l.h x.2.hdr (natLE 8 ctr ++ key) use after
    (s, { x.2 with mem := mem, memCtr := ctr })
  let n := s.nextId
  let x :=
    if l.memCtr < ctr then
      let x := s.putExts l pay use []
      prim x (x.1.since n)
    else
      let x := prim (s, l) []
      x.1.putExts x.2 pay use (x.1.since n)
  (x.1, { x.2 with mpay := pay })

/-- RES of R241. -/
def RES : Nat := 2 ^ 20
/-- Saturation of R241. -/
def satLimit (n : Nat) : Nat := min n (2 ^ 64 - 1)

/-- Replay window W of a stencil context's KEY (R329). -/
def keyW (key : Bytes) : Nat := fieldLE key 6 2

/-- Bytes of the replay bitmap of a context (R244). -/
def bitmapLen (hdr : Hdr) (key : Bytes) : Nat := if hdr.cmode = 2 ∧ hdr.alg = 0x1C then min 128 (keyW key / 8) else 0

/-- The extension area with the replay bitmap all ones, as reservation writes carry it (R241). -/
def State.onesPay (s : State) (l : CLine) : Bytes :=
  let n := min (bitmapLen l.hdr (s.lineKey l)) l.pay.length
  List.replicate n 0xFF ++ l.pay.drop n

/-- A refresh is pending. -/
def CLine.refreshing (l : CLine) : Bool := l.res && decide (l.durable < l.limit)

/-- Write a reservation up to `lim` (R241), if R233 allows it. -/
def State.reserveTo (s : State) (l : CLine) (lim : Nat) : Option State :=
  let pay := s.onesPay l
  if ¬ l.canPut lim pay then none else
  let (s, l') := s.putGroup l lim pay (.resv l.h lim)
  let idle := (s.writesOf (fun u => u == .resv l.h lim)) == []
  some ((s.setCached { l' with res := true, limit := lim, filled := l'.filled || idle }).bumpSat .ctxResvCount)

/-- The refresh that R241 asks for once the working counter has come within 2^19 of the limit. -/
def State.refresh (s : State) (h : Nat) : State :=
  match s.cached h with
  | none => s
  | some l =>
    if l.res ∧ ¬ l.refreshing ∧ l.limit ≤ l.work + 2 ^ 19 ∧ l.limit < 2 ^ 64 - 1 then (s.reserveTo l (satLimit (l.limit + RES))).getD s else s

/-- A reservation write's response has returned: durable rises to its limit once no write of it is left (R241). -/
def State.reservationDurable (s : State) (h lim : Nat) : State :=
  if (s.writesOf (fun u => u == .resv h lim)) ≠ [] then s else
  match s.cached h with
  | some l => if l.res ∧ l.durable ≤ lim ∧ lim ≤ l.limit then s.setCached { l with durable := lim, filled := true } else s
  | none => s

/-- Write back a cached context (R239): working counter and current extension area; the reservation is cleared. At the
VERSION limit nothing is written (R233). -/
def State.writeBack (s : State) (l : CLine) (use : Use := .wb l.h) : State :=
  let ctr := if l.res then l.work else l.memCtr
  let s := if ¬ l.dirty then s
    else if ¬ l.canPut ctr l.pay then s
    else
      let (s, l') := s.putGroup l ctr l.pay use
      (s.setCached l').bumpSat .ctxWbCount
  match s.cached l.h with
  | some l => s.setCached { l with res := false, limit := 0, durable := 0, filled := false }
  | none => s

/-- Drop a context from the cache without write-back. -/
def State.dropLine (s : State) (h : Nat) : State :=
  { s with ctx := { s.ctx with cache := s.ctx.cache.filter (fun l => l.h != h) } }

/-- Write back and drop. -/
def State.evict (s : State) (l : CLine) (use : Use := .wb l.h) : State := (s.writeBack l use).dropLine l.h

/-- Drop the key and HMAC cache entries filled from the line of a handle (R250, R256): those of inline keys. -/
def State.dropInline (s : State) (h : Nat) : State :=
  { s with ctx := { s.ctx with keys := s.ctx.keys.filter (fun k => k.lifted || k.a != h)
                               hmac := s.ctx.hmac.filter (fun k => k.lifted || k.a != h) } }

/-- Lines of the cache in a set (R236). -/
def State.inSet (s : State) (set : Nat) : Nat :=
  ((s.ctx.cache.flatMap CLine.lines).filter (fun h => h % 4096 == set)).length

/-- Make room in the sets of some handles: evict the least recently used unpinned contexts; none where every way is
pinned (R237). -/
def State.roomF : Nat → State → List Nat → Option State
  | 0, _, _ => none
  | fuel + 1, s, hs =>
    match hs.find? (fun h => decide (8 < s.inSet (h % 4096) + (hs.filter (fun x => x % 4096 == h % 4096)).length)) with
    | none => some s
    | some h =>
      match s.ctx.cache.find? (fun l => l.pins == [] && l.lines.any (fun x => x % 4096 == h % 4096)) with
      | some l => roomF fuel (s.evict l) hs
      | none => none

/-- Everything cached is written back and dropped (R132, R227), for the contexts that `p` selects. -/
def State.flushLines (s : State) (p : CLine → Bool) : State :=
  (s.ctx.cache.filter p).foldl (fun s l => match s.cached l.h with | some l => s.evict l | none => s) s

-- order on a handle --------------------------------------------------------------------------------------------------------

/-- The request uses a context: the operations that name one (R159). -/
def dUsesCtx (d : Bytes) : Bool :=
  let op := dOp d
  opLane op || op == 0x32 || op == 0x33 || op == 0x34 || (opCtx op && !(op == 0x86 && dPbit d 8))

/-- Admitted and before its commit point. -/
def Req.inFlight (r : Req) : Bool := r.stage == .checking || r.stage == .ready || r.stage == .running

/-- The request is admitted and not complete: a context operation holds later requests until then (R247). -/
def Req.notComplete (r : Req) : Bool := r.inFlight || r.stage == .committed || r.stage == .completing

/-- CTX_FLUSH with ALL: it uses every cached line of its function (R256). -/
def dFlushAll (d : Bytes) : Bool := dOp d == 0x86 && dPbit d 8

/-- R247: what precedes a request on its handle lets it go on; a CTX_FLUSH with ALL stands on every handle of its function (R256;
DEDUCED, log entry 53), so no line is pinned when it runs (R237). -/
def State.handleFree (s : State) (r : Req) : Bool :=
  let all := dFlushAll r.d
  s.reqs.all (fun q =>
    q.id == r.id || r.adm ≤ q.adm || !q.notComplete
    || (if dFlushAll q.d then q.f != r.f
        else if all then q.f != r.f || !dUsesCtx q.d || !q.inFlight
        else !dUsesCtx q.d || dCtx q.d != dCtx r.d
             || (if opCtx (dOp q.d) then false else !opCtx (dOp r.d) || !q.inFlight)))
  && (!(opCtx (dOp r.d) && !all) || s.tableWrites [dCtx r.d] == [])

/-- R317: no earlier admitted request on the saved state of the handle is in flight. -/
def State.savedFree (s : State) (r : Req) : Bool :=
  s.reqs.all (fun q => q.id == r.id || r.adm ≤ q.adm || !q.inFlight || !dStateful q.d || dCtx q.d != dCtx r.d)

-- obtaining a line (R235) ------------------------------------------------------------------------------------------------------

/-- End a request with CONTEXT_DENIED (R173: DETAIL 0). -/
def State.deny (s : State) (r : Req) : State := s.fail r stContextDenied 0

/-- Steps 1 and 2 of R235; during a disable only a request that has obtained its line goes on (R227). -/
def State.ctxReachable (s : State) (r : Req) : Bool :=
  (if s.ctx.disabling then decide (3 < r.step) else s.ctx.enable) && s.inRange r.f (dCtx r.d) && s.handleOk (dCtx r.d)

/-- Step 3 of R235 on a line's memory form: its clear payload. -/
def State.lineValid (s : State) (h : Nat) (mem : Bytes) : Option Bytes :=
  if allZero mem then none else
  match lineOpen s.ck h s.gen mem with
  | none => none
  | some p => if lineInvalid (lineHdr mem) (p.drop 8) then none else some p

/-- Steps 3 to 6 of R235 over the lines as read, the primary first: the context as it would be cached. -/
def State.lineCheck (s : State) (r : Req) (mem : Bytes) (xmem : List Bytes) : Option CLine :=
  let h := dCtx r.d
  let hdr := lineHdr mem
  let own := fun (x : Hdr) => x.owner == r.f && x.epoch == s.epoch r.f
  match s.lineValid h mem with
  | none => none
  | some p =>
    if hdr.format ≠ 1 ∨ ¬ own hdr then none else
    let xs := xmem.zipIdx.map (fun x => (s.lineValid (h + 1 + x.2) x.1).map (fun q => (x.1, x.2, q)))
    if (xs.zipIdx).all (fun x => s.inRange r.f (h + 1 + x.2) && s.handleOk (h + 1 + x.2) && (match x.1 with
        | none => false
        | some (m, i, _) => (lineHdr m).format == 2 && own (lineHdr m) && (lineHdr m).ext == i + 1)) then
      let pay := xs.flatMap (fun x => match x with | some (_, _, q) => q | none => [])
      some { h := h, mem := mem, xmem := xmem, memCtr := fieldLE p 0 8, mpay := pay, work := fieldLE p 0 8, pay := pay }
    else none

/-- The lines of a context as read for a request, the primary first (R235, R223). Lines with a write under way are read
after its response. -/
def State.readLines (s : State) (r : Req) : Prep (Bytes × List Bytes) :=
  let h := dCtx r.d
  if s.tableWrites ((List.range 8).map (h + ·)) ≠ [] then .wait s else
  match s.want r (s.lineAddr h) 64 31 with
  | .wait s => .wait s
  | .stop s => .stop s
  | .go s mem =>
    -- the extension lines are read once the primary line has passed, where they lie in range
    let hdr := lineHdr mem
    let n := if (s.lineValid h mem).isSome ∧ hdr.format = 1 ∧ hdr.owner = r.f ∧ hdr.epoch = s.epoch r.f then hdr.ext else 0
    if ¬ (List.range n).all (fun i => s.inRange r.f (h + 1 + i) && s.handleOk (h + 1 + i)) then .go s (mem, List.replicate n [])
    else match s.wantEach r ((List.range n).map (fun i => (s.lineAddr (h + 1 + i), 64))) [] with
      | .wait s => .wait s
      | .stop s => .stop s
      | .go s b => .go s (mem, (List.range n).map (fun i => slice b (64 * i) 64))

/-- A line read from the table that fails its tag is CTX_TAG (R500, step 3 of R235); the extension lines count where they
have been read. -/
def State.tagEvent (s : State) (r : Req) (mem : Bytes) (xmem : List Bytes) : State :=
  let bad := fun (h : Nat) (m : Bytes) => m != [] && !allZero m && (lineOpen s.ck h s.gen m).isNone
  if bad (dCtx r.d) mem || xmem.zipIdx.any (fun x => bad (dCtx r.d + 1 + x.2) x.1) then s.capture 0x78 0 r.f else s

/-- A context cache entry is lost (R500): clean or dirty, it is dropped without write-back. Entries are numbered in the order of
their use (DESIGN CHOICE, log entry 26). -/
def State.ctxLost (s : State) (src detail : Nat) (inj : Bool) : State :=
  match s.ctx.cache[detail]? with
  | some l => (s.capture (if l.dirty then 0x72 else 0x71) detail 31 inj).recover (fun s => s.dropLine l.h)
  | none => s.capture src detail 31 inj

/-- The context that a request's handle names, as cached or as it would be cached after steps 1 to 6 of R235; the
request ends with CONTEXT_DENIED where a step fails. -/
def State.lookup (s : State) (r : Req) : Prep CLine :=
  if ¬ s.ctxReachable r then .stop (s.deny r) else
  match s.cached (dCtx r.d) with
  | some l =>
    if s.wordStrike 0x70 = some true then .wait (s.injFired.ctxLost 0x71 (s.ctx.cache.findIdx (fun x => x.h == l.h)) true) else
    let s := s.singleStrike 0x70 0x70 (s.ctx.cache.findIdx (fun x => x.h == l.h))
    if l.hdr.owner = r.f ∧ l.hdr.epoch = s.epoch r.f ∧ l.lines.all (fun h => s.inRange r.f h && s.handleOk h) then .go s l
    else .stop (s.deny r)
  | none =>
    match s.readLines r with
    | .wait s => .wait s
    | .stop s => .stop s
    | .go s (mem, xmem) =>
      -- the context key register is read for the lines' tags (R234, R514)
      let s := match s.wordStrike 0x08 with
        | some true => s.injFired.capture 0x08 0 31 true
        | some false => s.injFired
        | none => s
      match s.lineCheck r mem xmem with
      | some l => .go s l
      | none => .stop ((s.tagEvent r mem xmem).deny r)

/-- The request takes and pins its context, filling the cache and reserving under R241 where the line has not been
reserved: the reservation belongs to the fill and goes out in parallel with the key lift (R238, R241), the line writes that R235 denies
to a failed use being the use's own (R233: no room for the reservation write ends it with SEQ_EXHAUSTED, or CONTEXT_DENIED for CTX_DESTROY). -/
def State.obtain (s : State) (r : Req) (l : CLine) : Prep CLine :=
  let full := if dOp r.d = 0x81 then stContextDenied else stSeqExhausted
  let s' : Option State := match s.cached l.h with
    | some _ => some s
    | none => (s.roomF (s.ctx.cache.length + 1) l.lines).map (fun (s : State) => { s with ctx := { s.ctx with cache := s.ctx.cache ++ [l] } })
  match s' with
  | none => .wait s
  | some s =>
    let s := s.touch l.h
    match s.cached l.h with
    | none => .wait s
    | some l =>
      if l.hdr.cmode ≠ 0 ∧ ¬ l.res then
        (match s.reserveTo { l with res := true, work := l.memCtr, durable := l.memCtr, filled := false } (satLimit (l.memCtr + RES)) with
         | none => .stop ((s.dropLine l.h).fail r full 0)
         | some s =>
           match s.cached l.h with
           | some l => let l := { l with pins := r.id :: l.pins }
                       .go (s.setCached l) l
           | none => .wait s)
      else
        let l := { l with pins := r.id :: l.pins }
        .go (s.setCached l) l

-- counters -----------------------------------------------------------------------------------------------------------------

/-- The request draws a counter value from its context (R242, R271, R340). -/
def dDraws (r : Req) (implicit : Bool) : Bool := dIvCtx r.d || dOp r.d == 0x50 || (dOp r.d == 0x51 && implicit)

/-- An earlier admitted request of the handle may still draw (R242): it is in flight and has not drawn. -/
def State.drawTurn (s : State) (r : Req) : Bool :=
  s.reqs.all (fun q => q.id == r.id || r.adm ≤ q.adm || q.drawn || q.stage != .checking || dCtx q.d != dCtx r.d
    || !(dIvCtx q.d || dOp q.d == 0x50 || dOp q.d == 0x51))

/-- Draw a value (R241, R242): `limit` is the first value never drawn; `skip0` discards 0. -/
def State.draw (s : State) (r : Req) (limit : Nat) (skip0 : Bool) : Prep Nat :=
  match s.cached (dCtx r.d) with
  | none => .wait s
  | some l =>
    let v := if skip0 ∧ l.work = 0 then 1 else l.work
    if limit ≤ v then .stop (s.fail r stSeqExhausted 0)
    else if l.durable < v + 1 ∨ ¬ l.filled then
      (if l.refreshing ∨ ¬ l.filled then .wait s
       else match s.reserveTo l (satLimit (l.limit + RES)) with
         | some s => .wait s
         | none => .stop (s.fail r stSeqExhausted 0))
    else
      let s := s.setCached { l with work := v + 1 }
      .go (s.refresh l.h) v

-- keys -----------------------------------------------------------------------------------------------------------------------

/-- A key cache entry, found by tag, slot and use, or by handle and VERSION (R259). -/
def State.findKey (s : State) (lifted : Bool) (a b use : Nat) : Option KeyEnt :=
  s.ctx.keys.find? (fun k => k.lifted == lifted && k.a == a && k.b == b && (!lifted || k.use == use))

/-- A request in flight holds the key. -/
def State.keyHeld (s : State) (k : KeyEnt) : Bool :=
  s.reqs.any (fun r => r.inFlight && r.keys.any (fun x => x.lifted == k.lifted && x.a == k.a && x.b == k.b && x.use == k.use))

/-- A request in flight holds the states. -/
def State.hmacHeld (s : State) (k : HmEnt) : Bool := s.reqs.any (fun r => r.inFlight && r.hname == some (k.lifted, k.a, k.b))

/-- A cache of `n` entries after one is entered or used anew: that one is the most recent, and beyond `n` the least recent one leaves
that no request in flight holds (R259). -/
def lruPut {α : Type} (n : Nat) (same held : α → Bool) (l : List α) (k : α) : List α :=
  let old := l.filter (fun x => !same x)
  if old.length < n then old ++ [k]
  else match old.find? (fun x => !held x) with
    | some _ => old.eraseP (fun x => !held x) ++ [k]
    | none => old

/-- Enter a key, or make it the most recent one; the cache holds 256. -/
def State.addKey (s : State) (k : KeyEnt) : State :=
  { s with ctx := { s.ctx with
      keys := lruPut 256 (fun x => x.lifted == k.lifted && x.a == k.a && x.b == k.b && x.use == k.use) s.keyHeld s.ctx.keys k } }

/-- Enter a pair of HMAC states, or make it the most recent one; the cache holds 512. -/
def State.addHmac (s : State) (k : HmEnt) : State :=
  { s with ctx := { s.ctx with
      hmac := lruPut 512 (fun x => x.lifted == k.lifted && x.a == k.a && x.b == k.b && x.halg == k.halg) s.hmacHeld s.ctx.hmac k } }

/-- The request holds a key. -/
def Req.hold (r : Req) (sel : Nat) (k : KeyEnt) : Req :=
  { r with keys := r.keys ++ [{ sel := sel, key := k.key, attr := k.attr, lifted := k.lifted, a := k.a, b := k.b, use := k.use }], kneed := [] }

/-- A key from a slot for a request: `ok` says which sizes it can use. A cached key that it cannot use counts as a refusal for it
(R230, R258). -/
def State.slotKey (s : State) (r : Req) (slot tag use sel : Nat) (ok : Nat → Bool) : Prep Bytes :=
  match s.findKey true tag slot use with
  | some k =>
    let idx := s.ctx.keys.findIdx (· == k)
    if s.wordStrike 0x70 = some true then
      .wait ((s.injFired.capture 0x73 idx 31 true).recover (fun s => { s with ctx := { s.ctx with keys := s.ctx.keys.eraseIdx idx } }))
    else
    let s := s.singleStrike 0x70 0x70 idx
    if ok k.key.length then .go ((s.setReq (r.hold sel k)).addKey k) k.key
    else .stop ((s.klRefused { slot := slot, tag := tag, use := use }).deny r)
  | none =>
    let need := (slot, tag, use)
    if r.kneed.contains need then .wait s
    else .wait ((s.setReq { r with kneed := need :: r.kneed }).klNeed slot tag use)

/-- The key of slot selector `sel` of a request's context: inline, cached or lifted. -/
def State.ctxKey (s : State) (r : Req) (sel use : Nat) (ok : Nat → Bool) : Prep Bytes :=
  match r.keys.find? (fun k => k.sel == sel) with
  | some k => .go s k.key
  | none =>
    let hdr := Hdr.ofNat r.hdr
    if hdr.inline then
      let k : KeyEnt := { lifted := false, a := dCtx r.d, b := hdr.version, key := r.ctxKey.take (inlineBytes hdr.alg) }
      .go ((s.setReq (r.hold sel k)).addKey k) k.key
    else s.slotKey r (fieldLE r.ctxKey (2 * sel) 2) hdr.owner use sel ok

-- digest engines for state computations (R245, R260) ---------------------------------------------------------------------------

/-- Count on a digest engine unless its counters are frozen (R319). -/
def State.digCount (s : State) (e : Nat) (c : RegName) (sat : Bool) (k : Nat := 1) : State :=
  if bitOf (s.reg .digCntCtrl e) 0 then s
  else if sat then s.bumpSat c e 0 k else s.setReg c e 0 (s.reg c e + BitVec.ofNat 32 k)

/-- Cycles of one block (R299). -/
def Halg.cycles (a : Halg) : Nat := if a.narrow then 16 else if a.isSha2 then 20 else 12

/-- Digest engine `e` is in service. -/
def State.digIn (s : State) (e : Nat) : Bool := decide (e < 4) && !s.retired (9 + e) && !(s.dig e).test

/-- Digest engine `e` is powered, clocked and at a stroke boundary; a lane may be using it (R201). -/
def State.digIdle (s : State) (e : Nat) : Bool :=
  (s.dig e).run.isNone && s.islandUp 9 && s.clkOk 5
  && !(List.range 9).any (fun n => match (s.lane n).run with | some w => w.digest == some e | none => false)

/-- The first digest engine in service and idle. -/
def State.freeDig (s : State) : Option Nat := (List.range 4).find? (fun e => s.digIn e && s.digIdle e)

/-- A computation on an easel waits for a digest engine, ahead of every grant (R370). -/
def State.pssWaits (s : State) : Bool := (List.range 4).any (fun e => (s.easel e).comps.any (fun c => c.hashing && !c.dead))

/-- Digest engine `e` is in service, idle and not the one that a waiting gallery extension or PSS hash takes (R324, R370). -/
def State.digFree (s : State) (e : Nat) : Bool :=
  s.digIn e && s.digIdle e && !((s.gal.ext != [] || s.pssWaits) && s.freeDig == some e)

/-- The first free digest engine outside a list. -/
def State.digFor (s : State) (not : List Nat) : Option Nat := (List.range 4).find? (fun e => s.digFree e && !not.contains e)

/-- `n` blocks of `c` digest cycles each run on engine `e`. -/
def State.digRun (s : State) (e n c : Nat) : State := (s.digCount e .digBlockCount false n).addBusy (9 + e) (n * c)

/-- The inner and outer states of a key are computed on a digest engine (R245, R260): two compressions; none while no engine is free. -/
def State.stateRun (s : State) (a : Halg) : Option State := (s.digFor []).map (fun e => s.digRun e 2 a.cycles)

/-- The request holds a pair of HMAC states. -/
def State.holdHmac (s : State) (r : Req) (k : HmEnt) : Prep (Bytes × Bytes) :=
  .go ((s.setReq { r with hstates := some (k.inner, k.outer), hname := some (k.lifted, k.a, k.b) }).addHmac k) (k.inner, k.outer)

/-- Inner and outer HMAC states for slot selector `sel` of a request's context (R245, R259, R260): those of a lifted key are computed on
first use, before the request's first stroke. -/
def State.ctxHmac (s : State) (r : Req) (sel : Nat) (a : Halg) : Prep (Bytes × Bytes) :=
  match r.hstates with
  | some p => .go s p
  | none =>
    let hdr := Hdr.ofNat r.hdr
    if hdr.inline then
      let n := a.stateBytes
      let ext := match s.cached (dCtx r.d) with | some l => l.pay | none => []
      s.holdHmac r { lifted := false, a := dCtx r.d, b := hdr.version, halg := a.code, inner := slice ext 0 n, outer := slice ext n n }
    else
      let slot := fieldLE r.ctxKey (2 * sel) 2
      match s.ctx.hmac.find? (fun x => x.lifted && x.a == hdr.owner && x.b == slot && x.halg == a.code) with
      | some x => s.holdHmac r x
      | none =>
        match s.ctxKey r sel 1 (fun _ => true) with
        | .wait s => .wait s
        | .stop s => .stop s
        | .go s key =>
          match s.stateRun a, s.req r.id with
          | some s, some r =>
            let p := hmacStates a key
            s.holdHmac r { lifted := true, a := hdr.owner, b := slot, halg := a.code, inner := p.1, outer := p.2 }
          | _, _ => .wait s

/-- A key is refused: every request waiting for it ends with CONTEXT_DENIED (R258). -/
def State.keyRefused (s : State) (k : KlReq) : State :=
  let s := s.klRefused k
  (s.reqs.filter (fun r => r.kneed.contains (k.slot, k.tag, k.use) && r.stage == .checking)).foldl (fun s r => s.deny r) s

end Sys2Proof.Machine
end

