-- ==== Sys2Proof/Machine/Stencil.lean ====
section
/-! DEFINITION. Stencils (R327-R352): the table and its check, the layout of a message, nonces, heads, masks, trailers,
and the replay window. -/
namespace Sys2Proof.Machine

-- the table ----------------------------------------------------------------------------------------------------------

/-- A directory entry (R332). -/
structure Sten where
  sid : Nat
  kind : Nat
  ciphs : Nat
  nonce : Nat
  n : Nat
  from1 : Bool
  sfUsed : Nat
  bodyMax : Nat
  outFirst : Nat
  outCount : Nat
  inFirst : Nat
  inCount : Nat
deriving DecidableEq, Repr

/-- Bit `i` of a number. -/
def nbit (v i : Nat) : Bool := v / 2 ^ i % 2 == 1

/-- Read a directory entry of 16 bytes. -/
def Sten.of (b : Bytes) : Sten :=
  { sid := fieldLE b 0 1, kind := fieldLE b 1 1, ciphs := fieldLE b 2 1, nonce := fieldLE b 3 1
    n := fieldLE b 4 1 % 128, from1 := nbit (fieldLE b 4 1) 7, sfUsed := fieldLE b 5 1, bodyMax := fieldLE b 6 2
    outFirst := fieldLE b 8 2, outCount := fieldLE b 10 1, inCount := fieldLE b 11 1, inFirst := fieldLE b 12 2 }

/-- Stencils of the table in use; 0 before RELEASE. -/
def stnCount (t : Bytes) : Nat := fieldLE t 2 2
/-- Steps of the table in use. -/
def stnSteps (t : Bytes) : Nat := fieldLE t 4 2
/-- Directory entry `i`. -/
def stnDir (t : Bytes) (i : Nat) : Bytes := slice t (16 + 16 * i) 16
/-- Step `i`. -/
def stnStep (t : Bytes) (i : Nat) : Bytes := slice t (16 + 16 * stnCount t + 8 * i) 8

/-- The stencil with a SID. -/
def stnFind (t : Bytes) (sid : Nat) : Option Sten :=
  ((List.range (stnCount t)).map (fun i => Sten.of (stnDir t i))).find? (fun s => s.sid == sid)

/-- A step (R333). -/
structure Step where
  opc : Nat
  cov : Nat
  wire : Bool
  keep : Bool
  cbit : Nat
  cpol : Bool
  size : Nat
  val : Nat
deriving DecidableEq, Repr

/-- Read a step of 8 bytes. -/
def Step.of (b : Bytes) : Step :=
  let f := fieldLE b 1 1
  { opc := fieldLE b 0 1, cov := f % 4, wire := nbit f 2, keep := nbit f 3, cbit := f / 16 % 8, cpol := nbit f 7
    size := fieldLE b 2 2, val := fieldLE b 4 4 }

/-- The OUT or IN list of a stencil. -/
def Sten.list (t : Bytes) (s : Sten) (inb : Bool) : List Step :=
  let first := if inb then s.inFirst else s.outFirst
  (List.range (if inb then s.inCount else s.outCount)).map (fun i => Step.of (stnStep t (first + i)))

/-- A step is active under the condition bits (R333, R337). -/
def Step.on (x : Step) (sf : Nat) : Bool := x.cbit == 0 || nbit sf (x.cbit - 1) == x.cpol

/-- Sequence limit (R332). -/
def Sten.limit (s : Sten) : Nat := if s.n = 64 then 2 ^ 64 - 1 else 2 ^ s.n
/-- Seal stencil. -/
def Sten.isSeal (s : Sten) : Bool := nbit s.kind 2
/-- The inbound value is drawn. -/
def Sten.implicit (s : Sten) : Bool := nbit s.kind 3

-- the loader's check of the table (R336) --------------------------------------------------------------------------------

/-- A step's OPC, SIZE, VAL, COV and CBIT are valid, whichever list it stands in and if it stands in none (R333, R334, R336). -/
def Step.valid (x : Step) : Bool :=
  let v8 := fun (i : Nat) => x.val / 2 ^ (8 * i) % 256
  x.cov != 3 && x.cbit ≤ 5 &&
  (match x.opc with
   | 0x01 => 1 ≤ x.size && x.size ≤ 4 && decide (x.val < 2 ^ (8 * x.size))
   | 0x02 => 1 ≤ x.size && x.val < 256 && v8 0 + x.size ≤ 24
   | 0x03 => x.size == 1 && v8 0 ≤ 24 && v8 3 == 0
   | 0x04 => [1, 2, 4, 6, 8].contains x.size && [0, 8, 16, 24, 32, 48].contains (v8 0) && v8 1 ≤ 1 && x.val < 0x10000
   | 0x05 => (x.size == 1 || x.size == 2) && v8 3 == 0 && (v8 2 == 0 || (v8 2 == 1 && x.size == 1))
   | 0x06 => x.size == 8 && x.val == 0
   | 0x07 => x.size == 1 && x.val ≤ 1
   | 0x08 => x.size == 8 && x.val == 0
   | 0x09 => (x.size == 1 || x.size == 2) && x.val < 256 && x.cov == 0 && !x.wire
   | 0x0A => x.size == 0 && x.val == 0 && x.cov == 0 && !x.wire
   | 0x0B => 1 ≤ x.size && x.size ≤ 255 && x.val == 0
   | 0x0C => x.size == 0 && x.val == 0
   | 0x0D => x.size == 0 && x.val ≤ 1
   | 0x0E => [8, 12, 16].contains x.size && x.val == 0 && x.cov == 0 && x.wire
   | 0x0F => x.size == 0 && x.val == 0 && x.cov == 0 && !x.wire
   | _ => false)

/-- What a step's stencil and list ask of it besides (R334, R336). -/
def Step.ok (s : Sten) (inb : Bool) (x : Step) : Bool :=
  x.valid && (x.cbit == 0 || nbit s.sfUsed (x.cbit - 1)) && (inb || !x.keep) &&
  (match x.opc with
   | 0x04 => decide (x.val % 256 + 8 * x.size ≤ s.n)
   | 0x06 => s.nonce == 4
   | 0x07 => s.isSeal
   | 0x08 => s.isSeal
   | 0x09 => s.nonce == 1
   | 0x0A => inb
   | 0x0E => !nbit s.ciphs 2 || x.size == 16
   | _ => true)

/-- Number of active steps with an opcode. -/
def countOpc (l : List Step) (o : Nat) : Nat := (l.filter (fun x => x.opc == o)).length

/-- Place of the first step with an opcode. -/
def placeOf (l : List Step) (o : Nat) : Nat := l.findIdx (fun x => x.opc == o)

/-- Wire bytes of head fields. -/
def wireSum (l : List Step) : Nat := ((l.filter (·.wire)).map (·.size)).foldl (· + ·) 0

/-- The wired SEQ steps cover bits 0 upward without a gap. -/
def seqCovers : Nat → Nat → List Step → Bool
  | 0, _, _ => true
  | fuel + 1, b, l =>
    if l = [] then true else
    match l.find? (fun x => decide (x.val % 256 ≤ b) && decide (b < x.val % 256 + 8 * x.size)) with
    | some x => seqCovers fuel (x.val % 256 + 8 * x.size) (l.filter (· != x))
    | none => l.all (fun x => decide (x.val % 256 + 8 * x.size ≤ b))

/-- The active steps of one list under one setting meet R336. -/
def activeOk (s : Sten) (inb : Bool) (l : List Step) : Bool :=
  let head := l.takeWhile (fun x => x.opc != 0x0C)
  let bodyAt := placeOf l 0x0C
  let seqs := l.filter (fun x => x.opc == 0x04 && x.wire)
  let cipherBody := l.any (fun x => x.opc == 0x0C && x.cov == 2)
  countOpc l 0x0C == 1 && countOpc l 0x0D ≤ 1 && countOpc l 0x0E == 1
  && (countOpc l 0x0D == 0 || (decide (bodyAt < placeOf l 0x0D) && decide (placeOf l 0x0D < placeOf l 0x0E) && cipherBody))
  && decide (bodyAt < placeOf l 0x0E)
  && l.all (fun x => x.cov != 2 || x.opc == 0x0C || x.opc == 0x0D)
  && (l.drop (bodyAt + 1)).all (fun x => x.opc == 0x0D || x.opc == 0x0E || x.opc == 0x0F)
  && decide (wireSum head ≤ 256) && decide (((head.filter (fun x => x.cov == 1)).map (·.size)).foldl (· + ·) 0 ≤ 256)
  && (!inb || s.implicit || s.isSeal || (1 ≤ seqs.length && countOpc l 0x0A == 1))
  && (!s.isSeal || (countOpc l 0x0A == 0 && (!inb || (match seqs with | [x] => x.size == 8 && x.val == 0 | _ => false))))
  && seqCovers seqs.length 0 seqs
  && l.all (fun x => x.opc != 0x09 || decide (x.val % 256 + x.size ≤ wireSum head))

/-- One list of a stencil meets R336 under every setting of its condition bits. -/
def listOk (t : Bytes) (s : Sten) (inb : Bool) : Bool :=
  let first := if inb then s.inFirst else s.outFirst
  let cnt := if inb then s.inCount else s.outCount
  let l := s.list t inb
  decide (2 ≤ cnt) && decide (cnt ≤ 64) && decide (first + cnt ≤ stnSteps t)
  && l.all (fun x => x.ok s inb)
  && (l.dropLast).all (fun x => x.opc != 0x0F)
  && (match l.getLast? with | some x => x.opc == 0x0F && x.cbit == 0 | none => false)
  && (List.range 32).all (fun sf => Nat.land sf (31 - s.sfUsed % 32) != 0 || activeOk s inb (l.filter (fun x => x.on sf)))

/-- A directory entry follows R332 and R336. -/
def dirOk (t : Bytes) (i : Nat) : Bool :=
  let b := stnDir t i
  let s := Sten.of b
  let wantsOut := nbit s.kind 0 || s.isSeal
  let wantsIn := nbit s.kind 1 || s.isSeal
  1 ≤ s.sid && s.sid ≤ 0xFE && s.kind < 16 && s.ciphs < 8 && 1 ≤ s.nonce && s.nonce ≤ 5
  && (s.n == 32 || s.n == 48 || s.n == 64) && s.sfUsed < 32 && fieldLE b 14 2 == 0
  && (!s.isSeal || (s.kind == 4 && s.ciphs == 2 && s.nonce == 5 && s.n == 64))
  && (s.nonce != 5 || s.isSeal) && (!s.implicit || nbit s.kind 1)
  && ((List.range i).all (fun j => (Sten.of (stnDir t j)).sid != s.sid))
  && (if wantsOut then listOk t s false else s.outCount == 0)
  && (if wantsIn then listOk t s true else s.inCount == 0)

/-- The primer loader's check of the stencil table (R331, R336); zero bytes fill the section behind the steps. -/
def stencilTableOk (t : Bytes) : Bool :=
  let used := 16 + 16 * stnCount t + 8 * stnSteps t
  fieldLE t 0 2 == 1 && 1 ≤ stnCount t && stnCount t ≤ 64 && 1 ≤ stnSteps t && stnSteps t ≤ 4096
  && fieldLE t 6 10 == 0 && decide (used ≤ t.length) && allZero (t.drop used)
  && (List.range (stnSteps t)).all (fun i => (Step.of (stnStep t i)).valid) && (List.range (stnCount t)).all (dirOk t)

-- a message ------------------------------------------------------------------------------------------------------------

/-- What a stencil use needs: the stencil, the active steps, direction, cipher, parameters, ARG, LENGTH, and the values
of SYS and TIME outbound. -/
structure Sx where
  st : Sten
  inb : Bool
  steps : List Step
  ciph : Nat
  p : Bytes
  arg : Nat
  len : Nat
  fn : Nat := 0
  tstat : Nat := 0
  time : Nat := 0

/-- Head steps. -/
def Sx.head (x : Sx) : List Step := x.steps.takeWhile (fun s => s.opc != 0x0C)
/-- Head wire bytes. -/
def Sx.headLen (x : Sx) : Nat := wireSum x.head
/-- Bytes that PASS steps take from the source. -/
def Sx.passLen (x : Sx) : Nat := ((x.head.filter (fun s => s.opc == 0x0B)).map (·.size)).foldl (· + ·) 0
/-- BODY step. -/
def Sx.bodyStep (x : Sx) : Step := (x.steps.find? (fun s => s.opc == 0x0C)).getD (Step.of [])
/-- BODY is encrypted. -/
def Sx.cipher (x : Sx) : Bool := x.bodyStep.cov == 2
/-- TRAILER step. -/
def Sx.trailer (x : Sx) : Option Step := x.steps.find? (fun s => s.opc == 0x0D)
/-- Tag bytes. -/
def Sx.tagLen (x : Sx) : Nat := ((x.steps.find? (fun s => s.opc == 0x0E)).map (·.size)).getD 16
/-- Source bytes of the body (R338). -/
def Sx.bodyLen (x : Sx) : Nat := if x.inb then x.len - x.headLen - x.tagLen else x.len - x.passLen

/-- The trailer outbound for a body of `n` bytes (R342). -/
def Sx.trailerBytes (x : Sx) (n : Nat) : Bytes :=
  match x.trailer with
  | none => []
  | some s =>
    if s.val % 256 = 0 then [BitVec.ofNat 8 x.arg] ++ zeros (x.arg / 256 % 0x10000)
    else
      let pad := (4 - (n + 2) % 4) % 4 + 4 * (x.arg / 256 % 256)
      (List.range pad).map (fun i => BitVec.ofNat 8 (i + 1)) ++ [BitVec.ofNat 8 pad, BitVec.ofNat 8 x.arg]

/-- Bytes of body and trailer on the wire. -/
def Sx.bodyWire (x : Sx) : Nat := if x.inb then x.bodyLen else x.bodyLen + (x.trailerBytes x.bodyLen).length

/-- ARG checks of the trailer outbound (R342). -/
def Sx.argBad (x : Sx) : Bool :=
  !x.inb && (match x.trailer with
    | none => false
    | some s => if s.val % 256 = 0 then x.arg % 256 == 0 else decide (63 < x.arg / 256 % 256))

/-- Size checks of R338. -/
def Sx.sizeBad (x : Sx) : Bool :=
  (if x.inb then decide (x.len < x.headLen + x.tagLen) else decide (x.len < x.passLen))
  || decide (x.st.bodyMax < x.bodyWire)
  || (x.steps.any (fun s => s.opc == 0x09) && decide (x.bodyWire + x.tagLen < 16))

/-- Bytes of the kept head fields (R333, R338), on the wire or not; a mask has none of its own. -/
def Sx.keptLen (x : Sx) : Nat := ((x.head.filter (fun s => s.keep && s.opc != 0x09)).map (·.size)).foldl (· + ·) 0

/-- Output size for R164 (R338). -/
def Sx.outSize (x : Sx) : Nat :=
  if x.inb then x.keptLen + (if x.bodyStep.keep then x.bodyLen else 0)
  else x.headLen + x.bodyWire + x.tagLen

/-- Wire bytes of the head before step `i` (by place in the head). -/
def Sx.wireBefore (x : Sx) (i : Nat) : Nat := wireSum (x.head.take i)

/-- Value of LEN (R334): the wire bytes behind the field, or the body's size. -/
def Sx.lenVal (x : Sx) (i : Nat) (s : Step) : Nat :=
  if s.val / 0x10000 % 256 = 0 then
    (x.headLen - x.wireBefore i - (if s.wire then s.size else 0) + x.bodyWire + x.tagLen + 2 ^ 32 - s.val % 0x10000) % 2 ^ (8 * s.size)
  else if x.bodyLen < 48 then x.bodyLen else 0

/-- The bytes that the outbound rule gives a head field (R334); PASS bytes come from `pass`. -/
def Sx.fieldOut (x : Sx) (seq : Nat) (pass : Bytes) (i : Nat) (s : Step) : Bytes :=
  match s.opc with
  | 0x01 => natBE s.size s.val
  | 0x02 => slice x.p (s.val % 256) s.size
  | 0x03 => [BitVec.ofNat 8 (Nat.lor (Nat.land (x.arg / 2 ^ (s.val % 256)) (255 - s.val / 0x100 % 256)) (s.val / 0x10000 % 256))]
  | 0x04 => natBE s.size (seq / 2 ^ (s.val % 256))
  | 0x05 => natBE s.size (x.lenVal i s)
  | 0x06 => natBE 8 seq
  | 0x07 => [BitVec.ofNat 8 (if s.val % 256 = 0 then x.fn else x.tstat)]
  | 0x08 => natBE 8 x.time
  | 0x0B =>
    let off := (((x.head.take i).filter (fun y => y.opc == 0x0B)).map (·.size)).foldl (· + ·) 0
    slice pass off s.size
  | _ => []

/-- Head fields with the bytes each has: outbound from its rule, inbound wired fields from the message. -/
def Sx.fields (x : Sx) (seq : Nat) (bytes : Bytes) : List (Step × Bytes) :=
  (x.head.zipIdx).map (fun p =>
    (p.1, if x.inb ∧ p.1.wire then slice bytes (x.wireBefore p.2) p.1.size else x.fieldOut seq bytes p.2 p.1))

/-- The AUTH bytes of the head. -/
def aadOf (l : List (Step × Bytes)) : Bytes := (l.filter (fun p => p.1.cov == 1)).flatMap (·.2)
/-- The wire bytes of the head. -/
def wireOf (l : List (Step × Bytes)) : Bytes := (l.filter (fun p => p.1.wire)).flatMap (·.2)

/-- The AEAD nonce (R335). -/
def Sx.nonce (x : Sx) (l : List (Step × Bytes)) (seq : Nat) : Bytes :=
  let s64 := natBE 8 seq
  match x.st.nonce with
  | 1 => xorBytes (slice x.p 0 12) (zeros 4 ++ s64)
  | 2 => slice x.p 0 8 ++ natBE 4 seq
  | 3 => xorBytes (slice x.p 20 4 ++ s64) (slice x.p 8 12)
  | 4 => slice x.p 4 4 ++ slice ((l.find? (fun p => p.1.opc == 0x06)).map (·.2) |>.getD s64) 0 8
  | _ => zeros 3 ++ slice ((l.find? (fun p => p.1.opc == 0x07 && p.1.val % 256 == 0)).map (·.2) |>.getD [BitVec.ofNat 8 x.fn]) 0 1 ++ s64

/-- Encrypt or decrypt payload bytes from offset `off`. -/
def Sx.crypt (x : Sx) (key nonce : Bytes) (off : Nat) (b : Bytes) : Bytes :=
  if x.ciph = 2 then chachaAt key nonce 1 off b else gcmCtr key nonce off b

/-- The AEAD tag. -/
def Sx.tag (x : Sx) (key nonce aad ct : Bytes) : Bytes :=
  (if x.ciph = 2 then chachaTag key nonce aad ct else gcmTag key nonce aad ct).take x.tagLen

/-- The sequence-number mask over a sample of 16 bytes (R339). -/
def Sx.mask (x : Sx) (keyB sample : Bytes) (n : Nat) : Bytes :=
  if x.ciph = 2 then chachaAt keyB (slice sample 4 12) (fieldLE sample 0 4) 0 (zeros n)
  else (aesEnc keyB (slice sample 0 16)).take n

/-- XOR the masks of the active SNMASK steps onto a head. -/
def Sx.applyMasks (x : Sx) (keyB sample head : Bytes) : Bytes :=
  (x.head.filter (fun s => s.opc == 0x09)).foldl (fun h s =>
    let o := s.val % 256
    overwrite h o (xorBytes (slice h o s.size) (x.mask keyB sample s.size))) head

/-- The protected message outbound, head to tag, and the tag (R337). -/
def Sx.build (x : Sx) (key keyB : Bytes) (seq : Nat) (src : Bytes) : Bytes × Bytes :=
  let fs := x.fields seq src
  let body := src.drop x.passLen
  let pl := body ++ x.trailerBytes x.bodyLen
  let nonce := x.nonce fs seq
  let aad := aadOf fs
  let ct := if x.cipher then x.crypt key nonce 0 pl else []
  let wireBody := if x.cipher then ct else pl
  let tag := x.tag key nonce (if x.bodyStep.cov = 1 then aad ++ body else aad) ct
  let head := x.applyMasks keyB (slice (wireBody ++ tag) 0 16) (wireOf fs)
  (head ++ wireBody ++ tag, tag)

/-- The part of the protected message that the stroke over source bytes up to `upto`, from `from_`, releases (R219,
R343): the first stroke carries the head, the last the trailer and the tag. -/
def Sx.outSpan (x : Sx) (from_ upto : Nat) (last : Bool) : Nat × Nat :=
  let at_ := fun (b : Nat) => if b ≤ x.passLen then x.headLen else x.headLen + (b - x.passLen)
  (if from_ = 0 then 0 else at_ from_, if last then x.outSize else at_ upto)

/-- Unmask an inbound head. -/
def Sx.unmask (x : Sx) (keyB : Bytes) (msg : Bytes) : Bytes :=
  x.applyMasks keyB (slice msg x.headLen 16) (slice msg 0 x.headLen)

/-- Recover an inbound sequence value from the head (R340): `h` is the working counter. -/
def Sx.recover (x : Sx) (h : Nat) (head : Bytes) : Nat :=
  (x.fields 0 head).foldl (fun s p =>
    if p.1.opc ≠ 0x04 ∨ ¬ p.1.wire then s else
    let sh := p.1.val % 256
    let k := 8 * p.1.size
    let s := s + beNat p.2 * 2 ^ sh
    if p.1.val / 0x100 % 256 = 1 then
      -- RECOV: the bits from k upward are recovered from h
      let lo := s % 2 ^ k
      let base := if h + 1 < 2 ^ (k - 1) then 0 else h + 1 - 2 ^ (k - 1)
      let c := base / 2 ^ k * 2 ^ k + lo
      if c < base then c + 2 ^ k else c
    else s) 0

/-- A compare of one inbound field (R334): the DETAIL where it fails. -/
def Sx.stepCheck (x : Sx) (seq : Nat) (i : Nat) (s : Step) (b : Bytes) : Option Nat :=
  if ¬ s.wire then none else
  match s.opc with
  | 0x01 => if b = x.fieldOut seq [] i s then none else some 0x0130
  | 0x02 => if b = x.fieldOut seq [] i s then none else some 0x0130
  | 0x03 => if Nat.land (leNat b) (s.val / 0x100 % 256) = s.val / 0x10000 % 256 then none else some 0x0130
  | 0x05 =>
    if s.val / 0x10000 % 256 = 0 then (if beNat b = x.lenVal i s then none else some 0x0001)
    else
      let v := beNat b
      if (v ≠ 0 ∧ v < 48 ∧ v = x.bodyLen) ∨ (v = 0 ∧ 48 ≤ x.bodyLen) then none else some 0x0001
  | 0x07 => if s.val % 256 = 1 ∧ 2 ≤ leNat b then some 0x0130 else none
  | _ => none

/-- The compares of pass 2 before the replay check's step, or behind it, in step order (R341). -/
def Sx.compare (x : Sx) (seq : Nat) (head : Bytes) (behind : Bool) : Option Nat :=
  let l := (x.fields seq head).zipIdx
  let at_ := l.findIdx (fun p => p.1.1.opc == 0x0A)
  (if behind then l.drop at_ else l.take at_).findSome? (fun p => x.stepCheck seq p.2 p.1.1 p.1.2)

/-- The replay check of R341 without the wait for room: the value is acceptable. -/
def replayOk (s : Sten) (w h : Nat) (bitmap : Bytes) (pend : List Nat) (v : Nat) : Bool :=
  !(decide (s.limit ≤ v) || (s.from1 && v == 0)) && !pend.contains v
  && (decide (h < v) || (w != 0 && decide (h - v < w) && !(byteAt bitmap ((h - v) / 8)).getLsbD ((h - v) % 8)))

/-- The window after acceptance (R341): the highest value and the bitmap of `w` bits. -/
def replayCommit (w h : Nat) (bitmap : Bytes) (v : Nat) : Nat × Bytes :=
  let n := w / 8
  let b := leNat (bitmap.take n)
  if h < v then
    let sh := v - h
    (v, natLE n (Nat.lor ((if w ≤ sh then 0 else b * 2 ^ sh) % 2 ^ w) 1))
  else if h - v < w then (h, natLE n (Nat.lor b (2 ^ (h - v))))
  else (h, bitmap.take n)

/-- Plaintext of the body bytes `upto` from `from_` of the body, given the message prefix read. -/
def Sx.openBody (x : Sx) (key : Bytes) (seq : Nat) (head : Bytes) (from_ : Nat) (b : Bytes) : Bytes :=
  let fs := x.fields seq head
  if x.cipher then x.crypt key (x.nonce fs seq) from_ b else b

/-- The tag of an inbound message verifies. -/
def Sx.tagOk (x : Sx) (key : Bytes) (seq : Nat) (head msg : Bytes) : Bool :=
  let fs := x.fields seq head
  let nonce := x.nonce fs seq
  let body := slice msg x.headLen x.bodyLen
  let aad := aadOf fs
  x.tag key nonce (if x.bodyStep.cov = 1 then aad ++ body else aad) (if x.cipher then body else [])
    == slice msg (x.headLen + x.bodyLen) x.tagLen

/-- Kept head bytes of an inbound message (R343). -/
def Sx.keptHead (x : Sx) (seq : Nat) (head : Bytes) : Bytes :=
  ((x.fields seq head).filter (fun p => p.1.keep)).flatMap (·.2)

/-- Strip a trailer (R342): content length and type, or none where it is malformed. -/
def stripTrailer (kind : Nat) (body : Bytes) : Option (Nat × Nat) :=
  if kind = 0 then
    (match (body.zipIdx).reverse.find? (fun p => p.1 != 0) with
     | some (b, i) => some (i, b.toNat)
     | none => none)
  else
    let n := body.length
    if n < 2 then none else
    let pl := (byteAt body (n - 2)).toNat
    if n < pl + 2 then none
    else if (slice body (n - 2 - pl) pl) = (List.range pl).map (fun i => BitVec.ofNat 8 (i + 1))
      then some (n - pl - 2, (byteAt body (n - 1)).toNat) else none

/-- The byte reported by the last ARG field (R334, R344). -/
def argReport (l : List (Step × Bytes)) : Nat :=
  ((l.filter (fun p => p.1.opc == 0x03 && p.1.wire)).getLast?.map (fun p => leNat p.2)).getD 0

end Sys2Proof.Machine
end

