-- ==== Sys2Proof/Machine/Num.lean ====
section
/-! DEFINITION. Modular arithmetic on natural numbers for the easels (R368-R384): powers, inverses, square roots,
primality. -/
namespace Sys2Proof.Machine

/-- Bits of a number. -/
def bitLen (n : Nat) : Nat := if n = 0 then 0 else Nat.log2 n + 1

/-- Right-to-left power modulo `m`; `fuel` bounds the exponent's bits. -/
def powF (m : Nat) : Nat → Nat → Nat → Nat → Nat
  | 0, _, _, acc => acc % m
  | f + 1, b, e, acc => if e = 0 then acc % m else powF m f (b * b % m) (e / 2) (if e % 2 = 1 then acc * b % m else acc)

/-- `b ^ e mod m`; 1 mod m where `e` is 0. -/
def modPow (b e m : Nat) : Nat := powF m (bitLen e) (b % m) e 1

/-- Extended Euclid: gcd and the coefficient of the first argument; `fuel` bounds the divisions. -/
def egcdF : Nat → Nat → Nat → Int → Int → Nat × Int
  | 0, r0, _, s0, _ => (r0, s0)
  | f + 1, r0, r1, s0, s1 => if r1 = 0 then (r0, s0) else egcdF f r1 (r0 % r1) s1 (s0 - (r0 / r1 : Nat) * s1)

/-- The inverse of `a` modulo `m`, if there is one. -/
def modInv (a m : Nat) : Option Nat :=
  let r := egcdF (2 * bitLen m + 2) (a % m) m 1 0
  if r.1 = 1 then some ((r.2 % (m : Int)).toNat) else none

/-- Difference modulo `m` of numbers below `m`. -/
def subMod (a b m : Nat) : Nat := (a + (m - b % m)) % m

/-- A square root of `u` modulo a prime that is 3 mod 4 or 5 mod 8 (RFC 8032). -/
def sqrtMod (u p : Nat) : Option Nat :=
  let x := if p % 4 = 3 then modPow u ((p + 1) / 4) p else modPow u ((p + 3) / 8) p
  if x * x % p = u % p then some x
  else
    let y := x * modPow 2 ((p - 1) / 4) p % p
    if p % 8 = 5 ∧ y * y % p = u % p then some y else none

/-- Square `x` up to `k` times in search of -1. -/
def mrLoop (n : Nat) : Nat → Nat → Bool
  | 0, _ => false
  | k + 1, x => if x = n - 1 then true else mrLoop n k (x * x % n)

/-- Odd part and exponent of two of a number. -/
def oddPart : Nat → Nat → Nat → Nat × Nat
  | 0, d, s => (d, s)
  | f + 1, d, s => if d % 2 = 0 then oddPart f (d / 2) (s + 1) else (d, s)

/-- One base of the Miller–Rabin test. -/
def mrBase (n a : Nat) : Bool :=
  if a % n = 0 then true else
  let (d, s) := oddPart (bitLen n) (n - 1) 0
  let x := modPow a d n
  x == 1 || mrLoop n s x

/-- Miller–Rabin with the bases of R392. -/
def millerRabin (n : Nat) : Bool := decide (2 < n) && n % 2 == 1 && [2, 3, 5, 7, 11, 13, 17, 19].all (mrBase n)

end Sys2Proof.Machine
end

