-- ==== Sys2Proof/Machine/Curves.lean ====
section
/-! DEFINITION. Curves of the curve table (R390-R392), points, encodings, and the signature equations (R365-R384). -/
namespace Sys2Proof.Machine

/-- A curve entry (R391). -/
structure Curve where
  index : Nat
  kind : Nat
  pbits : Nat
  nbits : Nat
  h : Nat
  p : Nat
  a : Nat
  b : Nat
  gx : Nat
  gy : Nat
  n : Nat
deriving DecidableEq, Repr

/-- Read an entry of 448 bytes. -/
def Curve.of (e : Bytes) : Curve :=
  { index := fieldLE e 0 1, kind := fieldLE e 1 1, pbits := fieldLE e 2 2, nbits := fieldLE e 4 2, h := fieldLE e 6 1
    p := fieldLE e 0x10 72, a := fieldLE e 0x58 72, b := fieldLE e 0xA0 72, gx := fieldLE e 0xE8 72
    gy := fieldLE e 0x130 72, n := fieldLE e 0x178 72 }

/-- A point: none is the identity of a Weierstrass curve. -/
abbrev Pt := Option (Nat × Nat)

/-- Weierstrass addition in affine form. -/
def wAdd (c : Curve) : Pt → Pt → Pt
  | none, q => q
  | p, none => p
  | some (x1, y1), some (x2, y2) =>
    let m := c.p
    if x1 = x2 ∧ (y1 + y2) % m = 0 then none
    else
      let num := if x1 = x2 then (3 * x1 * x1 + c.a) % m else subMod y2 y1 m
      let den := if x1 = x2 then 2 * y1 % m else subMod x2 x1 m
      let l := num * (modInv den m).getD 0 % m
      let x3 := subMod (subMod (l * l % m) x1 m) x2 m
      some (x3, subMod (l * subMod x1 x3 m % m) y1 m)

/-- Twisted Edwards addition in affine form. -/
def eAdd (c : Curve) (p q : Nat × Nat) : Nat × Nat :=
  let m := c.p
  let x1y2 := p.1 * q.2 % m
  let y1x2 := p.2 * q.1 % m
  let t := c.b * (x1y2 * y1x2 % m) % m
  let x3 := (x1y2 + y1x2) * (modInv (1 + t) m).getD 0 % m
  let y3 := subMod (p.2 * q.2 % m) (c.a * (p.1 * q.1 % m) % m) m * (modInv (subMod 1 t m) m).getD 0 % m
  (x3, y3)

/-- Double and add; `fuel` bounds the scalar's bits. -/
def mulF {α : Type} (add : α → α → α) : Nat → Nat → α → α → α
  | 0, _, _, acc => acc
  | f + 1, k, p, acc => if k = 0 then acc else mulF add f (k / 2) (add p p) (if k % 2 = 1 then add acc p else acc)

/-- Scalar multiple on a Weierstrass curve. -/
def wMul (c : Curve) (k : Nat) (p : Pt) : Pt := mulF (wAdd c) (bitLen k) k p none
/-- Scalar multiple on an Edwards curve. -/
def eMul (c : Curve) (k : Nat) (p : Nat × Nat) : Nat × Nat := mulF (eAdd c) (bitLen k) k p (0, 1)
/-- Negation on an Edwards curve. -/
def eNeg (c : Curve) (p : Nat × Nat) : Nat × Nat := ((c.p - p.1) % c.p, p.2)

/-- The point lies on the Weierstrass curve. -/
def wOn (c : Curve) (x y : Nat) : Bool := y * y % c.p == (x * x % c.p * x + c.a * x + c.b) % c.p

/-- RFC 8032 values of edwards25519. -/
def ed25519 : Curve :=
  { index := 0, kind := 2, pbits := 255, nbits := 253, h := 8, p := 2 ^ 255 - 19, a := 2 ^ 255 - 20
    b := 37095705934669439343138083508754565189542113879843219016388785533085940283555
    gx := 15112221349535400772501151409588531511454012693041857206046113283949847762202
    gy := 46316835694926478169428394003475163141307993866256225615783033603165251855960
    n := 2 ^ 252 + 27742317777372353535851937790883648493 }

/-- RFC 8032 values of edwards448. -/
def ed448 : Curve :=
  { index := 0, kind := 3, pbits := 448, nbits := 446, h := 4, p := 2 ^ 448 - 2 ^ 224 - 1, a := 1
    b := 2 ^ 448 - 2 ^ 224 - 1 - 39081
    gx := 224580040295924300187604334099896036246789641632564134246125461686950415467406032909029192869357953282578032075146446173674602635247710
    gy := 298819210078481492676017930443930673437544040154080242095928241372331506189835876003536878655418784733982303233503462500531545062832660
    n := 2 ^ 446 - 13818066809895115352007386748515426880336692474882178609894547503885 }

/-- Bytes of a point encoding, and of its slot (R359). -/
def edLen (c : Curve) : Nat := if c.kind = 2 then 32 else 57
/-- Bytes of a slot. -/
def edSlot (c : Curve) : Nat := if c.kind = 2 then 32 else 64

/-- RFC 8032 decoding of a point: y below p, a square root found, x = 0 with the sign bit set rejected. -/
def edDecode (c : Curve) (b : Bytes) : Option (Nat × Nat) :=
  let v := leNat b
  let top := 8 * edLen c - 1
  let y := v % 2 ^ top
  let sign := v / 2 ^ top
  if c.p ≤ y then none else
  let u := subMod 1 (y * y % c.p) c.p
  let w := subMod c.a (c.b * (y * y % c.p) % c.p) c.p
  match sqrtMod (u * (modInv w c.p).getD 0 % c.p) c.p with
  | none => none
  | some x => if x = 0 ∧ sign = 1 then none else some (if x % 2 = sign then x else (c.p - x) % c.p, y)

/-- Every check of R392 on an entry of kind 1 to 3. -/
def curveOk (e : Bytes) : Bool :=
  let c := Curve.of e
  e.length == 448 && decide (c.index < 32) && fieldLE e 7 1 == 0 && decide (160 ≤ c.pbits) && decide (c.pbits ≤ 576)
  && decide (1 ≤ c.h) && decide (c.h ≤ 8) &&
  (match c.kind with
   | 1 =>
     bitLen c.p == c.pbits && decide (3 < c.p) && millerRabin c.p && decide (c.a < c.p) && decide (c.b < c.p)
     && (4 * (c.a * c.a % c.p) * c.a + 27 * c.b * c.b) % c.p != 0
     && decide (c.gx < c.p) && decide (c.gy < c.p) && wOn c c.gx c.gy
     && bitLen c.n == c.nbits && decide (c.nbits ≤ c.pbits + 1) && decide (c.pbits / 2 < c.nbits) && decide (c.pbits < 2 * c.nbits)
     && millerRabin c.n && (wMul c c.n (some (c.gx, c.gy))).isNone
     && (let t : Int := (c.p : Int) + 1 - (c.h * c.n : Nat); decide (t * t ≤ 4 * (c.p : Int)))
   | 2 => { c with index := 0 } == ed25519
   | 3 => { c with index := 0 } == ed448
   | _ => false)

/-- Key checks of R365 on an affine Weierstrass point. -/
def wKeyOk (c : Curve) (x y : Nat) : Bool :=
  decide (x < c.p) && decide (y < c.p) && wOn c x y && (c.h ≤ 1 || (wMul c c.n (some (x, y))).isNone)

/-- Key checks of R365 on an Edwards encoding: it decodes, is not the identity, and L·A is the identity. -/
def edKey (c : Curve) (b : Bytes) : Option (Nat × Nat) :=
  match edDecode c b with
  | none => none
  | some q => if q = (0, 1) then none else if eMul c c.n q = (0, 1) then some q else none

/-- Clear the cofactor: [8] or [4]. -/
def edClear (c : Curve) (q : Nat × Nat) : Nat × Nat := eMul c (if c.kind = 2 then 8 else 4) q

/-- The cofactored equation of R369. -/
def edVerify (c : Curve) (a r : Nat × Nat) (S K : Nat) : Bool :=
  let sb := eMul c S (c.gx, c.gy)
  let ka := eMul c (K % c.n) a
  edClear c (eAdd c sb (eNeg c (eAdd c r ka))) == (0, 1)

/-- The independent check of EdDSA (R384): the equation's point without cofactor clearing, [S]B - [k]A - R, has an order that
divides the cofactor. -/
def edCheck (c : Curve) (a r : Nat × Nat) (S K : Nat) : Bool :=
  let q := eAdd c (eMul c S (c.gx, c.gy)) (eNeg c (eAdd c r (eMul c (K % c.n) a)))
  let h := if c.kind = 2 then 8 else 4
  (List.range (h + 1)).any (fun d => d != 0 && h % d == 0 && eMul c d q == (0, 1))

/-- e of ECDSA (R368): the leftmost bits of the digest. -/
def ecdsaE (c : Curve) (digest : Bytes) : Nat :=
  let bits := min c.nbits (8 * digest.length)
  beNat digest / 2 ^ (8 * digest.length - bits) % c.n

/-- R' of ECDSA (R368). -/
def ecdsaPoint (c : Curve) (digest : Bytes) (qx qy r s : Nat) : Pt :=
  let w := (modInv s c.n).getD 0
  wAdd c (wMul c (ecdsaE c digest * w % c.n) (some (c.gx, c.gy))) (wMul c (r * w % c.n) (some (qx, qy)))

/-- ECDSA (R368). -/
def ecdsaVerify (c : Curve) (digest : Bytes) (qx qy r s : Nat) : Bool :=
  match ecdsaPoint c digest qx qy r s with
  | none => false
  | some (x, _) => x % c.n == r

/-- The independent check of ECDSA (R384): s·R' = e·G + r·Q. -/
def ecdsaCheck (c : Curve) (digest : Bytes) (qx qy r s : Nat) : Bool :=
  wMul c s (ecdsaPoint c digest qx qy r s) == wAdd c (wMul c (ecdsaE c digest) (some (c.gx, c.gy))) (wMul c r (some (qx, qy)))

/-- A Weierstrass point lies on the curve in projective form, with Z = 2 (R384). -/
def wOnProj (c : Curve) (x y : Nat) : Bool :=
  let X := 2 * x
  let Y := 2 * y
  Y * Y * 2 % c.p == (X * X * X + c.a * X * 4 + c.b * 8) % c.p

/-- An Edwards point lies on the curve in projective form, with Z = 2 (R384). -/
def eOnProj (c : Curve) (q : Nat × Nat) : Bool :=
  let X := 2 * q.1
  let Y := 2 * q.2
  (c.a * X * X + Y * Y) * 4 % c.p == (16 + c.b * X * X * Y * Y) % c.p

/-- A record of a batch after its checks: A, R, S, K, randomiser. -/
structure BatchRec where
  a : Nat × Nat
  r : Nat × Nat
  s : Nat
  k : Nat
  z : Nat
deriving DecidableEq, Repr

/-- A sub-batch passes (R377). -/
def batchPass (l : List BatchRec) : Bool :=
  let c := ed25519
  match l with
  | [x] => edVerify c x.a x.r x.s x.k
  | _ =>
    let sb := eMul c ((l.map (fun x => x.z * x.s)).foldl (· + ·) 0 % c.n) (c.gx, c.gy)
    let q := l.foldl (fun q x => eAdd c q (eAdd c (eMul c x.z x.r) (eMul c (x.z * (x.k % c.n) % c.n) x.a))) (0, 1)
    edClear c (eAdd c sb (eNeg c q)) == (0, 1)

/-- The bisection of R378: indices that fail, in rising order. `known` says that the set is known to fail. -/
def bisect (get : Nat → BatchRec) : Nat → Bool → List Nat → List Nat
  | 0, _, l => l
  | f + 1, known, l =>
    if ¬ known ∧ batchPass (l.map get) then [] else
    match l with
    | [i] => [i]
    | _ =>
      let m := (l.length + 1) / 2
      let fl := bisect get f false (l.take m)
      fl ++ bisect get f (fl == []) (l.drop m)

/-- The independent check of a batch (R384), along the bisection: a set that passes does so with the second randomisers too, and a
set of one is judged alike by the check of EDDSA_VERIFY. -/
def bisectAgree (get get2 : Nat → BatchRec) : Nat → Bool → List Nat → Bool
  | 0, _, _ => true
  | f + 1, known, l =>
    let pass := !known && batchPass (l.map get)
    match l with
    | [i] => known || edCheck ed25519 (get i).a (get i).r (get i).s (get i).k == pass
    | _ =>
      if pass then batchPass (l.map get2) else
      let m := (l.length + 1) / 2
      let fl := bisect get f false (l.take m)
      bisectAgree get get2 f false (l.take m) && bisectAgree get get2 f (fl == []) (l.drop m)

-- RSA ------------------------------------------------------------------------------------------------------------------

/-- MGF1 of RFC 8017. -/
def mgf1 (a : Halg) (seed : Bytes) (n : Nat) : Bytes :=
  ((List.range (ceilDiv n a.digest)).flatMap (fun i => a.hashMsg (seed ++ natBE 4 i))).take n

/-- Blocks of a padded message of `n` bytes. -/
def Halg.padded (a : Halg) (n : Nat) : Nat := if a.isSha2 then ceilDiv (n + 1 + a.block / 8) a.block else n / a.block + 1

/-- Digest blocks of EMSA-PSS-VERIFY (R370): those of M' and of MGF1, whose lengths the parameters fix. -/
def pssBlocks (a : Halg) (bits slen : Nat) : Nat :=
  a.padded (8 + a.digest + slen) + ceilDiv (ceilDiv bits 8 - a.digest - 1) a.digest * a.padded (a.digest + 4)

/-- EMSA-PSS-VERIFY of RFC 8017 on the encoded message of `bits` bits (R370). -/
def pssVerify (a : Halg) (mHash : Bytes) (m bits slen : Nat) : Bool :=
  let emLen := ceilDiv bits 8
  if 256 ^ emLen ≤ m ∨ emLen < a.digest + slen + 2 then false else
  let em := natBE emLen m
  let db := em.take (emLen - a.digest - 1)
  let h := slice em (emLen - a.digest - 1) a.digest
  let top := 8 * emLen - bits
  if byteAt em (emLen - 1) ≠ 0xBC ∨ (byteAt em 0).toNat / 2 ^ (8 - top) ≠ 0 then false else
  let x := xorBytes db (mgf1 a h db.length)
  let x := x.set 0 (BitVec.ofNat 8 ((byteAt x 0).toNat % 2 ^ (8 - top)))
  let ps := emLen - a.digest - slen - 2
  allZero (x.take ps) && byteAt x ps == 0x01 && a.hashMsg (zeros 8 ++ mHash ++ x.drop (ps + 1)) == h

/-- DigestInfo of RFC 8017 with the explicit NULL, up to the digest. -/
def digestInfo (a : Halg) : Bytes :=
  let oid : Byte := match a with | .sha224 => 4 | .sha256 => 1 | .sha384 => 2 | .sha512 => 3 | _ => 6
  let d := BitVec.ofNat 8 a.digest
  [0x30, 17 + d, 0x30, 0x0d, 0x06, 0x09, 0x60, 0x86, 0x48, 0x01, 0x65, 0x03, 0x04, 0x02, oid, 0x05, 0x00, 0x04, d]

/-- EMSA-PKCS1-v1_5 encoding of `k` bytes (R371). -/
def pkcs1Encode (a : Halg) (digest : Bytes) (k : Nat) : Bytes :=
  let t := digestInfo a ++ digest
  [0x00, 0x01] ++ List.replicate (k - t.length - 3) 0xFF ++ [0x00] ++ t

end Sys2Proof.Machine
end

