-- ==== Sys2Proof/Machine/Flags.lean ====
section
/-! DEFINITION. FLAGS of the sketch processor: their computation by each instruction that sets them (R405, R406, R413,
R415), and the guards. -/
namespace Sys2Proof.Machine

/-- FLAGS from its four bits. -/
def mkFlags (z n c v : Bool) : BitVec 4 :=
  BitVec.ofNat 4 ((if z then 1 else 0) + (if n then 2 else 0) + (if c then 4 else 0) + (if v then 8 else 0))

/-- Z of FLAGS. -/
def fZ (f : BitVec 4) : Bool := f.getLsbD 0
/-- N of FLAGS. -/
def fN (f : BitVec 4) : Bool := f.getLsbD 1
/-- C of FLAGS. -/
def fC (f : BitVec 4) : Bool := f.getLsbD 2
/-- V of FLAGS. -/
def fV (f : BitVec 4) : Bool := f.getLsbD 3

/-- The test that TEST selects (R405). -/
def guardTest (t : Nat) (f : BitVec 4) : Bool :=
  match t with
  | 0 => true
  | 1 => fZ f
  | 2 => fC f
  | 3 => fN f
  | 4 => fV f
  | 5 => fC f || fZ f
  | 6 => fN f != fV f
  | _ => fZ f || fN f != fV f

/-- The instruction executes (R405): the test's result differs from SENSE. -/
def guardOn (g : BitVec 4) (f : BitVec 4) : Bool := guardTest (g.toNat % 8) f != g.getLsbD 3

/-- Z and N from a result, C and V kept. -/
def flagsZN (f : BitVec 4) (r : Limb) : BitVec 4 := mkFlags (r == 0) r.msb (fC f) (fV f)

/-- Z, N and C from a result, V kept. -/
def flagsZNC (f : BitVec 4) (r : Limb) (c : Bool) : BitVec 4 := mkFlags (r == 0) r.msb c (fV f)

/-- A sum with carry in: the result and its flags. C is the carry and V the signed overflow. -/
def addFlags (a b : Limb) (cin : Bool) : Limb × BitVec 4 :=
  let k := if cin then 1 else 0
  let r : Limb := BitVec.ofNat 64 (a.toNat + b.toNat + k)
  let si : Int := a.toInt + b.toInt + k
  (r, mkFlags (r == 0) r.msb (decide (2 ^ 64 ≤ a.toNat + b.toNat + k)) (decide (r.toInt ≠ si)))

/-- A difference with borrow in: the result and its flags. C is the borrow and V the signed overflow. -/
def subFlags (a b : Limb) (cin : Bool) : Limb × BitVec 4 :=
  let k := if cin then 1 else 0
  let r : Limb := BitVec.ofInt 64 ((a.toNat : Int) - b.toNat - k)
  let si : Int := a.toInt - b.toInt - k
  (r, mkFlags (r == 0) r.msb (decide (a.toNat < b.toNat + k)) (decide (r.toInt ≠ si)))

/-- SHL, SHR, SAR and ROL (R415): the result and C. -/
inductive Shift where
  | shl | shr | sar | rol
deriving DecidableEq, Repr

/-- A shift by a count: the result and C (R415). A count of 0 leaves the value and clears C, and ROL takes the count
modulo 64 (DEDUCED, log entry 21). -/
def shiftBy (k : Shift) (a : Limb) (s : Nat) : Limb × Bool :=
  if s = 0 then (a, false) else
  match k with
  | .shl => if 64 ≤ s then (0, false) else (a <<< s, a.getLsbD (64 - s))
  | .shr => if 64 ≤ s then (0, false) else (a >>> s, a.getLsbD (s - 1))
  | .sar => if 64 ≤ s then (BitVec.ofInt 64 (if a.msb then -1 else 0), a.msb) else (a.sshiftRight s, a.getLsbD (s - 1))
  | .rol => if s % 64 = 0 then (a, false) else let r := a.rotateLeft (s % 64); (r, r.getLsbD 0)

/-- Leading zero bits, 0 to 64. -/
def clz64 (a : Limb) : Nat := if a = 0 then 64 else 63 - Nat.log2 a.toNat

/-- Trailing zero bits, 0 to 64. -/
def ctz64 (a : Limb) : Nat := ((List.range 64).find? (fun i => a.getLsbD i)).getD 64

/-- PERM (R417): byte i of the result selected by byte i of `c`. -/
def permBytes (a c : Limb) : Limb :=
  BitVec.ofNat 64 ((List.range 8).foldl (fun r i =>
    let b := c.toNat / 2 ^ (8 * i) % 256
    let v := if b / 8 % 2 = 1 then 0 else a.toNat / 2 ^ (8 * (b % 8)) % 256
    r + v * 2 ^ (8 * i)) 0)

/-- BFX. -/
def bitExtract (a : Limb) (w lsb : Nat) : Limb := BitVec.ofNat 64 (a.toNat / 2 ^ lsb % 2 ^ w)

/-- BFI (R416). -/
def bitInsert (a b : Limb) (w lsb : Nat) : Limb :=
  let m : Limb := BitVec.ofNat 64 ((2 ^ w - 1) * 2 ^ lsb)
  (a &&& ~~~m) ||| ((b <<< lsb) &&& m)

end Sys2Proof.Machine
end

