-- ==== Sys2Proof/Machine/Sketch.lean ====
section
/-! DEFINITION. Sketches (R402-R447): the library and its check, segments, and what one instruction does to a
computation. -/
namespace Sys2Proof.Machine

-- the library -------------------------------------------------------------------------------------------------------------

/-- ENTRY_COUNT of a library section; 0 before RELEASE. -/
def libCount (t : Bytes) : Nat := fieldLE t 2 2
/-- CODE_WORDS. -/
def libWords (t : Bytes) : Nat := fieldLE t 4 4
/-- Bytes of entry `i`. -/
def libEntryB (t : Bytes) (i : Nat) : Bytes := if i < libCount t then slice t (16 + 96 * i) 96 else []
/-- Code word `w`. -/
def libCode (t : Bytes) (w : Nat) : Nat := fieldLE t (16 + 96 * libCount t + 4 * w) 4

/-- A library entry (R440). -/
structure LibEntry where
  id : Nat
  cx : Bool
  fnMask : Nat
  start : Nat
  len : Nat
  pages : Nat
  ckpt : Nat
  ckptN : Nat
  lmax : Nat
  inMax : Nat
  outMax : Nat
  cap : Nat
deriving DecidableEq, Repr

/-- Read an entry of 96 bytes. -/
def LibEntry.of (b : Bytes) : LibEntry :=
  { id := fieldLE b 0 2, cx := fieldLE b 2 2 % 2 == 1, fnMask := fieldLE b 4 4, start := fieldLE b 8 4, len := fieldLE b 12 4
    pages := fieldLE b 16 1, ckpt := fieldLE b 17 1 % 16, ckptN := fieldLE b 18 1, lmax := fieldLE b 19 1
    inMax := fieldLE b 20 2, outMax := fieldLE b 22 2, cap := fieldLE b 24 2 }

/-- Segment descriptor `s` of an entry as an empty segment (R410, R440). -/
def libSeg (b : Bytes) (s : Nat) : Seg :=
  let n := 16 * fieldLE b (0x20 + 4 * s) 2
  let k := fieldLE b (0x22 + 4 * s) 1
  let dual := k % 4 == 1
  { size := n, dual := dual, r := k / 4 % 2 == 1, w := k / 8 % 2 == 1, bytes := if dual then [] else zeros n }

/-- Index of the entry with an ID. -/
def libFind (t : Bytes) (id : Nat) : Option Nat :=
  (List.range (libCount t)).find? (fun i => (LibEntry.of (libEntryB t i)).id == id)

/-- IMM formats (R407). -/
inductive Fmt where
  | f0 | u20 | s20 | rel | mem (r w : Bool) | seg | sh | bf | k | sr
  /-- GZ with the fields D, A, B that are used; `dual` says that IMM names a DUAL segment. -/
  | gz (d a b : Bool) | slot (curve : Bool) | cx
deriving DecidableEq, Repr

/-- Format of an opcode (R413, R423, R429); none for an invalid one. -/
def opcFmt (o : Nat) : Option Fmt :=
  if [0x00, 0x01, 0x02, 0x05, 0x13, 0x14, 0x15, 0x16, 0x17, 0x19, 0x32, 0x33, 0x45, 0x50, 0x51, 0x52, 0x54].contains o then some .f0
  else if (0x20 ≤ o ∧ o ≤ 0x24) ∨ (0x26 ≤ o ∧ o ≤ 0x29) ∨ o = 0x2E ∨ o = 0x2F then some .f0
  else if o = 0x03 ∨ o = 0x04 ∨ o = 0x06 then some .rel
  else if o = 0x10 ∨ o = 0x12 then some .u20
  else if o = 0x11 ∨ o = 0x25 then some .s20
  else if o = 0x18 then some .k
  else if 0x2A ≤ o ∧ o ≤ 0x2D then some .sh
  else if o = 0x30 ∨ o = 0x31 then some .bf
  else if o = 0x40 ∨ o = 0x42 then some (.mem true false)
  else if o = 0x41 ∨ o = 0x43 then some (.mem false true)
  else if o = 0x44 then some .seg
  else if o = 0x53 then some .sr
  else if o = 0xC0 ∨ o = 0xC2 then some (.slot false)
  else if o = 0xC1 then some (.slot true)
  else if o = 0xC3 then some (.gz true false false)
  else if o = 0xC4 then some (.gz false true false)
  else if o = 0xC5 then some (.gz true false true)
  else if o = 0xC6 ∨ o = 0xC9 ∨ o = 0xCB ∨ o = 0xCC then some (.gz true true false)
  else if o = 0xC7 ∨ o = 0xC8 ∨ o = 0xCA then some (.gz true true true)
  else if o = 0xCD then some (.gz false true true)
  else if 0xE0 ≤ o ∧ o ≤ 0xEF then some .cx
  else none

/-- The signed value of a 20-bit field. -/
def rel20 (i : Nat) : Int := toSigned 20 i

/-- IMM follows its format, its target lies in the code range, and its segment fits (R407, R442). -/
def immOk (e : LibEntry) (segs : List Seg) (addr imm : Nat) (f : Fmt) : Bool :=
  let segN := imm / 0x10000
  let sg := segs.getD segN {}
  match f with
  | .f0 => imm == 0
  | .u20 => true
  | .s20 => true
  | .cx => true
  | .rel => let t : Int := addr + rel20 imm
            decide ((e.start : Int) ≤ t) && decide (t < e.start + e.len)
  | .mem r w => sg.size != 0 && !sg.dual && (!r || sg.r) && (!w || sg.w)
  | .seg => imm % 0x10000 == 0 && sg.size != 0
  | .sh => decide (imm < 0x80) && (imm < 0x40 || imm == 0x40)
  | .bf => decide (imm < 0x1000) && decide (imm % 64 + imm / 64 + 1 ≤ 64)
  | .k => decide (imm < 32)
  | .sr => decide (imm ≤ 6)
  | .slot curve => decide (imm < if curve then 4 else 2)
  | .gz d a b => imm / 0x8000 % 2 == 0 && (d || imm / 0x400 % 32 == 0) && (a || imm / 0x20 % 32 == 0) && (b || imm % 32 == 0)
                 && sg.size != 0 && sg.dual

/-- A code word of an entry passes the loader's check (R442). -/
def wordOk (e : LibEntry) (segs : List Seg) (addr w : Nat) : Bool :=
  let o := w / 0x100000 % 256
  w / 0x10000000 != 8 && (match opcFmt o with
    | none => false
    | some f => (f != .cx || e.cx) && immOk e segs addr (w % 0x100000) f)

/-- Bytes of the state area of an entry (R409). -/
def stateArea (e : LibEntry) : Nat := 1024 + 64 * (e.lmax + 1)

/-- Bytes that a segment occupies: a DUAL one holds an image for each slice (R409). -/
def Seg.room (s : Seg) : Nat := if s.dual then 2 * s.size else s.size

/-- The segments behind byte `n` of the pages, each with its start, a 16-byte boundary (R409). -/
def layoutF : Nat → List Seg → List (Nat × Seg)
  | _, [] => []
  | n, s :: t => (ceilDiv n 16 * 16, s) :: layoutF (ceilDiv n 16 * 16 + s.room) t

/-- S0 to S15 in the pages of an entry, behind the state area (R409). -/
def segLayout (e : LibEntry) (segs : List Seg) : List (Nat × Seg) := layoutF (stateArea e) segs

/-- Bytes that the pages of an entry must hold (R409, R441). -/
def pagesNeed (e : LibEntry) (segs : List Seg) : Nat :=
  match (segLayout e segs).getLast? with | some (o, s) => o + s.room | none => stateArea e

/-- Reserved fields of an entry are 0 (R440). -/
def entryReservedOk (b : Bytes) : Bool :=
  fieldLE b 2 2 ≤ 1 && fieldLE b 4 4 < 2 ^ 17 && fieldLE b 17 1 < 16 && fieldLE b 26 6 == 0
  && (List.range 16).all (fun s => fieldLE b (0x22 + 4 * s) 1 < 16 && fieldLE b (0x22 + 4 * s) 1 % 4 ≤ 1 && fieldLE b (0x23 + 4 * s) 1 == 0)

/-- An entry follows R440 to R442. -/
def entryOk (t : Bytes) (i : Nat) : Bool :=
  let b := libEntryB t i
  let e := LibEntry.of b
  let segs := (List.range 16).map (libSeg b)
  let s0 := segs.getD 0 {}
  let s1 := segs.getD 1 {}
  entryReservedOk b && decide (0x100 ≤ e.id) && decide (e.id ≤ 0xFFFE) && decide (1 ≤ e.len) && decide (e.start + e.len ≤ libWords t)
  && decide (1 ≤ e.pages) && decide (e.pages ≤ 56) && decide (e.ckptN ≤ 32) && decide (1 ≤ e.lmax) && decide (e.lmax ≤ 128)
  && decide (e.inMax ≤ 16384) && decide (e.outMax ≤ 16384) && decide (1 ≤ e.cap)
  && !s0.dual && s0.r && !s0.w && decide (e.inMax ≤ s0.size)
  && !s1.dual && s1.r && s1.w && decide (e.outMax ≤ s1.size)
  && segs.all (fun s => !s.dual || (s.r && s.w))
  && (e.ckptN == 0 || (let c := segs.getD e.ckpt {}
      c.dual && decide (e.ckptN * 8 * (e.lmax + 1) ≤ c.size)))
  && decide (pagesNeed e segs ≤ 1024 * e.pages)
  && (List.range i).all (fun j => (LibEntry.of (libEntryB t j)).id != e.id)
  && (List.range e.len).all (fun k => wordOk e segs (e.start + k) (libCode t (e.start + k)))

/-- The primer loader's check of the library section (R442). -/
def libraryOk (t : Bytes) : Bool :=
  let used := 16 + 96 * libCount t + 4 * libWords t
  fieldLE t 0 2 == 1 && libCount t ≤ 256 && libWords t ≤ 65536 && fieldLE t 8 8 == 0
  && decide (used ≤ t.length) && decide (t.length < used + 16) && t.length % 16 == 0 && allZero (t.drop used)
  && (List.range (libCount t)).all (entryOk t)

-- canvas -------------------------------------------------------------------------------------------------------------------

/-- Sketch fault codes (R437). -/
inductive SkFault where
  | stackOver | stackUnder | rstackOver | rstackUnder | segRange | segKind | segRights | noModulus | slotMix | curveAbsent
  | badEnd | yieldLimit | cycleCap | cxError | pcRange
deriving DecidableEq, Repr

/-- The code of a sketch fault. -/
def SkFault.code : SkFault → Nat
  | .stackOver => 1 | .stackUnder => 2 | .rstackOver => 3 | .rstackUnder => 4 | .segRange => 5 | .segKind => 6
  | .segRights => 7 | .noModulus => 8 | .slotMix => 9 | .curveAbsent => 10 | .badEnd => 11 | .yieldLimit => 12
  | .cycleCap => 13 | .cxError => 14 | .pcRange => 15

/-- What an instruction makes of a computation. -/
inductive SkRes where
  | next (c : Comp)
  | fault (f : SkFault)
deriving DecidableEq, Repr

/-- What a computation reads besides its own state: the request's ARG, input bytes and function, the entry's limits,
and the curve table. -/
structure SkEnv where
  arg : Nat := 0
  inlen : Nat := 0
  fn : Nat := 0
  lib : LibEntry
  curve : Nat → Option (Nat × Nat)
  order : Nat → Option (Nat × Nat)

/-- The check of R411 in table order: the first of range, kind and rights that fails. -/
def segFault (rangeBad kindBad rightsBad : Bool) : Option SkFault :=
  if rangeBad then some .segRange else if kindBad then some .segKind else if rightsBad then some .segRights else none

/-- Check an access to `n` limbs from limb `off` of segment `k` for reading or writing (R411). -/
def Comp.plainCheck (c : Comp) (k off n : Nat) (write : Bool) : Option SkFault :=
  let s := c.segs.getD k {}
  segFault (s.size == 0 || decide (s.size < 8 * (off + n))) s.dual (if write then !s.w else !s.r)

/-- Split an address word (R407); none where bits [63:20] are set. -/
def addrWord (a : Limb) : Option (Nat × Nat) :=
  if a.toNat < 2 ^ 20 then some (a.toNat / 0x10000, a.toNat % 0x10000) else none

/-- Check an access by address word. -/
def Comp.addrCheck (c : Comp) (a : Limb) (n : Nat) (write : Bool) : Option SkFault :=
  match addrWord a with
  | none => some .segRange
  | some (k, off) => c.plainCheck k off n write

/-- Limb `off` of segment `k`. -/
def Comp.limb (c : Comp) (k off : Nat) : Limb := BitVec.ofNat 64 (fieldLE (c.segs.getD k {}).bytes (8 * off) 8)

/-- Write limbs of a PLAIN segment. -/
def Comp.putBytes (c : Comp) (k off : Nat) (b : Bytes) : Comp :=
  let s := c.segs.getD k {}
  { c with segs := c.segs.set k { s with bytes := overwrite s.bytes (8 * off) b } }

/-- The active slot. -/
def Comp.slot (c : Comp) : Slot := if c.active then c.slot1 else c.slot0
/-- Replace a slot. -/
def Comp.setSlot (c : Comp) (i : Bool) (x : Slot) : Comp := if i then { c with slot1 := x } else { c with slot0 := x }
/-- Limb count of the active slot, 0 where it is unset (R419). -/
def Comp.slotL (c : Comp) : Nat := (c.slot.mod.map (·.1)).getD 0
/-- Modulus of the active slot. -/
def Comp.modulus (c : Comp) : Nat := (c.slot.mod.map (·.2)).getD 1

/-- Bytes of an element of the active slot in each image (R412). -/
def Comp.elemLen (c : Comp) : Nat := 8 * (c.slotL + 1)

/-- Check an access to element `i` of segment `k` (R411). -/
def Comp.dualCheck (c : Comp) (k i : Nat) (write : Bool) : Option SkFault :=
  let s := c.segs.getD k {}
  segFault (s.size == 0 || decide (s.size < c.elemLen * (i + 1))) (!s.dual) (if write then !s.w else !s.r)

/-- Read element `i` of a DUAL segment (R412): zero where it was never written, none where it is bound elsewhere. -/
def Comp.elem (c : Comp) (k i : Nat) : Option Nat :=
  let n := c.elemLen
  let a := n * i
  match (c.segs.getD k {}).elems.find? (fun e => decide (e.start < a + n) && decide (a < e.start + e.len)) with
  | none => some 0
  | some e => if e.start = a ∧ e.slot = c.active ∧ e.load = c.slot.load then some e.val else none

/-- Write element `i` of a DUAL segment, bound to the active slot. -/
def Comp.setElem (c : Comp) (k i v : Nat) : Comp :=
  let s := c.segs.getD k {}
  let e : Elem := { start := c.elemLen * i, len := c.elemLen, slot := c.active, load := c.slot.load, val := v }
  { c with segs := c.segs.set k { s with elems := e :: s.elems.filter (fun x => x.start != e.start || x.len != e.len) } }

/-- Element bytes of a slice's image (R381, R412): the value in the slice's Montgomery form, of radix 2^(64·L) on slice A and of
2^(64·(L + 1)) on slice B, for the modulus of the slot that the element is bound to; zeros once that load is gone. -/
def Comp.imageOf (c : Comp) (b : Bool) (x : Elem) : Bytes :=
  let sl := if x.slot then c.slot1 else c.slot0
  match sl.mod with
  | some (L, m) => if sl.load = x.load then natLE x.len (x.val * 2 ^ (64 * (if b then L + 1 else L)) % m) else zeros x.len
  | none => zeros x.len

/-- Image of a DUAL segment for slice A or B, or the bytes of a PLAIN one (R409). -/
def Comp.segImage (c : Comp) (b : Bool) (s : Seg) : Bytes :=
  if s.dual then s.elems.reverse.foldl (fun m x => overwrite m x.start (c.imageOf b x)) (zeros s.size) else slice s.bytes 0 s.size

/-- What the pages of a computation hold behind its state area, by offset (R409): the image of slice A of a DUAL segment comes first. -/
def Comp.pageBytes (c : Comp) (e : LibEntry) : List (Nat × Bytes) :=
  (segLayout e c.segs).flatMap (fun p =>
    (p.1, c.segImage false p.2) :: (if p.2.dual then [(p.1 + p.2.size, c.segImage true p.2)] else []))

-- the stack -----------------------------------------------------------------------------------------------------------------

/-- Check the depth for `pops` and `pushes` (R414), over before under (R437). -/
def Comp.depthCheck (c : Comp) (pops pushes : Nat) : Option SkFault :=
  if c.stack.length < pops then some .stackUnder
  else if 32 < c.stack.length - pops + pushes then some .stackOver else none

/-- Run `k` unless a check fails. -/
def SkRes.unless (f : Option SkFault) (k : SkRes) : SkRes := match f with | some x => .fault x | none => k

/-- The first of two failed checks in the order of R437. -/
def firstFault (a b : Option SkFault) : Option SkFault :=
  match a, b with
  | some x, some y => some (if x.code ≤ y.code then x else y)
  | some x, none => some x
  | none, y => y

/-- Entry `i` of the stack, the top being 0. -/
def Comp.top (c : Comp) (i : Nat) : Limb := c.stack.getD i 0

/-- An instruction that replaces the top `pops` entries by `push` (top first) and sets FLAGS. -/
def Comp.stackOp (c : Comp) (pops : Nat) (push : List Limb) (fl : BitVec 4) : SkRes :=
  .unless (c.depthCheck pops push.length) (.next { c with stack := push ++ c.stack.drop pops, flags := fl })

/-- A unary operation on the top. -/
def Comp.unary (c : Comp) (g : Limb → Limb × BitVec 4) : SkRes :=
  let r := g (c.top 0)
  c.stackOp 1 [r.1] r.2

/-- A binary operation ( a b -- r ). -/
def Comp.binary (c : Comp) (g : Limb → Limb → Limb × BitVec 4) : SkRes :=
  let r := g (c.top 1) (c.top 0)
  c.stackOp 2 [r.1] r.2

/-- A shift by an immediate or a stack count (R415). -/
def Comp.shift (c : Comp) (k : Shift) (sh : BitVec 7) : SkRes :=
  if sh.getLsbD 6 then
    let r := shiftBy k (c.top 1) (c.top 0).toNat
    c.stackOp 2 [r.1] (flagsZNC c.flags r.1 r.2)
  else
    let r := shiftBy k (c.top 0) (sh.toNat % 64)
    c.stackOp 1 [r.1] (flagsZNC c.flags r.1 r.2)

-- the multiplier ------------------------------------------------------------------------------------------------------------

/-- Land the products issued at or before cycle `t` (R420). -/
def Comp.land (c : Comp) (t : Nat) : Comp :=
  match (c.flight.filter (fun p => decide (p.1 ≤ t))).getLast? with
  | none => c
  | some p => { c with mh := p.2.extractLsb' 64 64, ml := p.2.extractLsb' 0 64, flight := c.flight.filter (fun q => decide (t < q.1)) }

/-- Land every product in flight (R421, R422). -/
def Comp.landAll (c : Comp) : Comp :=
  match c.flight.getLast? with
  | none => c
  | some p => { c with mh := p.2.extractLsb' 64 64, ml := p.2.extractLsb' 0 64, flight := [] }

/-- Cycles until the last product has landed (R421). -/
def Comp.landWait (c : Comp) : Nat :=
  match c.flight.getLast? with
  | none => 0
  | some p => p.1 + 6 - c.total

/-- RDML and RDMH: the product readable in this cycle. -/
def Comp.readProduct (c : Comp) (hi : Bool) : SkRes :=
  let c := if 6 ≤ c.total then c.land (c.total - 6) else c
  c.stackOp 0 [if hi then c.mh else c.ml] c.flags

-- the glaze unit --------------------------------------------------------------------------------------------------------------

/-- G of R423. -/
def gzG (L : Nat) : Nat := ceilDiv (L + 1) 4
/-- T_M of R423. -/
def gzTM (L : Nat) : Nat := 2 + (L + 1) * gzG L

/-- NO_MODULUS (R425). -/
def Comp.noMod (c : Comp) : Option SkFault := if c.slot.mod.isNone then some .noModulus else none

/-- An instruction D := g A B on elements of segment `k`; A and B are read where given (R412, R423, R425). -/
def Comp.glaze (c : Comp) (k d : Nat) (a b : Option Nat) (g : Nat → Nat → Nat) : SkRes :=
  let ra := a.bind (fun i => c.dualCheck k i false)
  let rb := b.bind (fun i => c.dualCheck k i false)
  let va := match a with | some i => c.elem k i | none => some 0
  let vb := match b with | some i => c.elem k i | none => some 0
  let mix := if va.isNone ∨ vb.isNone then some SkFault.slotMix else none
  .unless (firstFault (firstFault ra rb) (firstFault (c.dualCheck k d true) (firstFault c.noMod mix)))
    (.next (c.landAll.setElem k d (g (va.getD 0) (vb.getD 0) % c.modulus)))

/-- GZ_SETMOD's effect once its work is done (R424). -/
def Comp.setMod (c : Comp) (lmax : Nat) (slot : Bool) : SkRes :=
  let L := (c.top 0).toNat
  let a := c.top 1
  let old := if slot then c.slot1 else c.slot0
  let bad := L = 0 ∨ lmax < L
  .unless (firstFault (c.depthCheck 2 0) (if bad then none else c.addrCheck a L false))
    (let (k, off) := (addrWord a).getD (0, 0)
     let m := fieldLE (c.segs.getD k {}).bytes (8 * off) (8 * L)
     let unset := bad ∨ m % 2 = 0 ∨ m / 2 ^ (64 * (L - 1)) = 0
     let c := { c.landAll with stack := c.stack.drop 2
                               flags := mkFlags (fZ c.flags) (fN c.flags) (decide unset) (fV c.flags) }
     .next (c.setSlot slot { mod := if unset then none else some (L, m), load := old.load + 1 }))

/-- GZ_CURVE (R424): `v` is the field prime or order of the entry with its limb count. -/
def Comp.gzCurve (c : Comp) (lmax : Nat) (slot : Bool) (v : Nat → Option (Nat × Nat)) : SkRes :=
  let i := (c.top 0).toNat
  let old := if slot then c.slot1 else c.slot0
  let cv := if i < 32 then v i else none
  .unless (firstFault (c.depthCheck 1 0) (if cv.isNone then some .curveAbsent else none))
    (let (L, m) := cv.getD (0, 0)
     let unset := lmax < L
     let c := { c.landAll with stack := c.stack.drop 1
                               flags := mkFlags (fZ c.flags) (fN c.flags) (decide unset) (fV c.flags) }
     .next (c.setSlot slot { mod := if unset then none else some (L, m), load := old.load + 1 }))

/-- GZ_IN (R426). -/
def Comp.gzIn (c : Comp) (k d : Nat) : SkRes :=
  .unless (firstFault (c.depthCheck 1 0) (firstFault (c.addrCheck (c.top 0) c.slotL false)
      (firstFault (c.dualCheck k d true) c.noMod)))
    (let (ks, off) := (addrWord (c.top 0)).getD (0, 0)
     let v := fieldLE (c.segs.getD ks {}).bytes (8 * off) (8 * c.slotL)
     let big := decide (c.modulus ≤ v)
     let c := { c.landAll with stack := c.stack.drop 1, flags := mkFlags (v == 0) (fN c.flags) big (fV c.flags) }
     .next (if big then c else c.setElem k d v))

/-- GZ_OUT on agreeing slices (R427). -/
def Comp.gzOut (c : Comp) (k a : Nat) : SkRes :=
  .unless (firstFault (c.depthCheck 1 0) (firstFault (c.addrCheck (c.top 0) c.slotL true)
      (firstFault (c.dualCheck k a false) (firstFault c.noMod (if (c.elem k a).isNone then some .slotMix else none)))))
    (let (ks, off) := (addrWord (c.top 0)).getD (0, 0)
     let v := (c.elem k a).getD 0
     let L := c.slotL
     .next ({ c.landAll with stack := c.stack.drop 1 }.putBytes ks off (natLE (8 * L) v)))

/-- GZ_CMP on agreeing slices (R426). -/
def Comp.gzCmp (c : Comp) (k a b : Nat) : SkRes :=
  .unless (firstFault (firstFault (c.dualCheck k a false) (c.dualCheck k b false))
      (firstFault c.noMod (if (c.elem k a).isNone ∨ (c.elem k b).isNone then some .slotMix else none)))
    (let x := (c.elem k a).getD 0
     let y := (c.elem k b).getD 0
     .next { c.landAll with flags := mkFlags (x == y) (fN c.flags) (decide (x < y)) (fV c.flags) })

/-- GZ_INV once its work is done (R426). -/
def Comp.gzInv (c : Comp) (k d a : Nat) : SkRes :=
  .unless (firstFault (firstFault (c.dualCheck k a false) (c.dualCheck k d true))
      (firstFault c.noMod (if (c.elem k a).isNone then some .slotMix else none)))
    (let x := (c.elem k a).getD 0
     match (if x = 0 then none else modInv x c.modulus) with
     | none => .next { c.landAll with flags := mkFlags (fZ c.flags) (fN c.flags) true (fV c.flags) }
     | some v => .next ({ c.landAll with flags := mkFlags (fZ c.flags) (fN c.flags) false (fV c.flags) }.setElem k d v))

/-- COPY in rising limb order, each limb read before it is written (R418). -/
def copyF (ks offS kd offD : Nat) : Nat → Comp → Comp
  | 0, c => c
  | n + 1, c => copyF ks (offS + 1) kd (offD + 1) n (c.putBytes kd offD (natLE 8 (c.limb ks offS).toNat))

/-- COPY ( src dst n -- ). -/
def Comp.copy (c : Comp) : SkRes :=
  let n := (c.top 0).toNat
  let d := c.top 1
  let s := c.top 2
  .unless (firstFault (c.depthCheck 3 0) (if n = 0 then none else firstFault (c.addrCheck s n false) (c.addrCheck d n true)))
    (let (ks, os) := (addrWord s).getD (0, 0)
     let (kd, od) := (addrWord d).getD (0, 0)
     .next { (copyF ks os kd od n c) with stack := c.stack.drop 3 })

/-- Cost of the checkpoint (R433): T_M + 4 for each written element, 4 for one never written. -/
def Comp.ckptCost (c : Comp) (e : LibEntry) : Nat :=
  let s := c.segs.getD e.ckpt {}
  (List.range e.ckptN).foldl (fun n i =>
    match s.elems.find? (fun x => decide (0 < x.len) && x.start == x.len * i) with
    | some x => n + gzTM (x.len / 8 - 1) + 4
    | none => n + 4) 0

/-- RDSR (R419). -/
def Comp.special (c : Comp) (v : SkEnv) (sr : Nat) : Limb :=
  match sr with
  | 0 => BitVec.ofNat 64 c.flags.toNat
  | 1 => BitVec.ofNat 64 v.arg
  | 2 => BitVec.ofNat 64 v.inlen
  | 3 => BitVec.ofNat 64 v.fn
  | 4 => BitVec.ofNat 64 c.run
  | 5 => BitVec.ofNat 64 c.total
  | _ => BitVec.ofNat 64 c.slotL

/-- A computation's state at its start (R402, R410). -/
def Comp.start (id f attempt : Nat) (ent : Nat) (b : Bytes) (input : Bytes) : Comp :=
  let e := LibEntry.of b
  let segs := (List.range 16).map (libSeg b)
  let s0 := segs.getD 0 {}
  { id := id, f := f, entry := some ent, attempt := attempt, pages := e.pages, pc := e.start
    segs := segs.set 0 { s0 with bytes := slice input 0 s0.size } }

end Sys2Proof.Machine
end

