-- ==== Sys2Proof/Machine/Verify.lean ====
section
/-! DEFINITION. The verification operations of the easels (R354-R396, R445-R446): descriptor checks, records, check
phases and verdicts. -/
namespace Sys2Proof.Machine

/-- PARAM bits 14 to 8 of R356. -/
def dBE (d : Bytes) : Bool := dPbit d 14
/-- ANCHOR. -/
def dAnchor (d : Bytes) : Bool := (dOp d == 0x60 || dOp d == 0x61) && dPbit d 13
/-- SHARED. -/
def dShared (d : Bytes) : Bool := dPbit d 13
/-- CURVE or INDEX. -/
def dCurve (d : Bytes) : Nat := fld (dCtrl d) 12 8
/-- HALG of an RSA operation. -/
def dRsaHalg (d : Bytes) : Nat := fld (dCtrl d) 11 8
/-- FUNC of MODEXP_PUBLIC. -/
def dFunc (d : Bytes) : Nat := fld (dCtrl d) 9 8

/-- PARAM bits that R356 gives an operation. -/
def easelMask (op : Nat) : Nat :=
  if op = 0x60 then 0x7F else if op = 0x61 ∨ op = 0x62 then 0x3F else if op = 0x63 ∨ op = 0x64 then 0x4F
  else if op = 0x65 then 0x40 else if op = 0x66 then 0x43 else if op = 0x67 then 0x5F else if op = 0x68 then 0x1F else 0

/-- The operation names a curve entry. -/
def opCurve (op : Nat) : Bool := op == 0x60 || op == 0x61 || op == 0x62 || op == 0x67

/-- Curve kinds that an operation takes (R364). -/
def kindOk (op kind : Nat) : Bool :=
  if op = 0x60 then kind == 1 else if op = 0x61 then kind == 2 || kind == 3 else if op = 0x62 then kind == 2 else true

/-- Bytes of a value of `b` bits in the form of BE (R357). -/
def bnSize (be : Bool) (b : Nat) : Nat := if be then ceilDiv b 8 else 8 * ceilDiv b 64

/-- Read a big number (R357). -/
def bnGet (be : Bool) (r : Bytes) (off n : Nat) : Nat := if be then beNat (slice r off n) else leNat (slice r off n)

/-- A big number in the form of BE. -/
def bnPut (be : Bool) (n v : Nat) : Bytes := if be then natBE n v else natLE n v

/-- Dispatcher checks of R364 and R446 on PARAM, LENGTH and AUX_LENGTH, the curve and the anchor: the request is
rejected. `cv` is the named curve's entry, `anchor` the named anchor's entry. -/
def easelReject (f : Nat) (d : Bytes) (cv anchor : Option Bytes) : Bool :=
  let op := dOp d
  let len := dLen d
  let aux := dAuxLen d
  let halg := Halg.ofCode (dRsaHalg d)
  dPbit d 15 || Nat.land (dParam d) (0xFF - easelMask op) != 0
  || ((op == 0x63 || op == 0x64) && decide (4 < dRsaHalg d)) || (op == 0x66 && dFunc d == 3)
  || (if op = 0x60 then len == 0 || decide (64 < len)
      else if op = 0x63 ∨ op = 0x64 then (match halg with | some a => len != a.digest | none => true)
      else if op = 0x68 then len != 448 else len != 0)
  || (if dAnchor d then decide (15 < aux) else if op = 0x62 then aux == 0 || decide (256 < aux) else aux != 0)
  || (opCurve op && (match cv with | some e => !kindOk op (Curve.of e).kind | none => true))
  || (dAnchor d && (f != 16 || (match anchor with | some a => fieldLE a 1 1 != dCurve d | none => true)))

/-- Dispatcher checks of SKETCH_CALL (R445, R446): the library entry's index, or rejection. -/
def sketchEntry (lib : Bytes) (f : Nat) (d : Bytes) : Option Nat :=
  let iv := dIv d
  match libFind lib (fieldLE iv 0 2) with
  | none => none
  | some i =>
    let e := LibEntry.of (libEntryB lib i)
    if dParam d ≠ 0 ∨ fieldLE iv 0 2 < 0x100 ∨ e.fnMask / 2 ^ f % 2 ≠ 1 ∨ e.inMax < dLen d ∨ dAuxLen d ≠ 0
      ∨ fieldLE iv 2 6 ≠ 0 then none else some i

/-- Bytes of the record at AUX (R358-R363); `head` is its first 16 bytes where an RSA or arithmetic record gives its own
size. A size out of range reads the header only. -/
def recordSize (d : Bytes) (cv : Curve) (head : Bytes) : Nat :=
  let op := dOp d
  let be := dBE d
  let ep := bnSize be cv.pbits
  let en := bnSize be cv.nbits
  if op = 0x60 then (if dAnchor d then 2 * en else 2 * ep + 2 * en)
  else if op = 0x61 then (if cv.kind = 2 then 160 else 312) - (if dAnchor d then edSlot cv else 0)
  else if op = 0x62 then (if dShared d then 32 + 128 * dAuxLen d else 160 * dAuxLen d)
  else if op = 0x63 ∨ op = 0x64 ∨ op = 0x65 then
    (let k := fieldLE head 0 2
     if k < 1024 ∨ 8192 < k then 16 else 16 + 2 * bnSize be k)
  else if op = 0x66 then
    (let m := fieldLE head 0 2
     let e := fieldLE head 2 2
     if m < 2 ∨ 8192 < m ∨ 8192 < e then 16
     else 16 + 2 * bnSize be m + (if dFunc d = 1 then bnSize be m else if dFunc d = 0 then bnSize be e else 0))
  else if op = 0x67 then (if cv.kind = 1 then 2 * ep else edSlot cv)
  else 0

/-- The record's size is in its first 16 bytes. -/
def opHeadFirst (op : Nat) : Bool := op == 0x63 || op == 0x64 || op == 0x65 || op == 0x66

/-- Canvas pages of a computation in KiB (R385). -/
def pagesOf (d : Bytes) (cv : Curve) (rec_ : Bytes) : Nat :=
  let op := dOp d
  let w := if cv.pbits ≤ 256 then 4 else if cv.pbits ≤ 384 then 6 else 8
  if op = 0x60 then w
  else if op = 0x61 ∨ op = 0x67 then (if cv.kind = 1 then w else if cv.kind = 2 then 4 else 8)
  else if op = 0x62 then (if dAuxLen d ≤ 64 then 24 else 56)
  else if op = 0x68 then 8
  else 2 + 4 * ceilDiv (min 8192 (fieldLE rec_ 0 2)) 1024

/-- INPUT_REJECT after a check phase (R366). -/
def rejected : Finish := { status := stInputReject }

/-- OK or VERIFY_FAIL. -/
def verdict (ok : Bool) (detail : Nat := 0) : Finish := { status := if ok then stOk else stVerifyFail, detail := detail }

/-- The slot of an EdDSA field holds only the encoding and zeros. -/
def slotPadOk (c : Curve) (b : Bytes) : Bool := allZero (b.drop (edLen c))

/-- ECDSA_VERIFY (R358, R365, R368). -/
def runEcdsa (d : Bytes) (c : Curve) (anchor src rec_ : Bytes) : Finish :=
  let be := dBE d
  let ep := bnSize be c.pbits
  let en := bnSize be c.nbits
  let an := dAnchor d
  let qx := if an then fieldLE anchor 0x10 72 else bnGet be rec_ 0 ep
  let qy := if an then fieldLE anchor 0x58 72 else bnGet be rec_ ep ep
  let o := if an then 0 else 2 * ep
  let r := bnGet be rec_ o en
  let s := bnGet be rec_ (o + en) en
  if r = 0 ∨ c.n ≤ r ∨ s = 0 ∨ c.n ≤ s ∨ ¬ wKeyOk c qx qy then rejected else verdict (ecdsaVerify c src qx qy r s)

/-- The EdDSA fields of one record from offset `o` of R: R, S and K after their checks (R359, R365). -/
def edFields (c : Curve) (rec_ : Bytes) (o : Nat) : Option ((Nat × Nat) × Nat × Nat) :=
  let sl := edSlot c
  let kl := if c.kind = 2 then 64 else 120
  let kb := if c.kind = 2 then 64 else 114
  let rb := slice rec_ o sl
  let sb := slice rec_ (o + sl) sl
  let k := slice rec_ (o + 2 * sl) kl
  if ¬ slotPadOk c rb ∨ ¬ slotPadOk c sb ∨ ¬ allZero (k.drop kb) ∨ c.n ≤ leNat sb then none
  else (edDecode c (rb.take (edLen c))).map (fun r => (r, leNat sb, leNat (k.take kb)))

/-- EDDSA_VERIFY (R359, R365, R369). -/
def runEddsa (d : Bytes) (c : Curve) (anchor rec_ : Bytes) : Finish :=
  let sl := edSlot c
  let ab := if dAnchor d then slice anchor 0x10 sl else slice rec_ 0 sl
  match edKey c (ab.take (edLen c)), edFields c rec_ (if dAnchor d then 0 else sl) with
  | some a, some (r, s, k) => if slotPadOk c ab then verdict (edVerify c a r s k) else rejected
  | _, _ => rejected

/-- The bitmap of indices (R366, R379): 32 bytes. -/
def bitmapOf (l : List Nat) : Bytes := natLE 32 (l.foldl (fun n i => Nat.lor n (2 ^ i)) 0)

/-- The records of a batch after their checks (R360, R365); `zs` are the randomisers' bytes. -/
def batchRecs (d : Bytes) (rec_ zs : Bytes) : List (Option BatchRec) :=
  let n := dAuxLen d
  let keyAt := fun (i : Nat) => if dShared d then slice rec_ 0 32 else slice rec_ (160 * i) 32
  let fieldsAt := fun (i : Nat) => edFields ed25519 rec_ (if dShared d then 32 + 128 * i else 160 * i + 32)
  let keys := if dShared d then (List.range n).map (fun _ => edKey ed25519 (keyAt 0)) else (List.range n).map (fun i => edKey ed25519 (keyAt i))
  (List.range n).map (fun i => match keys.getD i none, fieldsAt i with
    | some a, some (r, s, k) => some ({ a := a, r := r, s := s, k := k, z := fieldLE zs (16 * i) 16 } : BatchRec)
    | _, _ => none)

/-- Record `i` of those that passed. -/
def batchGet (l : List (Option BatchRec)) (i : Nat) : BatchRec := (l.getD i none).getD ⟨(0, 1), (0, 1), 0, 0, 0⟩

/-- EDDSA_BATCH (R360, R365, R366, R376-R379); `zs` are the randomisers' bytes. -/
def runBatch (d : Bytes) (rec_ zs : Bytes) : Finish :=
  let n := dAuxLen d
  if dShared d ∧ (edKey ed25519 (slice rec_ 0 32)).isNone then { status := stInputReject, result := bitmapOf (List.range n) } else
  let recs := batchRecs d rec_ zs
  let bad := (List.range n).filter (fun i => (recs.getD i none).isNone)
  match bad with
  | i :: _ => { status := stInputReject, detail := i, result := bitmapOf bad }
  | [] =>
    let get := batchGet recs
    let fails := bisect get (n + 1) false (List.range n)
    let ok := (List.range n).filter (fun i => !fails.contains i)
    if fails = [] then { result := bitmapOf ok }
    else if n = 1 then { status := stVerifyFail }
    else { status := stPartialBatch, detail := fails.length, result := bitmapOf ok }

/-- The RSA record's numbers: KBITS, SLEN, E, n, s. -/
def rsaParts (be : Bool) (r : Bytes) : Nat × Nat × Nat × Nat × Nat :=
  let kb := fieldLE r 0 2
  let K := bnSize be kb
  (kb, fieldLE r 2 2, fieldLE r 8 8, bnGet be r 16 K, bnGet be r (16 + K) K)

/-- Check phase of the RSA operations (R365). -/
def rsaOk (d : Bytes) (reject2k : Bool) (r : Bytes) : Bool :=
  let (kb, sl, e, n, s) := rsaParts (dBE d) r
  let op := dOp d
  let D := ((Halg.ofCode (dRsaHalg d)).map Halg.digest).getD 0
  decide (1024 ≤ kb) && decide (kb ≤ 8192) && fieldLE r 4 4 == 0 && bitLen n == kb && n % 2 == 1 && decide (s < n)
  && e % 2 == 1 && decide (3 ≤ e) && decide (e ≤ 2 ^ 32 + 1)
  && (if op = 0x63 then decide (sl + D + 2 ≤ ceilDiv (kb - 1) 8) else sl == 0)
  && (!reject2k || decide (2048 ≤ kb))

/-- The request's modulus is legacy (R372). -/
def rsaLegacy (d : Bytes) (r : Bytes) : Bool := 0x63 ≤ dOp d && dOp d ≤ 0x65 && decide (fieldLE r 0 2 < 2048)

/-- RSA_VERIFY_PSS (R370, R372). -/
def runPss (d : Bytes) (reject2k : Bool) (src rec_ : Bytes) : Finish :=
  if ¬ rsaOk d reject2k rec_ then rejected else
  let (kb, sl, e, n, s) := rsaParts (dBE d) rec_
  let a := (Halg.ofCode (dRsaHalg d)).getD .sha256
  verdict (pssVerify a src (modPow s e n) (kb - 1) sl) (if rsaLegacy d rec_ then 1 else 0)

/-- RSA_VERIFY_PKCS1 (R371, R372). -/
def runPkcs1 (d : Bytes) (reject2k : Bool) (src rec_ : Bytes) : Finish :=
  if ¬ rsaOk d reject2k rec_ then rejected else
  let (kb, _, e, n, s) := rsaParts (dBE d) rec_
  let a := (Halg.ofCode (dRsaHalg d)).getD .sha256
  let k := ceilDiv kb 8
  verdict (natBE k (modPow s e n) == pkcs1Encode a src k) (if rsaLegacy d rec_ then 1 else 0)

/-- RSA_PUBLIC (R372, R373). -/
def runRsaPublic (d : Bytes) (reject2k : Bool) (rec_ : Bytes) : Finish :=
  if ¬ rsaOk d reject2k rec_ then rejected else
  let (kb, _, e, n, s) := rsaParts (dBE d) rec_
  { dst := bnPut (dBE d) (bnSize (dBE d) kb) (modPow s e n), detail := if rsaLegacy d rec_ then 1 else 0 }

/-- MODEXP_PUBLIC (R362, R365, R374). -/
def runModexp (d : Bytes) (rec_ : Bytes) : Finish :=
  let be := dBE d
  let mb := fieldLE rec_ 0 2
  let eb := fieldLE rec_ 2 2
  let f := dFunc d
  let M := bnSize be mb
  let m := bnGet be rec_ 16 M
  let a := bnGet be rec_ (16 + M) M
  let bs := if f = 0 then bnSize be eb else M
  let b := bnGet be rec_ (16 + 2 * M) bs
  let ok := 2 ≤ mb ∧ mb ≤ 8192 ∧ allZero (slice rec_ 4 12) ∧ m % 2 = 1 ∧ bitLen m = mb ∧ a < m
    ∧ (if f = 0 then 1 ≤ eb ∧ eb ≤ 8192 ∧ bitLen b ≤ eb else eb = 0) ∧ (f = 1 → b < m) ∧ (f = 2 → a ≠ 0)
  if ¬ ok then rejected
  else if f = 0 then { dst := bnPut be M (modPow a b m) }
  else if f = 1 then { dst := bnPut be M (a * b % m) }
  else match modInv a m with
    | some v => { dst := bnPut be M v }
    | none => rejected

/-- POINT_CHECK (R363, R375). -/
def runPoint (d : Bytes) (c : Curve) (rec_ : Bytes) : Finish :=
  if c.kind = 1 then
    (let ep := bnSize (dBE d) c.pbits
     if wKeyOk c (bnGet (dBE d) rec_ 0 ep) (bnGet (dBE d) rec_ ep ep) then {} else rejected)
  else if slotPadOk c (slice rec_ 0 (edSlot c)) ∧ (edKey c (slice rec_ 0 (edLen c))).isSome then {} else rejected

-- the independent check (R383, R384) -----------------------------------------------------------------------------------------------

/-- The independent check of an operation agrees with its verdict or result (R384). A batch whose second randomisers were not drawn,
since its easel entered recovery mode afterwards, uses the first again (DESIGN CHOICE, log entry 8); an inverse that does not exist
leaves MODEXP MUL without a check (the same). -/
def independent (d : Bytes) (c : Curve) (anchor src rec_ got : Bytes) (x : Finish) : Bool :=
  let be := dBE d
  if x.status = stInputReject then
    dOp d ≠ 0x67 || !(if c.kind = 1 then
        let ep := bnSize be c.pbits
        let (px, py) := (bnGet be rec_ 0 ep, bnGet be rec_ ep ep)
        decide (px < c.p) && decide (py < c.p) && wOnProj c px py && (c.h ≤ 1 || (wMul c c.n (some (px, py))).isNone)
      else slotPadOk c (slice rec_ 0 (edSlot c)) && (match edDecode c (slice rec_ 0 (edLen c)) with
        | some q => q != (0, 1) && eOnProj c q && eMul c c.n q == (0, 1)
        | none => false))
  else match dOp d with
  | 0x60 =>
    let ep := bnSize be c.pbits
    let en := bnSize be c.nbits
    let o := if dAnchor d then 0 else 2 * ep
    ecdsaCheck c src (if dAnchor d then fieldLE anchor 0x10 72 else bnGet be rec_ 0 ep)
      (if dAnchor d then fieldLE anchor 0x58 72 else bnGet be rec_ ep ep) (bnGet be rec_ o en) (bnGet be rec_ (o + en) en)
  | 0x61 =>
    let sl := edSlot c
    (match edKey c ((if dAnchor d then slice anchor 0x10 sl else slice rec_ 0 sl).take (edLen c)), edFields c rec_ (if dAnchor d then 0 else sl) with
     | some a, some (r, s, k) => edCheck c a r s k == (x.status == stOk)
     | _, _ => true)
  | 0x62 =>
    let n := dAuxLen d
    bisectAgree (batchGet (batchRecs d rec_ got)) (batchGet (batchRecs d rec_ (if 32 * n ≤ got.length then got.drop (16 * n) else got)))
      (n + 1) false (List.range n)
  | 0x66 =>
    let M := bnSize be (fieldLE rec_ 0 2)
    let m := bnGet be rec_ 16 M
    let a := bnGet be rec_ (16 + M) M
    let y := if be then beNat x.dst else leNat x.dst
    if dFunc d = 0 then
      (let b := bnGet be rec_ (16 + 2 * M) (bnSize be (fieldLE rec_ 2 2))
       b == 0 || modPow a (b - 1) m * a % m == y)
    else if dFunc d = 1 then (match modInv (bnGet be rec_ (16 + 2 * M) M) m with | some v => y * v % m == a | none => true)
    else a * y % m == 1
  | 0x67 =>
    if c.kind = 1 then
      (let ep := bnSize be c.pbits
       wOnProj c (bnGet be rec_ 0 ep) (bnGet be rec_ ep ep))
    else (match edDecode c (slice rec_ 0 (edLen c)) with | some q => eOnProj c q | none => false)
  | _ =>
    if dOp d = 0x63 ∨ dOp d = 0x64 ∨ dOp d = 0x65 then
      (let (_, _, e, n, s) := rsaParts be rec_
       modPow s (e - 1) n * s % n == modPow s e n)
    else true

/-- The key checks of R365 on a boot anchor (R395). -/
def anchorKeyOk (c : Curve) (a : Bytes) : Bool :=
  if c.kind = 1 then wKeyOk c (fieldLE a 0x10 72) (fieldLE a 0x58 72)
  else allZero (slice a (0x10 + edLen c) (72 - edLen c)) && fieldLE a 0x58 72 == 0 && (edKey c (slice a 0x10 (edLen c))).isSome

/-- The curve section (R390, R392). -/
def curveSectionOk (t : Bytes) : Bool :=
  let n := fieldLE t 2 2
  let used := 16 + 448 * n
  fieldLE t 0 2 == 1 && 1 ≤ n && n ≤ 32 && fieldLE t 4 12 == 0 && decide (used ≤ t.length) && decide (t.length < used + 16)
  && t.length % 16 == 0 && allZero (t.drop used)
  && (List.range n).all (fun i => curveOk (slice t (16 + 448 * i) 448)
      && (List.range i).all (fun j => byteAt t (16 + 448 * j) != byteAt t (16 + 448 * i)))

/-- Entries of a section: place `i` of `n` bytes after the 16-byte header. -/
def sectionEntries (t : Bytes) (n : Nat) : List Bytes := (List.range (fieldLE t 2 2)).map (fun i => slice t (16 + n * i) n)

/-- The boot anchors section against the curve section (R395). -/
def anchorSectionOk (t curves : Bytes) : Bool :=
  let n := fieldLE t 2 2
  let used := 16 + 160 * n
  fieldLE t 0 2 == 1 && 1 ≤ n && n ≤ 16 && fieldLE t 4 12 == 0 && decide (used ≤ t.length) && decide (t.length < used + 16)
  && t.length % 16 == 0 && allZero (t.drop used)
  && (sectionEntries t 160).all (fun a => decide (fieldLE a 0 1 < 16) && fieldLE a 2 14 == 0 &&
      (match (sectionEntries curves 448).find? (fun e => fieldLE e 0 1 == fieldLE a 1 1) with
       | some e => anchorKeyOk (Curve.of e) a
       | none => false))
  && (List.range n).all (fun i => (List.range i).all (fun j => byteAt t (16 + 160 * j) != byteAt t (16 + 160 * i)))

end Sys2Proof.Machine
end

