-- ==== Sys2Proof/Machine/Flow.lean ====
section
/-! DEFINITION. What happens to an admitted request before its first stroke or computation: fragment walk (R163-R165),
descriptor checks, staging (R364), context (R235, R236), parameters, keys, sizes, expected tags, inbound heads (R341),
draws (R242), entropy. -/
namespace Sys2Proof.Machine

/-- Go on with the next part of a preparation. -/
def Prep.bind {α β : Type} (x : Prep α) (k : State → α → Prep β) : Prep β :=
  match x with
  | .go s a => k s a
  | .wait s => .wait s
  | .stop s => .stop s

/-- Go on with the request as the state holds it now. -/
def State.withReq {β : Type} (s : State) (id : Nat) (k : Req → Prep β) : Prep β :=
  match s.req id with
  | some r => k r
  | none => .stop s

-- lists ------------------------------------------------------------------------------------------------------------------

/-- The entry after the one at `a`. -/
def fragNext (a : Nat) : Nat := (a + 16) % 2 ^ 64

/-- What the walk of a list yields: its segments, or a halt cause with its address. -/
abbrev Walk := Except (Nat × Nat) (List (Nat × Nat))

/-- Walk a fragment list (R163), entry by entry, to its LAST entry or until `upto` bytes are covered. The fuel bounds
the entries read. -/
def State.walkF : Nat → State → Req → Nat → List (Nat × Nat) → Nat → Option Nat → Prep Walk
  | 0, s, _, _, _, _, _ => .go s (.error (4, 0))
  | fuel + 1, s, r, a, acc, tot, upto =>
    if (match upto with | some n => decide (n ≤ tot) | none => false) then .go s (.ok acc.reverse)
    else if a % 16 ≠ 0 then .go s (.error (4, 0))
    else match s.winFail r.f a 16 false with
      | some bad => .go s (.error (7, bad))
      | none => (s.want r a 16 r.f).bind fun s b =>
        match fragOf b with
        | .bad c => .go s (.error (c, 0))
        | .link x => walkF fuel s r x acc tot upto
        | .data x l last =>
          if last then .go s (.ok ((x, l) :: acc).reverse) else walkF fuel s r (fragNext a) ((x, l) :: acc) (tot + l) upto

/-- Walk a list from its first table: 2^20 entries may be read before the LAST entry (R163). -/
def State.walk (s : State) (r : Req) (a : Nat) (upto : Option Nat) : Prep Walk :=
  s.walkF (2 ^ 20 + 1) r a [] 0 upto

/-- Both lists of a request are walked before a cause is recorded, and the first of STRUCTURE, FRAGMENT, LENGTH and WINDOW is (R156). -/
def State.walkBoth (s : State) (r : Req) (src dst : State → Prep Walk) : Prep (List (Nat × Nat) × List (Nat × Nat)) :=
  (src s).bind fun s a =>
    let s := match a with
      | .error e => s.setReq { r with found := some e.1 }
      | .ok _ => s
    (dst s).bind fun s b =>
      match a, b with
      | .ok x, .ok y => .go s (x, y)
      | .ok _, .error e => .stop (s.haltReq r e.1 e.2)
      | .error e, .ok _ => .stop (s.haltReq r e.1 e.2)
      | .error e, .error e' => if e'.1 < e.1 then .stop (s.haltReq r e'.1 e'.2) else .stop (s.haltReq r e.1 e.2)

/-- The destination of an operation that writes one range. -/
def wholeDst (d : Bytes) : List (Nat × Nat) := [(dDst d, 2 ^ 33)]

/-- The source list with its sum (R164). -/
def State.walkSrc (s : State) (r : Req) : Prep Walk :=
  if ¬ opUsesSrc (dOp r.d) then .go s (.ok [])
  else if ¬ dFragSrc r.d then .go s (.ok [(dSrc r.d, srcSize r.d)])
  else (s.walk r (dSrc r.d) none).bind fun s l =>
    match l with
    | .ok l => .go s (if segTotal l = srcSize r.d then .ok l else .error (5, 0))
    | .error e => .go s (.error e)

/-- The destination list. -/
def State.walkDst (s : State) (r : Req) : Prep Walk :=
  if ¬ opUsesDst r.d then .go s (.ok []) else if ¬ dFragDst r.d then .go s (.ok (wholeDst r.d)) else s.walk r (dDst r.d) none

/-- Both lists are walked in full before the first stroke (R164, R165). -/
def State.prepLists (s : State) (r : Req) : Prep Unit :=
  (s.walkBoth r (fun s => s.walkSrc r) (fun s => s.walkDst r)).bind fun s l => .go (s.setReq { r with segsS := l.1, segsD := l.2 }) ()

/-- Bytes of a list of segments, read for a request under its function's tag. -/
def State.wantSegs (s : State) (r : Req) : List (Nat × Nat) → Bytes → Prep Bytes
  | [], acc => .go s acc
  | (a, l) :: t, acc => (s.want r a l r.f).bind fun s b => s.wantSegs r t (acc ++ b)

/-- Bytes of a part of the source. -/
def State.wantSrc (s : State) (r : Req) (off len : Nat) : Prep Bytes := s.wantSegs r (segSlice r.segsS off len) []

-- descriptor checks --------------------------------------------------------------------------------------------------------

/-- Entry of the curve table with an INDEX. -/
def State.curve (s : State) (i : Nat) : Option Bytes :=
  let e := tget (fun _ => []) s.tables.curves i
  if e = [] then none else some e

/-- Boot anchor with an INDEX. -/
def State.anchor (s : State) (i : Nat) : Option Bytes :=
  let e := tget (fun _ => []) s.tables.anchors i
  if e = [] then none else some e

/-- Requests admitted before `r` that are neither complete nor abandoned. -/
def State.earlier (s : State) (r : Req) : List Req :=
  s.reqs.filter (fun q => q.id != r.id && decide (q.adm < r.adm) && q.notComplete)

/-- R394, R447: no earlier request whose curve entry stands in the way. -/
def State.loadFree (s : State) (r : Req) : Bool :=
  let op := dOp r.d
  (s.earlier r).all (fun q =>
    let o := dOp q.d
    let same := dCurve q.d == dCurve r.d
    if op = 0x68 then o != 0x6F && !((opCurve o || o == 0x68) && same)
    else if opCurve op then !(o == 0x68 && same)
    else if op = 0x6F then o != 0x68 else true)

/-- The first checks of an operation, which need only its descriptor and the tables in use. -/
def State.prepCheck (s : State) (r : Req) : Prep Unit :=
  let d := r.d
  let op := dOp d
  let format := fun (x : Option Nat) => match x with
    | some det => Prep.stop (s.fail r stFormatMismatch det)
    | none => .go s ()
  if opTransform op then format (if dParam d = 0 then none else some 0x0004)
  else if opLane op then format (laneCheck d)
  else if opDigest op then format (digPre d)
  else if opCtx op then format (ctxOpCheck d)
  else if op = 0x70 then format (fillCheck d)
  else if ¬ opEasel op then .go s ()
  else if ¬ s.loadFree r then .wait s
  else if op = 0x6F then
    (if (sketchEntry s.tables.library r.f d).isSome then .go s () else .stop (s.fail r stInputReject 0))
  else if easelReject r.f d (s.curve (dCurve d)) (s.anchor (dAuxLen d)) then .stop (s.fail r stInputReject 0)
  else .go s ()

/-- The curve that an easel operation names; edwards25519 for a batch, which names none of another kind. -/
def State.curveOf (s : State) (d : Bytes) : Curve := Curve.of ((s.curve (dCurve d)).getD [])

/-- Bytes of the staging buffer that requests other than `r` take: their inputs stay there until their first grant (R364). -/
def State.stagingUsed (s : State) (r : Req) : Nat :=
  ((s.reqs.filter (fun q => q.id != r.id && (q.stage == .checking || q.stage == .ready))).map (·.staging)).foldl (· + ·) 0

/-- Room for `n` bytes in the staging buffer of 64 KiB (R364): a request waits for it. Which of several waiting requests takes room
that becomes free is not stated; here the first admitted that fits does (DESIGN CHOICE, log entry 51). -/
def State.stage (s : State) (r : Req) (n : Nat) : Prep Req :=
  if s.stagingUsed r + n ≤ 0x10000 then .go (s.setReq { r with staging := n }) { r with staging := n } else .wait s

/-- The record at AUX and the bytes at SRC are read into the staging buffer (R364). -/
def State.prepStage (s : State) (r : Req) : Prep Unit :=
  let d := r.d
  let op := dOp d
  if ¬ opEasel op then .go s ()
  else
    (s.stage r (max r.staging (if opHeadFirst op then 16 else 0))).bind fun s r =>
    (if opHeadFirst op then s.want r (dAux d) 16 r.f else .go s []).bind fun s head =>
    let n := if op = 0x68 ∨ op = 0x6F then 0 else recordSize d (s.curveOf d) head
    (s.stage r (n + dLen d)).bind fun s r =>
    (s.want r (dAux d) n r.f).bind fun s rec_ =>
    (s.wantSrc r 0 (dLen d)).bind fun s src =>
      .go (s.setReq { r with staged := rec_, param := src }) ()

-- context --------------------------------------------------------------------------------------------------------------------

/-- A stencil use from a context's clear KEY (R329, R337); none where the SID is absent. -/
def State.sxOf (s : State) (r : Req) (key : Bytes) : Option Sx :=
  let inb := dOp r.d == 0x51 || dOp r.d == 0x53
  let sf := fieldLE key 5 1
  (stnFind s.tables.stencils (fieldLE key 4 1)).map (fun st =>
    { st := st, inb := inb, steps := (st.list s.tables.stencils inb).filter (fun x => x.on (sf % 32)), ciph := sf / 64
      p := key.drop 8, arg := dAuxLen r.d, len := dLen r.d, fn := r.f
      tstat := if r.sealSync then 1 else 0, time := r.sealTime })

/-- The checks of R329, R327 and R330 on a stencil context: the DETAIL of FORMAT_MISMATCH, or none. -/
def State.stencilDetail (s : State) (r : Req) (hdr : Hdr) (key : Bytes) : Option Nat :=
  let op := dOp r.d
  let sf := fieldLE key 5 1
  let w := keyW key
  if hdr.alg ≠ (if op = 0x50 ∨ op = 0x51 then 0x1C else 0x1A) then some 0x0184
  else match s.sxOf r key with
  | none => some 0x0133
  | some x =>
    let st := x.st
    let listed := if op = 0x50 then nbit st.kind 0 else if op = 0x51 then nbit st.kind 1 else st.isSeal
    let cmode := if op = 0x50 then hdr.cmode == 1 else if op = 0x51 then hdr.cmode == (if st.implicit then 1 else 2) else hdr.cmode == 0
    let wUsed := op = 0x51 ∧ ¬ st.implicit
    if st.isSeal ≠ (hdr.alg == 0x1A) ∨ ¬ listed ∨ x.ciph = 3 ∨ ¬ nbit st.ciphs x.ciph then some 0x0133
    else if ¬ cmode then some 0x0184
    else if nbit sf 5 ∨ Nat.land (sf % 32) (31 - st.sfUsed % 32) ≠ 0 then some 0x0004
    else if (if wUsed then w % 8 ≠ 0 ∨ 1024 < w else w ≠ 0) then some 0x0004
    else if 40 * hdr.ext < w / 8 then some 0x0183
    else if x.steps.any (fun y => y.opc == 0x09) ∧ fieldLE key 2 2 = 0 then some 0x0004
    else none

/-- Bytes of extension area that an operation needs (R236, R244). -/
def extNeed (d : Bytes) (hdr : Hdr) : Nat :=
  match algHash hdr.alg with
  | none => 0
  | some a =>
    let states := if hdr.inline ∨ dOp d = 0x71 ∨ dOp d = 0x82 then inlineStates a else 0
    if opDigest (dOp d) then states + (if dStateful d then savedLen a else 0)
    else if dOp d = 0x71 ∨ (dOp d = 0x82 ∧ byteAt (dIv d) 0 = 1) then (if algHmac hdr.alg then states else 0)
    else 0

/-- The checks of an operation against its line (R236). -/
def State.lineDetail (s : State) (r : Req) (hdr : Hdr) (key : Bytes) : Option Nat :=
  let d := r.d
  let op := dOp d
  let ext := if 40 * hdr.ext < extNeed d hdr then some 0x0183 else none
  if opTransform op then s.stencilDetail r hdr key
  else if opLane op then
    (if ¬ laneAlg op hdr.alg ∨ (dIvCtx d ∧ hdr.cmode ≠ 1) then some 0x0184 else ext)
  else if opDigest op then
    (match (if algHmac hdr.alg then algHash hdr.alg else none) with
     | none => some 0x0184
     | some a => match digLens d a with
       | some det => some det
       | none => ext)
  else if op = 0x71 then
    (if ¬ algInline hdr.alg then some 0x0184 else ext)
  else if op = 0x82 ∧ byteAt (dIv d) 0 = 1 then (if ¬ algInline hdr.alg then some 0x0184 else ext)
  else none

/-- The checks of a context operation that depend on its line and follow R235 (R246): the DETAIL of FORMAT_MISMATCH, or none. -/
def ctxLate (d : Bytes) (hdr : Hdr) : Option Nat :=
  let op := dOp d
  if op = 0x71 then (if dPbit d 8 ∧ ¬ hdr.exp then some 0x0182 else none)
  else if op = 0x82 ∧ byteAt (dIv d) 0 ≠ 1 then
    (let b := fieldLE (dIv d) 6 2
     if algSlotB hdr.alg then (if slotOk b then none else some 0x0004)
     else if hdr.alg = 0x1C then (if b = 0 ∨ slotOk b then none else some 0x0004)
     else if b = 0 then none else some 0x0004)
  else if op = 0x83 then
    (if ¬ hdr.exp then some 0x0182 else if hdr.cmode ≠ 0 ∧ ¬ dPbit d 8 then some 0x0181 else none)
  else none

/-- The handle's turn (R247), the context with the checks on it, and the pin (R235-R237). A context operation takes its
lines from the cache or as read, without filling the cache (DEDUCED, log entry 22). -/
def State.prepCtx (s : State) (r : Req) : Prep Unit :=
  let d := r.d
  let op := dOp d
  if ¬ dUsesCtx d ∧ ¬ opCtx op then .go s ()
  else if ¬ s.handleFree r then .wait s
  else if op = 0x80 ∨ op = 0x84 ∨ (op = 0x86 ∧ dPbit d 8) then .go s ()
  else (s.lookup r).bind fun s l =>
    let key := s.lineKey l
    match s.lineDetail r l.hdr key with
    | some det => .stop (s.fail r stFormatMismatch det)
    | none =>
      let keep := fun (s : State) => s.setReq { r with hdr := l.hdr.toNat, ctxKey := key }
      if opCtx op then
        (match s.cached l.h with
         | some c => .go (keep (s.setCached { c with pins := r.id :: c.pins })) ()
         | none => .go (keep s) ())
      else (s.obtain r l).bind fun s _ => .go (keep s) ()

-- parameters and saved states ------------------------------------------------------------------------------------------------

/-- End with FORMAT_MISMATCH. -/
def State.mismatch {α : Type} (s : State) (r : Req) (det : Nat) : Prep α := .stop (s.fail r stFormatMismatch det)

/-- The parameter block of GCM and GMAC (R277). -/
def State.prepGcmBlock (s : State) (r : Req) : Prep Bytes :=
  (s.want r (dParamAddr r.d) 8 r.f).bind fun s b =>
    let n := fieldLE b 0 1
    if ¬ allZero (b.drop 1) then s.mismatch r 0x0004
    else if n = 0 ∨ 128 < n then s.mismatch r 0x0112
    else s.want r (dParamAddr r.d) (8 + n) r.f

/-- Bytes of the inner message of a combined request, the key block included (R287). -/
def innerLen (d : Bytes) (a : Halg) : Nat := a.block + dAuxLen d + (if dPbit d 8 then 16 else 0) + dLen d

/-- The parameter block of a combined request (R286, R287). -/
def State.prepCombined (s : State) (r : Req) : Prep Bytes :=
  let a := (algHash (Hdr.ofNat r.hdr).alg).getD .sha256
  (s.want r (dParamAddr r.d) 32 r.f).bind fun s b =>
    let t := fieldLE b 16 1
    let n := fieldLE b 17 1
    if ¬ allZero (b.drop 18) then s.mismatch r 0x0004
    else if t < 12 ∨ 32 < t ∨ a.digest < t then s.mismatch r 0x0113
    else if (if a.narrow then n < 9 ∨ 72 < n else n < 17 ∨ 144 < n) then s.mismatch r 0x0114
    else (s.want r (dParamAddr r.d) (32 + n) r.f).bind fun s b =>
      if b.drop 32 = a.pad2 (innerLen r.d a) then .go s b else s.mismatch r 0x0003

/-- The saved keyed state of a context (R315). -/
def State.savedState (s : State) (r : Req) (a : Halg) : Bytes :=
  let hdr := Hdr.ofNat r.hdr
  match s.cached (dCtx r.d) with
  | some l => slice l.pay (savedOff hdr.inline a) (savedLen a)
  | none => zeros (savedLen a)

/-- A change of the saved keyed state could not be written back (R233). -/
def State.savedStuck (s : State) (r : Req) : Bool :=
  match s.cached (dCtx r.d) with
  | some l => l.xmem.any (fun m => decide (versionMax ≤ (lineHdr m).version)) || decide (versionMax ≤ l.hdr.version)
  | none => false

/-- The saved keyed state of an HMAC request, in its turn (R316, R317, R233): reserved bits of CTRL first, as in the state record of R311
(R15; DEDUCED, log entry 53). -/
def State.prepSaved (s : State) (r : Req) : Prep Bytes :=
  let a := (algHash (Hdr.ofNat r.hdr).alg).getD .sha256
  if ¬ dStateful r.d then .go s []
  else if ¬ s.savedFree r then .wait s
  else
    let v := s.savedState r a
    if dCont r.d ∧ ¬ decide (fieldLE v (a.stateBytes + 8) 8 < 2) then s.mismatch r 0x0004
    else if dCont r.d ∧ ¬ (byteAt v (a.stateBytes + 8)).getLsbD 0 then s.mismatch r 0x0121
    else if s.savedStuck r then .stop (s.fail r stSeqExhausted 0)
    else .go s v

/-- The state record of a hash with CONT (R311). -/
def State.prepRecord (s : State) (r : Req) : Prep Bytes :=
  let a := (Halg.ofCode (dHalg r.d)).getD .sha256
  if ¬ dCont r.d then .go s [] else
  (s.want r (dAux r.d) (recordLen a) r.f).bind fun s b =>
    match recordCheck a b with
    | some det => s.mismatch r det
    | none => .go s b

/-- The parameter block, state record or saved keyed state, kept in `param`. -/
def State.prepParam (s : State) (r : Req) : Prep Unit :=
  let op := dOp r.d
  let p : Prep Bytes :=
    if 0x40 ≤ op ∧ op ≤ 0x42 then s.prepCombined r
    else if opLane op ∧ dPbit r.d 15 then s.prepGcmBlock r
    else if op = 0x30 ∨ op = 0x31 then s.prepRecord r
    else if opDigest op then s.prepSaved r
    else .go s r.param
  p.bind fun s b => .go (s.setReq { r with param := b }) ()

-- keys -------------------------------------------------------------------------------------------------------------------------

/-- Key size that a stencil's CIPH takes (R330). -/
def ciphKey (ciph n : Nat) : Bool := n == if ciph = 0 then 16 else 32

/-- A lifted key of `n` bytes has the size that a request needs for a use (R230, R257, R330). -/
def keyFits (r : Req) (use n : Nat) : Bool :=
  let op := dOp r.d
  if opTransform op then ciphKey (fieldLE r.ctxKey 5 1 / 64) n
  else if opLane op then keySizeOk (Hdr.ofNat r.hdr).alg (if use = laneUse op then 0 else 1) n
  else true

/-- The key-encryption slot of export, import and RANDOM_KEY with WRAP. -/
def State.prepKek (s : State) (r : Req) : Prep Unit :=
  match r.keys.find? (fun k => k.sel == 0) with
  | some _ => .go s ()
  | none => (s.slotKey r (fieldLE (dIv r.d) 0 2) r.f 2 0 (fun _ => true)).bind fun s _ => .go s ()

/-- Every key that a request needs (R235 step 7, R257, R260). -/
def State.prepKeys (s : State) (r : Req) : Prep Unit :=
  let d := r.d
  let op := dOp d
  let alg := (Hdr.ofNat r.hdr).alg
  if opTransform op then
    let use := if op = 0x50 ∨ op = 0x51 then 0 else 3
    (s.ctxKey r 0 use (keyFits r use)).bind fun s _ =>
    s.withReq r.id fun r =>
    match s.sxOf r r.ctxKey with
    | none => .go s ()
    | some x =>
      if x.steps.any (fun y => y.opc == 0x09) then (s.ctxKey r 1 0 (keyFits r 0)).bind fun s _ => .go s () else .go s ()
  else if opLane op then
    (s.ctxKey r 0 (laneUse op) (keyFits r (laneUse op))).bind fun s _ =>
    s.withReq r.id fun r =>
    if op = 0x15 ∨ op = 0x16 then (s.ctxKey r 1 6 (keyFits r 6)).bind fun s _ => .go s ()
    else if 0x40 ≤ op ∧ op ≤ 0x42 then (s.ctxHmac r 1 ((algHash alg).getD .sha256)).bind fun s _ => .go s ()
    else .go s ()
  else if op = 0x32 ∨ op = 0x33 ∨ op = 0x34 then (s.ctxHmac r 0 ((algHash alg).getD .sha256)).bind fun s _ => .go s ()
  else if op = 0x83 ∨ op = 0x84 ∨ (op = 0x71 ∧ dPbit d 8) then s.prepKek r
  else .go s ()

/-- Key held for a slot selector. -/
def Req.key (r : Req) (sel : Nat) : Bytes := ((r.keys.find? (fun k => k.sel == sel)).map (·.key)).getD []

-- sizes and limits --------------------------------------------------------------------------------------------------------------

/-- Bytes of an inline key of a line that RANDOM_KEY or CTX_ROTATE gives. -/
def newKeyLen (hdr : Nat) : Nat := inlineBytes (Hdr.ofNat hdr).alg

/-- Output size of a request for R164, where it is known before the first stroke. -/
def State.outNeed (s : State) (r : Req) : Nat :=
  let d := r.d
  let op := dOp d
  if opTransform op then ((s.sxOf r r.ctxKey).map Sx.outSize).getD 0
  else if opLane op then laneOut d
  else if op = 0x30 then (match Halg.ofCode (dHalg d) with | some a => if a.isShake then dAuxLen d else 0 | none => 0)
  else if op = 0x65 then (let k := fieldLE r.staged 0 2; if 1024 ≤ k ∧ k ≤ 8192 then bnSize (dBE d) k else 0)
  else if op = 0x66 then (let k := fieldLE r.staged 0 2; if 2 ≤ k ∧ k ≤ 8192 then bnSize (dBE d) k else 0)
  else if op = 0x6F then
    (match sketchEntry s.tables.library r.f d with
     | some i => (LibEntry.of (libEntryB s.tables.library i)).outMax
     | none => 0)
  else if op = 0x70 then dLen d
  else if op = 0x71 then (if dPbit d 8 then newKeyLen r.hdr + 8 else 0)
  else if op = 0x83 then 72 + 40 * (Hdr.ofNat r.hdr).ext
  else 0

/-- COUNT before the request's own bytes (R312). -/
def countBefore (r : Req) : Nat :=
  let op := dOp r.d
  if op = 0x30 ∨ op = 0x31 then (if dCont r.d then fieldLE r.param 8 8 else 0)
  else
    let a := (algHash (Hdr.ofNat r.hdr).alg).getD .sha256
    if dCont r.d then fieldLE r.param a.stateBytes 8 else a.block

/-- The checks that follow the keys (R268 steps 7 to 9, R338, R164, R312). -/
def State.prepSizes (s : State) (r : Req) : Prep Unit :=
  let d := r.d
  let op := dOp d
  let sx := if opTransform op then s.sxOf r r.ctxKey else none
  if (op = 0x15 ∨ op = 0x16) ∧ r.key 0 = r.key 1 then s.mismatch r 0x0115
  else if (match sx with | some x => x.argBad | none => false) then s.mismatch r 0x0004
  else if (match sx with | some x => x.sizeBad | none => false) then s.mismatch r 0x0131
  else if opUsesDst d ∧ dFragDst d ∧ segTotal r.segsD < s.outNeed r then s.mismatch r 0x0005
  else if (ctxLate d (Hdr.ofNat r.hdr)).isSome then s.mismatch r ((ctxLate d (Hdr.ofNat r.hdr)).getD 0)
  else if opDigest op ∧ countOver (countBefore r) (dLen d) then s.mismatch r 0x0122
  else if opLane op ∧ ctrOver d r.param then .stop (s.fail r stSeqExhausted 0)
  else .go s ()

-- expected tags and inbound heads --------------------------------------------------------------------------------------------------

/-- Bytes of the expected tag that is read at AUX (R270, R309); 0 for an operation without one. -/
def expectLen (r : Req) : Nat :=
  let op := dOp r.d
  if op = 0x19 ∨ op = 0x1B ∨ op = 0x1D ∨ op = 0x1F ∨ op = 0x22 then dTagLen r.d
  else if op = 0x41 ∨ dDir r.d then fieldLE r.param 16 1
  else if op = 0x33 then hmacT r.d ((algHash (Hdr.ofNat r.hdr).alg).getD .sha256)
  else 0

/-- Replay bitmap of a cached context. -/
def State.bitmap (s : State) (l : CLine) : Bytes := l.pay.take (bitmapLen l.hdr (s.lineKey l))

/-- Values in the pending set of a handle (R341). -/
def State.pendSet (s : State) (h : Nat) : List Nat := (s.ctx.pset.filter (fun p => p.1 == h)).map (·.2.2)

/-- The inbound head (R341): both passes, and the value's entry into the pending set. A request that waited for room there runs the
replay check again on the value it recovered; the steps behind that check are judged once it has passed. -/
def State.prepInbound (s : State) (r : Req) (x : Sx) : Prep Unit :=
  let masked := x.steps.any (fun y => y.opc == 0x09)
  (s.wantSrc r 0 (x.headLen + if masked then 16 else 0)).bind fun s msg =>
  (s.wantSrc r (x.headLen + x.bodyLen) x.tagLen).bind fun s tag =>
    let head := x.unmask (r.key 1) msg
    let h := dCtx r.d
    let l := (s.cached h).getD { h := h, mem := [] }
    let seq := if r.pendWaited.isSome then r.pendWaited.getD 0 else if x.st.isSeal then x.recover 0 head else if x.st.implicit then 0 else x.recover l.work head
    let checks := !x.st.isSeal && !x.st.implicit
    let good := replayOk x.st (keyW r.ctxKey) l.work (s.bitmap l) (s.pendSet h) seq
    match x.compare seq head false with
    | some det => s.mismatch r det
    | none =>
      if checks ∧ ¬ good then .stop (s.fail r stReplay 0)
      else if checks ∧ 32 ≤ (s.pendSet h).length then
        (if r.pendWaited.isSome then .wait s else .wait ((s.setReq { r with pendWaited := some seq }).bumpSat .stnPendWaitCount))
      else match x.compare seq head true with
        | some det => s.mismatch r det
        | none =>
          .go ({ s with ctx := { s.ctx with pset := s.ctx.pset ++ (if checks then [(h, r.id, seq)] else []) } }.setReq
                { r with staged := head, expect := tag, seq := seq }) ()

/-- A head is built, and built again where an armed injection makes its pair disagree (R345, R514). -/
def State.headBuilt (s : State) : State :=
  let s := s.bump .stnHeadCount
  if s.armedChecker = some 0x8A then (s.injFired.bumpSat .stnHeadRetryCount).capture 0x8A 0 31 true else s

/-- Expected tags are read once (R270), inbound heads run (R341). -/
def State.prepExpect (s : State) (r : Req) : Prep Unit :=
  match (if dOp r.d = 0x51 ∨ dOp r.d = 0x53 then s.sxOf r r.ctxKey else none) with
  | some x => (s.prepInbound r x).bind fun s _ => .go s.headBuilt ()
  | none =>
    (s.want r (dAux r.d) (expectLen r) r.f).bind fun s b =>
      let s := if dOp r.d = 0x50 ∨ dOp r.d = 0x52 then s.headBuilt else s
      .go (if b = [] then s else s.setReq { r with expect := b }) ()

-- draws and entropy -----------------------------------------------------------------------------------------------------------------

/-- The counter value of a request that draws one (R242, R271, R340). -/
def State.prepDraw (s : State) (r : Req) : Prep Unit :=
  let x := if dOp r.d = 0x50 ∨ dOp r.d = 0x51 then s.sxOf r r.ctxKey else none
  let implicit := match x with | some x => x.st.implicit | none => false
  if ¬ dDraws r implicit then .go s ()
  else if ¬ s.drawTurn r then .wait s
  else
    let (limit, skip0) := match x with | some x => (x.st.limit, x.st.from1) | none => (2 ^ 64 - 1, false)
    (s.draw r limit skip0).bind fun s v => .go (s.setReq { r with seq := v, drawn := true }) ()

/-- Bytes of entropy that a request needs (R376, R465, R471, R472, R251); in recovery mode a batch draws a second set. -/
def State.entNeed (s : State) (r : Req) : Nat :=
  let op := dOp r.d
  if op = 0x70 then dLen r.d
  else if op = 0x71 ∨ (op = 0x82 ∧ byteAt (dIv r.d) 0 = 1) then newKeyLen r.hdr
  else if op = 0x62 ∧ 2 ≤ dAuxLen r.d then
    (if (List.range 4).any (fun e => !s.retired (13 + e) && (s.easel e).recover != 0) then 32 else 16) * dAuxLen r.d
  else 0

/-- Entropy is off or failed (R467). -/
def State.entGone (s : State) : Bool := s.ent.state == 0 || s.ent.state == 5

/-- A request that needs entropy ends at once where there is none (R467); a batch begins to draw its randomisers and
is ready once it has them (R376). -/
def State.prepEntropy (s : State) (r : Req) : Prep Unit :=
  let n := s.entNeed r
  if n = 0 then .go s ()
  else if s.entGone then .stop (s.fail r stEntropyUnavailable 0)
  else if dOp r.d ≠ 0x62 then .go s ()
  else if r.entWaits then .wait s
  else if r.got ≠ [] then .go s ()
  else .wait (s.setReq { r with entWaits := true })

-- the steps in order ------------------------------------------------------------------------------------------------------------------

/-- The lines that CTX_CREATE and CTX_IMPORT_WRAPPED will write (R249, R254), and the bytes at SRC. -/
def State.prepNewLines (s : State) (r : Req) : Prep Unit :=
  let op := dOp r.d
  if op ≠ 0x80 ∧ op ≠ 0x84 then .go s ()
  else
    let n := if op = 0x80 then 1 + fieldLE (dIv r.d) 2 1 % 8 else 1 + (dLen r.d - 72) / 40
    let h := dCtx r.d
    if ¬ s.ctx.enable ∨ s.ctx.disabling ∨ ¬ (List.range n).all (fun i => s.inRange r.f (h + i) && s.handleOk (h + i)) then
      .stop (s.deny r)
    else if s.tableWrites ((List.range n).map (h + ·)) ≠ [] then .wait s
    else (s.wantSrc r 0 (dLen r.d)).bind fun s src =>
      (s.wantEach r ((List.range n).map (fun i => (s.lineAddr (h + i), 64))) []).bind fun s _ => .go (s.setReq { r with param := src }) ()

/-- One step of the preparation. -/
def State.prepStep (s : State) (r : Req) : Prep Unit :=
  match r.step with
  | 0 => s.prepLists r
  | 1 => s.prepCheck r
  | 2 => s.prepStage r
  | 3 => s.prepCtx r
  | 4 => s.prepParam r
  | 5 => s.prepKeys r
  | 6 => s.prepSizes r
  | 7 => s.prepNewLines r
  | 8 => s.prepExpect r
  | 9 => s.prepDraw r
  | _ => s.prepEntropy r

/-- Verify-then-decrypt runs in two passes (R288). -/
def dTwoPass (d : Bytes) : Bool := dOp d == 0x41 || dDir d

/-- HASH with SHAKE, whose output is cut into strokes of its own (R308). -/
def dXof (d : Bytes) : Bool := dOp d == 0x30 && dShake d

/-- Strokes of a request (R219, R288): those of its source, of both passes of a verify-then-decrypt; for SHAKE the last of them releases
the first 16 KiB of the output, and each further 16 KiB is a stroke more (R308; DEDUCED, log entry 52). -/
def strokeCount (d : Bytes) : Nat :=
  let k := max 1 (ceilDiv (srcSize d) 16384)
  if dTwoPass d then 2 * k else if dXof d then k + (ceilDiv (dAuxLen d) 16384 - 1) else k

/-- Run the steps of one request until it waits, ends or is ready. -/
def State.prepF : Nat → State → Nat → State
  | 0, s, _ => s
  | fuel + 1, s, id =>
    match s.req id with
    | none => s
    | some r =>
      if r.stage ≠ .checking ∨ ¬ s.live ∨ ¬ s.fnRuns r.f then s
      else if 10 < r.step then s.setReq { r with stage := .ready, strokes := strokeCount r.d }
      else match s.prepStep r with
        | .wait s => s
        | .stop s => s
        | .go s _ =>
          match s.req id with
          | none => s
          | some r => prepF fuel (s.setReq { r with step := r.step + 1 }) id

/-- Preparation of a request. -/
def State.prep (s : State) (id : Nat) : State := s.prepF 16 id

-- strokes -----------------------------------------------------------------------------------------------------------------------------

/-- Source strokes of one pass. -/
def passStrokes (d : Bytes) : Nat := max 1 (ceilDiv (srcSize d) 16384)

/-- Source bytes of stroke `k` of one pass (R219): first byte and the byte after the last. -/
def strokeSpan (d : Bytes) (k : Nat) : Nat × Nat :=
  let S := srcSize d
  let K := passStrokes d
  let cut := if (dOp d = 0x15 ∨ dOp d = 0x16) ∧ S % 16 ≠ 0 ∧ 1 < K then 16 else 0
  let edge := fun (i : Nat) => if K ≤ i then S else if i + 1 = K then 16384 * i - cut else 16384 * i
  (edge k, edge (k + 1))

/-- Number of the source stroke that stroke `k` reads: in the second pass of a verify-then-decrypt the strokes of the first again. -/
def srcStroke (d : Bytes) (k : Nat) : Nat := if dTwoPass d ∧ passStrokes d ≤ k then k - passStrokes d else k

/-- Output bytes that stroke `k` releases: first byte and the byte after the last (R219, R282, R288, R308, R343). A CBC
block that straddles the boundary of two strokes comes with the later one (R266). -/
def State.outSpan (s : State) (r : Req) (k : Nat) : Nat × Nat :=
  let d := r.d
  let op := dOp d
  let K := passStrokes d
  let (a, b) := strokeSpan d (if dTwoPass d then k - K else k)
  let last := k + 1 = r.strokes
  if opTransform op then
    (match s.sxOf r r.ctxKey with
     | none => (0, 0)
     | some x =>
       if ¬ x.inb then x.outSpan a b last
       else if ¬ x.bodyStep.keep then (0, if k = 0 then x.outSize else 0)
       else
         let keep := x.outSize - x.bodyLen
         let at_ := fun (p : Nat) => keep + (min (p - x.headLen) x.bodyLen)
         (if k = 0 then 0 else at_ a, at_ b))
  else if op = 0x23 ∨ op = 0x24 then (0, laneOut d)
  else if 0x1C ≤ op ∧ op ≤ 0x1F then (0, 0)
  else if opDigest op then (if dXof d ∧ K ≤ k + 1 then (16384 * (k + 1 - K), min (dAuxLen d) (16384 * (k + 2 - K))) else (0, 0))
  else if dTwoPass d ∧ k < K then (0, 0)
  else
    let aad := if opAad op then dAuxLen d else 0
    let whole := fun (n : Nat) => if op = 0x40 ∨ op = 0x41 then n / 16 * 16 else n
    (whole (a - aad), whole (b - aad))

/-- First address of a list of ranges that fails R120. -/
def State.segsFail (s : State) (f : Nat) (write : Bool) : List (Nat × Nat) → Option Nat
  | [] => none
  | (a, l) :: t => match s.winFail f a l write with | some x => some x | none => s.segsFail f write t

/-- A list as the second reading gives it up to the bytes that a stroke uses (R165); a list that ends before them is LENGTH. -/
def State.reread2 (s : State) (r : Req) (frag : Bool) (a upto : Nat) (first : List (Nat × Nat)) : Prep Walk :=
  if frag ∧ upto ≠ 0 then
    (s.walk r a (some upto)).bind fun s l =>
      match l with
      | .ok l => .go s (if segTotal l < upto then .error (5, 0) else .ok l)
      | .error e => .go s (.error e)
  else .go s (.ok first)

/-- The lists as the second reading gives them, up to the bytes that a stroke uses (R165). -/
def State.restroke (s : State) (r : Req) (upS upD : Nat) : Prep (List (Nat × Nat) × List (Nat × Nat)) :=
  s.walkBoth r (fun s => s.reread2 r (opUsesSrc (dOp r.d) && dFragSrc r.d) (dSrc r.d) upS r.segsS)
    (fun s => s.reread2 r (opUsesDst r.d && dFragDst r.d) (dDst r.d) upD r.segsD)

/-- Operations that a large request splits (R221). -/
def dSplits (d : Bytes) : Bool :=
  let op := dOp d
  (op == 0x10 || op == 0x11 || (0x14 ≤ op && op ≤ 0x16) || op == 0x18 || op == 0x19) && decide (65536 < dLen d)

/-- The strokes that are dispatched together with stroke `k` (R122): of a request spread across P lanes, the P that stand side by side. -/
def together (r : Req) (k : Nat) : List Nat :=
  let P := r.home.length
  if dSplits r.d ∧ 1 < P then ((List.range P).map (k / P * P + ·)).filter (· < r.strokes) else [k]

/-- Source segments of stroke `k` in a list. -/
def strokeSrc (d : Bytes) (l : List (Nat × Nat)) (k : Nat) : List (Nat × Nat) :=
  let x := strokeSpan d (srcStroke d k)
  segSlice l x.1 (x.2 - x.1)

/-- Destination segments of stroke `k` in a list. -/
def State.strokeDst (s : State) (r : Req) (l : List (Nat × Nat)) (k : Nat) : List (Nat × Nat) :=
  let x := s.outSpan r k
  segSlice l x.1 (x.2 - x.1)

/-- First address of some strokes' accesses that fails R120, stroke by stroke, the source first. -/
def State.strokesFail (s : State) (r : Req) (ls : List (Nat × Nat) × List (Nat × Nat)) (ks : List Nat) : Option Nat :=
  ks.findSome? (fun k =>
    match s.segsFail r.f false (strokeSrc r.d ls.1 k) with
    | some x => some x
    | none => s.segsFail r.f true (s.strokeDst r ls.2 k))

/-- The source of a granted stroke is read after its source and destination accesses, and those of the strokes dispatched with it, have
passed R122. -/
def State.strokeRead (s : State) (r : Req) (k : Nat) : Prep Bytes :=
  let ks := together r k
  let upS := (ks.map (fun k => (strokeSpan r.d (srcStroke r.d k)).2)).foldl max 0
  let upD := (ks.map (fun k => let x := s.outSpan r k; if x.1 < x.2 then x.2 else 0)).foldl max 0
  (s.restroke r upS upD).bind fun s ls =>
    match s.strokesFail r ls ks with
    | some x => .stop (s.haltReq r 7 x)
    | none =>
      (s.wantSegs r (strokeSrc r.d ls.1 k) []).bind fun s bytes =>
        .go (s.setReq { r with srcs := tset (fun _ => []) r.srcs k bytes, dsts := tset (fun _ => []) r.dsts k (s.strokeDst r ls.2 k) }) bytes

end Sys2Proof.Machine
end

