-- ==== Sys2Proof/Machine/CtxOps.lean ====
section
/-! DEFINITION. What the context operations and RANDOM_KEY write (R246-R256, R472), and the turn of the operations that
take no grant (R201, R204). -/
namespace Sys2Proof.Machine

/-- Requests of a ring that have started and have not reached their commit point (R204). -/
def State.inFlightOf (s : State) (f n : Nat) : Nat :=
  (s.reqs.filter (fun q => q.f == f && q.n == n && q.started && q.inFlight)).length

/-- A request may start, or has started: its ring's earlier requests have started, and BURST_M1 + 1 are not yet in flight
(R204). -/
def State.mayStart (s : State) (r : Req) : Bool :=
  r.started || (s.reqs.all (fun q => q.f != r.f || q.n != r.n || r.adm ≤ q.adm || q.started || !q.inFlight)
    && decide (s.inFlightOf r.f r.n < s.burst r.f r.n))

/-- An operation without a grant has nothing more to wait for: it is ready and it is its turn in its ring (R204), and
every earlier entry of a FENCE's ring is released (R162). -/
def State.opDue (s : State) (r : Req) : Bool :=
  r.stage == .ready && s.fnRuns r.f && s.mayStart r && (dOp r.d != 0x01 || (s.ring (ringG r.f r.n)).head == r.pos)

/-- An operation without a grant may run: it has nothing to wait for, and no operation of its kind that was admitted
earlier could run instead (R201: in admission order). -/
def State.mayRun (s : State) (r : Req) : Bool :=
  s.live && s.opDue r && s.reqs.all (fun q => r.adm ≤ q.adm || opGranted (dOp q.d) || !s.opDue q)

/-- Write bytes at an offset of the destination of a request without strokes: at the segments of the one walk of its list, since R165
reads a list again stroke by stroke (DESIGN CHOICE, log entry 51: it names no second reading for a request that has no stroke). -/
def State.writeData (s : State) (r : Req) (off : Nat) (b : Bytes) : State :=
  (segPlace (segSlice r.segsD off b.length) b).foldl (fun s p => s.queueWrite p.1 p.2 r.f (.data r.id)) s

/-- Write bytes at AUX. -/
def State.writeAux (s : State) (r : Req) (b : Bytes) : State :=
  if b = [] then s else s.queueWrite (dAux r.d) b r.f (.data r.id)

/-- First address of a part of the destination that fails R120. -/
def State.dstFail (s : State) (r : Req) (off len : Nat) : Option Nat := s.segsFail r.f true (segSlice r.segsD off len)

/-- Lines written in one order (R249, R250): each after the one before, `hs` with header and payload. -/
def State.putLines (s : State) (id : Nat) : List (Nat × Hdr × Bytes) → List Nat → State
  | [], _ => s
  | (h, hdr, p) :: t, after =>
    let n := s.nextId
    let (s, _) := s.putLine h hdr p (.ctxOp id h) after
    s.putLines id t (after ++ s.since n)

/-- A line can be written once more (R233). -/
def Hdr.canWrite (h : Hdr) : Bool := decide (h.version < versionMax)

/-- What R249 finds in one line: accepted with its VERSION, or refused with a status and DETAIL. -/
def State.acceptLine (s : State) (f h : Nat) (mem : Bytes) : Except (Nat × Nat) Nat :=
  let hdr := lineHdr mem
  if allZero mem then .ok 0
  else if (lineOpen s.ck h s.gen mem).isNone then .error (stContextDenied, 0)
  else if hdr.format = 0 ∨ hdr.owner ≠ f ∨ hdr.epoch ≠ s.epoch f then .ok hdr.version
  else if hdr.format = 1 ∨ hdr.format = 2 then .error (stFormatMismatch, 0x0180)
  else .error (stContextDenied, 0)

/-- The first refusal of a list, or every VERSION. -/
def acceptAll : List (Except (Nat × Nat) Nat) → Except (Nat × Nat) (List Nat)
  | [] => .ok []
  | .error e :: _ => .error e
  | .ok v :: t => match acceptAll t with
    | .ok l => .ok (v :: l)
    | .error e => .error e

/-- Take a request back to the step that reads its lines. -/
def State.reread (s : State) (r : Req) : State := s.setReq { r with stage := .checking, step := 7 }

/-- Install a new context over accepted lines (R249, R254): extension lines first, then the primary line. -/
def State.installCtx (s : State) (r : Req) (hdr : Hdr) (payload ext : Bytes) : State :=
  let h := dCtx r.d
  let n := 1 + hdr.ext
  match r.bytes (s.lineAddr h) (64 * n) with
  | none => s.reread r
  | some b =>
    match acceptAll ((List.range n).map (fun i => s.acceptLine r.f (h + i) (slice b (64 * i) 64))) with
    | .error (st, det) => s.fail r st det
    | .ok vs =>
      if vs.any (fun v => decide (versionMax ≤ v)) then
        s.fail r (if dOp r.d = 0x80 then stContextDenied else stSeqExhausted) 0
      else
        let own := { hdr with owner := r.f, epoch := s.epoch r.f }
        let s := (s.ctx.cache.filter (fun l => l.lines.any (fun x => decide (h ≤ x) && decide (x < h + n)))).foldl
          (fun s l => s.dropLine l.h) s
        let s := s.dropInline h
        let exts := (List.range hdr.ext).map (fun i =>
          (h + 1 + i, ({ owner := own.owner, epoch := own.epoch, format := 2, ext := i + 1, version := vs.getD (i + 1) 0 } : Hdr),
            extPay ext i))
        let s := s.putLines r.id (exts ++ [(h, { own with version := vs.getD 0 0 }, payload)]) []
        s.commit r stOk 0

/-- CTX_CREATE (R248, R249). -/
def State.ctxCreate (s : State) (r : Req) : State :=
  let iv := dIv r.d
  let fl := fieldLE iv 1 1
  let hdr : Hdr := { alg := fieldLE iv 0 1, format := 1, scrub := nbit fl 0, exp := nbit fl 1, cmode := fl / 4 % 4
                     ext := fieldLE iv 2 1 % 8 }
  s.installCtx r hdr (slice iv 8 8 ++ slice iv 4 4 ++ slice r.param 0 28) []

/-- Working counter of a context as an operation sees it: the cache's where the line is reserved, else COUNTER. -/
def CLine.counter (l : CLine) : Nat := if l.res then l.work else l.memCtr

/-- Every line of a context can be written once more. -/
def CLine.canWrite (l : CLine) : Bool := l.hdr.canWrite && l.xmem.all (fun m => (lineHdr m).canWrite)

/-- Rewrite a context: the primary line with header and payload, then the extension lines whose payload changes. The
cached entry is dropped, and with it the keys of an inline line. -/
def State.rewriteCtx (s : State) (r : Req) (l : CLine) (hdr : Hdr) (payload ext : Bytes) : State :=
  let exts := (List.range l.xmem.length).filterMap (fun i =>
    if extPay ext i = extPay l.mpay i then none else some (l.h + 1 + i, lineHdr (l.xmem.getD i []), extPay ext i))
  let s := (s.dropLine l.h).dropInline l.h
  s.putLines r.id ((l.h, hdr, payload) :: exts) []

/-- FREE lines over a context (R250): primary first; `after` names writes that precede them. -/
def State.freeLines (s : State) (r : Req) (l : CLine) (after : List Nat) : State :=
  let free := fun (h : Hdr) => ({ owner := h.owner, epoch := h.epoch, version := h.version } : Hdr)
  let exts := (List.range l.xmem.length).map (fun i => (l.h + 1 + i, free (lineHdr (l.xmem.getD i [])), zeros 40))
  let s := (s.dropLine l.h).dropInline l.h
  s.putLines r.id ((l.h, free l.hdr, zeros 40) :: exts) after

/-- CTX_DESTROY (R250). -/
def State.ctxDestroy (s : State) (r : Req) (l : CLine) : State :=
  if ¬ l.canWrite then s.deny r else (s.freeLines r l []).commit r stOk 0

/-- Keys of a context's slots leave the caches (R251): the old key. -/
def State.dropSlots (s : State) (l : CLine) : State :=
  let key := s.lineKey l
  let slots := if l.hdr.inline then [] else [fieldLE key 0 2, fieldLE key 2 2]
  let tag := l.hdr.owner
  { s with ctx := { s.ctx with
      keys := s.ctx.keys.filter (fun k => !(k.lifted && k.a == tag && slots.contains k.b))
      hmac := s.ctx.hmac.filter (fun k => !(k.lifted && k.a == tag && slots.contains k.b)) } }

/-- Inner and outer states of an inline HMAC key as the extension area holds them (R245); empty for another ALG. -/
def inlineArea (alg : Nat) (key : Bytes) : Bytes :=
  match (if algHmac alg then algHash alg else none) with
  | none => []
  | some a => let p := hmacStates a key; p.1 ++ p.2

/-- A line receives an inline key: for an HMAC key its states are computed on a digest engine in the same operation (R245), which waits,
nothing done, until one is free. -/
def State.withStates (s : State) (alg : Nat) (k : State → State) : State :=
  match (if algHmac alg then algHash alg else none) with
  | none => k s
  | some a => (match s.stateRun a with
    | some s => k s
    | none => s)

/-- CTX_ROTATE (R251); `key` holds the random bytes of MODE 0x01. -/
def State.ctxRotate (s : State) (r : Req) (l : CLine) (key : Bytes) : State :=
  let iv := dIv r.d
  let rand := fieldLE iv 0 1 = 1
  if ¬ l.canWrite then s.fail r stSeqExhausted 0
  else
    let params := if l.hdr.inline then zeros 28 else (s.lineKey l).drop 4
    let k := if rand then slice key 0 32 else slice iv 4 4 ++ params
    let area := slice (if rand then inlineArea l.hdr.alg key else []) 0 (40 * l.xmem.length)
    s.withStates (if rand then l.hdr.alg else 0) fun s =>
      let s := s.dropSlots l
      (s.rewriteCtx r l { l.hdr with inline := rand } (slice iv 8 8 ++ k) area).commit r stOk 0

/-- CTX_EXPORT_WRAPPED (R252, R253). -/
def State.ctxExport (s : State) (r : Req) (l : CLine) : State :=
  let move := dPbit r.d 8
  let hdr := { l.hdr with owner := 0, epoch := 0, version := 0 }
  let rec_ := natLE 8 hdr.toNat ++ natLE 8 l.counter ++ slice (s.lineKey l) 0 32 ++ zeros 16 ++ l.pay
  let out := kwpWrap (r.key 0) rec_
  if move ∧ ¬ l.canWrite then s.fail r stSeqExhausted 0
  else match s.dstFail r 0 out.length with
    | some x => s.haltReq r 7 x
    | none =>
      let n := s.nextId
      let s := s.writeData r 0 out
      let s := if move then s.freeLines r l (s.since n) else s
      s.commit { r with outBytes := out.length } stOk 0

/-- The reserved bits of CTRL in a saved keyed state are 0 (R315, R15). -/
def savedClean (a : Halg) (saved : Bytes) : Bool := decide (fieldLE saved (a.stateBytes + 8) 8 < 2)

/-- The reserved bits of an extension area are 0: those of the saved keyed state that it has room for (R244, R315). -/
def areaClean (hdr : Hdr) (area : Bytes) : Bool :=
  match (if algHmac hdr.alg then algHash hdr.alg else none) with
  | none => true
  | some a =>
    let off := savedOff hdr.inline a
    decide (area.length < off + savedLen a) || savedClean a (area.drop off)

/-- The plaintext of an import record is well formed (R254). -/
def importOk (k : Nat) (p : Bytes) : Bool :=
  let hdr := Hdr.ofNat (fieldLE p 0 8)
  areaClean hdr (p.drop 64) &&
  p.length == 64 + 40 * k && hdr.owner == 0 && hdr.epoch == 0 && hdr.version == 0 && hdr.format == 1
  && !lineInvalid hdr (slice p 16 32) && hdr.ext == k && allZero (slice p 48 16)

/-- CTX_IMPORT_WRAPPED (R254); the states of an inline HMAC key are computed anew (R245). -/
def State.ctxImport (s : State) (r : Req) : State :=
  let k := (dLen r.d - 72) / 40
  match kwpUnwrap (r.key 0) r.param with
  | none => s.fail r stAuthFail 0
  | some p =>
    if ¬ importOk k p then s.fail r stFormatMismatch 0x0004
    else
      let hdr := Hdr.ofNat (fieldLE p 0 8)
      let area := if hdr.inline then overwrite (p.drop 64) 0 ((inlineArea hdr.alg (slice p 16 32)).take (40 * k)) else p.drop 64
      if r.bytes (s.lineAddr (dCtx r.d)) (64 * (1 + k)) = none then s.reread r
      else s.withStates (if hdr.inline then hdr.alg else 0) fun s => s.installCtx r hdr (slice p 8 40) area

/-- CTX_SNAPSHOT_COUNTER (R255). -/
def State.ctxSnapshot (s : State) (r : Req) (l : CLine) : State :=
  s.commit { r with result := natLE 8 l.counter ++ natLE 8 l.memCtr ++ natLE 4 l.hdr.version
                    seqUsed := l.counter % 2 ^ 32 } stOk 0

/-- CTX_FLUSH (R256): of one handle, or of every cached context of the function. A write-back that it needs and that R233 does not allow
ends it with SEQ_EXHAUSTED, nothing written. -/
def State.ctxFlush (s : State) (r : Req) : State :=
  let mine := fun (l : CLine) => if dPbit r.d 8 then l.hdr.owner == r.f else l.h == dCtx r.d
  let ls := s.ctx.cache.filter mine
  if ls.any (fun l => l.dirty && !l.canPut (if l.res then l.work else l.memCtr) l.pay) then s.fail r stSeqExhausted 0 else
  let s := ls.foldl (fun s l => match s.cached l.h with
    | some c => (s.evict c (.ctxOp r.id c.h)).dropInline c.h
    | none => s) s
  let s := if dPbit r.d 8 then s else s.dropInline (dCtx r.d)
  s.commit r stOk 0

/-- RANDOM_KEY (R472), with the bytes drawn. -/
def State.randomKey (s : State) (r : Req) (l : CLine) (key : Bytes) : State :=
  let wrap := dPbit r.d 8
  let out := if wrap then kwpWrap (r.key 0) key else []
  if ¬ l.canWrite then s.fail r stSeqExhausted 0
  else match s.dstFail r 0 out.length with
    | some x => s.haltReq r 7 x
    | none => s.withStates l.hdr.alg fun s =>
      let s := if wrap then s.writeData r 0 out else s
      let area := if algHmac l.hdr.alg then slice (inlineArea l.hdr.alg key) 0 (40 * l.xmem.length) else l.pay
      let s := s.dropSlots l
      let s := s.rewriteCtx r l { l.hdr with inline := true } (natLE 8 l.counter ++ slice key 0 32) area
      s.commit { r with outBytes := out.length } stOk 0

/-- The context that an operation on its line works on: from the cache or as read; none where the lines must be read
again or the request has ended. -/
def State.withLine (s : State) (r : Req) (k : State → CLine → State) : State :=
  match s.lookup r with
  | .go s l => k s l
  | .wait s => s.setReq { r with stage := .checking, step := 3 }
  | .stop s => s

/-- The effect of an operation that draws a key, once it has its bytes. -/
def State.keyDrawn (s : State) (r : Req) : State :=
  s.withLine r fun s l => if dOp r.d = 0x71 then s.randomKey r l r.got else s.ctxRotate r l r.got

/-- Operations that have their random bytes and wait for a digest engine go on (R245). -/
def State.drawnDue (s : State) : State :=
  (s.reqs.filter (fun r => r.stage == .running && !r.entWaits && opCtx (dOp r.d))).foldl (fun s r => s.keyDrawn r) s

end Sys2Proof.Machine
end

