-- ==== Sys2Proof/Machine/Lane.lean ====
section
/-! DEFINITION. What strokes compute (R269-R290, R308-R316, R337-R344): the output of each stroke of a lane or digest
request, and the outcome fixed at the commit point. -/
namespace Sys2Proof.Machine

-- source -----------------------------------------------------------------------------------------------------------------

/-- Source bytes of the strokes 0 to `k` of a pass, in order. Bytes of strokes that have not been read stand as zeros;
no output byte depends on them (R289). -/
def Req.srcTo (r : Req) (pass k : Nat) : Bytes :=
  (List.range (k + 1)).flatMap (fun i =>
    let (a, b) := strokeSpan r.d i
    slice (tget (fun _ => []) r.srcs (pass * passStrokes r.d + i)) 0 (b - a))

/-- The whole source, of the pass that fixes the outcome. -/
def Req.source (r : Req) : Bytes := r.srcTo (if dTwoPass r.d then 1 else 0) (passStrokes r.d - 1)

/-- AAD bytes at the head of the source (R160). -/
def dAad (d : Bytes) : Nat := if opAad (dOp d) then dAuxLen d else 0

-- symmetric and combined operations -----------------------------------------------------------------------------------------

/-- IV or nonce of a lane request: drawn from the context (R271), inline, or of the parameter block. -/
def Req.nonce (r : Req) : Bytes := if dIvCtx r.d then slice r.ctxKey 4 4 ++ natBE 8 r.seq else laneIv r.d r.param

/-- Counter field width of CTR (R267). -/
def ctrWidth (d : Bytes) : Nat :=
  if dOp d = 0x42 then 32 else if dParam d % 4 = 0 then 32 else if dParam d % 4 = 1 then 64 else 128

/-- CCM nonce (R278). -/
def ccmNonce (iv : Bytes) : Bytes := slice iv 1 (byteAt iv 0).toNat

/-- KW or KWP unwrap of the whole source; none where the integrity check fails (R281). -/
def Req.unwrapped (r : Req) (p : Bytes) : Option Bytes := if dPbit r.d 8 then kwpUnwrap (r.key 0) p else kwUnwrap (r.key 0) p

/-- Output for the payload bytes from the first on (R272, R286); what it gives for a part of the payload is the same part of what
it gives for the whole. -/
def Req.text (r : Req) (p : Bytes) : Bytes :=
  let op := dOp r.d
  let key := r.key 0
  let iv := r.nonce
  if op = 0x10 then ecbEnc key p
  else if op = 0x11 then ecbDec key p
  else if op = 0x12 ∨ op = 0x40 then (cbcEnc key iv p).1
  else if op = 0x13 ∨ op = 0x41 then (cbcDec key iv p).1
  else if op = 0x14 ∨ op = 0x42 then ctrAt key (ctrWidth r.d) iv 0 p
  else if op = 0x15 ∨ op = 0x16 then xtsAt (op == 0x15) key (r.key 1) iv 0 p
  else if op = 0x18 ∨ op = 0x19 then gcmCtr key iv 0 p
  else if op = 0x1A ∨ op = 0x1B then ccmCtr key (ccmNonce iv) 0 p
  else if op = 0x20 then chachaAt key (slice iv 4 12) (fieldLE iv 0 4) 0 p
  else if op = 0x21 ∨ op = 0x22 then chachaAt key iv 1 0 p
  else if op = 0x23 then (if dPbit r.d 8 then kwpWrap key p else kwWrap key p)
  else if op = 0x24 then (r.unwrapped p).getD []
  else []

/-- Tag of a symmetric request over AAD, payload as read and output (R277, R278, R280, R275). -/
def Req.tag (r : Req) (aad pay out : Bytes) : Bytes :=
  let op := dOp r.d
  let key := r.key 0
  let iv := r.nonce
  let t := dTagLen r.d
  (if op = 0x18 then gcmTag key iv aad out
   else if op = 0x19 then gcmTag key iv aad pay
   else if op = 0x1A then ccmTag key (ccmNonce iv) aad pay t
   else if op = 0x1B then ccmTag key (ccmNonce iv) aad out t
   else if op = 0x1C ∨ op = 0x1D then gcmTag key iv aad []
   else if op = 0x1E ∨ op = 0x1F then cmac key pay
   else if op = 0x21 then chachaTag key iv aad out
   else chachaTag key iv aad pay).take t

/-- HMAC of a combined request (R287) over AAD and ciphertext. -/
def Req.mac (r : Req) (aad ct : Bytes) : Bytes :=
  let a := (algHash (Hdr.ofNat r.hdr).alg).getD .sha256
  let st := r.hstates.getD ([], [])
  let msg := aad ++ (if dPbit r.d 8 then slice r.param 0 16 else []) ++ ct ++ r.param.drop 32
  (hmacOuter a st.2 (a.absorb st.1 msg)).take (fieldLE r.param 16 1)

/-- RESULT of a generating operation (R269, R271). -/
def Req.tagResult (r : Req) (tag : Bytes) : Bytes := if dIvCtx r.d then slice tag 0 16 ++ natBE 8 r.seq else tag

/-- Outcome of a symmetric or combined request over its whole source (R269-R288). -/
def Req.laneFinish (r : Req) : Finish :=
  let d := r.d
  let op := dOp d
  let src := r.source
  let aad := src.take (dAad d)
  let pay := src.drop (dAad d)
  let out := r.text pay
  let gen := fun (tag : Bytes) =>
    ({ result := r.tagResult tag, aux := if dPbit d 10 then tag else [], seqUsed := r.seq % 2 ^ 32 } : Finish)
  let check := fun (ok : Bool) (zero : Bool) =>
    ({ status := if ok then stOk else stAuthFail, scrub := zero && !ok } : Finish)
  if op = 0x12 then { result := (cbcEnc (r.key 0) r.nonce pay).2 }
  else if op = 0x13 then { result := (cbcDec (r.key 0) r.nonce pay).2 }
  else if op = 0x14 then { result := ctrAdd (ctrWidth d) r.nonce (ceilDiv pay.length 16) }
  else if op = 0x20 then { result := natLE 8 (fieldLE r.nonce 0 4 + ceilDiv pay.length 64) }
  else if op = 0x18 ∨ op = 0x1A ∨ op = 0x1C ∨ op = 0x1E ∨ op = 0x21 then gen (r.tag aad pay out)
  else if op = 0x19 ∨ op = 0x1B ∨ op = 0x22 then check (r.tag aad pay out == r.expect) (Hdr.ofNat r.hdr).scrub
  else if op = 0x1D ∨ op = 0x1F then check (r.tag aad pay out == r.expect) false
  else if op = 0x24 then check (r.unwrapped pay).isSome false
  else if op = 0x40 ∨ (op = 0x42 ∧ ¬ dDir d) then gen (r.mac aad out)
  else {}

/-- The tag compare between the two passes of verify-then-decrypt (R288). -/
def Req.pass1Ok (r : Req) : Bool :=
  let src := r.srcTo 0 (passStrokes r.d - 1)
  r.mac (src.take (dAad r.d)) (src.drop (dAad r.d)) == r.expect

-- transforms ---------------------------------------------------------------------------------------------------------------

/-- Plaintext of the body bytes within a message. -/
def Req.body (r : Req) (x : Sx) (msg : Bytes) : Bytes :=
  x.openBody (r.key 0) r.seq r.staged 0 ((msg.drop x.headLen).take x.bodyLen)

/-- Output of a transform for its source from the first byte on (R337, R343). -/
def Req.transform (r : Req) (x : Sx) (src : Bytes) : Bytes :=
  if ¬ x.inb then (x.build (r.key 0) (r.key 1) r.seq src).1
  else x.keptHead r.seq r.staged ++ (if x.bodyStep.keep then r.body x src else [])

/-- Bytes of the first head field with an opcode and VAL. -/
def fieldOf (l : List (Step × Bytes)) (opc val : Nat) : Bytes :=
  ((l.find? (fun p => p.1.opc == opc && p.1.val % 256 == val)).map (·.2)).getD []

/-- RESULT of an accepted inbound message (R344). -/
def Req.inResult (r : Req) (x : Sx) (content typ : Nat) : Bytes :=
  let fs := x.fields r.seq r.staged
  if x.st.isSeal then
    natLE 8 r.seq ++ natLE 8 (beNat (fieldOf fs 0x08 0)) ++ slice (fieldOf fs 0x07 0) 0 1 ++ slice (fieldOf fs 0x07 1) 0 1
      ++ [0, 0] ++ natLE 4 x.bodyLen
  else natLE 8 r.seq ++ natLE 4 content ++ [BitVec.ofNat 8 typ, BitVec.ofNat 8 (argReport fs)]

/-- Outcome of a transform over its whole source (R341-R344). -/
def Req.transformFinish (r : Req) (x : Sx) : Finish :=
  let src := r.source
  let su := r.seq % 2 ^ 32
  if ¬ x.inb then
    let tag := (x.build (r.key 0) (r.key 1) r.seq src).2
    { seqUsed := su
      result := if x.st.isSeal then slice tag 0 16 ++ natLE 8 r.seq ++ natLE 8 r.sealTime else slice tag 0 16 ++ natLE 8 r.seq }
  else
    let msg := zeros x.headLen ++ (src.drop x.headLen).take x.bodyLen ++ r.expect
    if ¬ x.tagOk (r.key 0) r.seq r.staged msg then
      { status := stAuthFail, scrub := (Hdr.ofNat r.hdr).scrub, seqUsed := su }
    else
      let acc := if x.st.isSeal ∨ x.st.implicit then none else some r.seq
      match (match x.trailer with
        | none => some (x.bodyLen, 0)
        | some t => stripTrailer (t.val % 256) (r.body x src)) with
      | none => { status := stFormatMismatch, detail := 0x0132, accept := acc, seqUsed := su }
      | some (n, t) => { result := r.inResult x n t, accept := acc, seqUsed := su }

-- strokes --------------------------------------------------------------------------------------------------------------------

/-- Outcome of a digest request over its whole source. -/
def Req.digFinish (r : Req) : Finish :=
  let d := r.d
  if dOp d = 0x30 ∨ dOp d = 0x31 then hashFinish d ((Halg.ofCode (dHalg d)).getD .sha256) r.param r.source
  else
    let st := r.hstates.getD ([], [])
    hmacFinish d ((algHash (Hdr.ofNat r.hdr).alg).getD .sha256) st.1 st.2 r.param r.expect r.source

/-- Outcome of a lane or digest request whose every stroke has committed. -/
def State.outcome (s : State) (r : Req) : Finish :=
  if opDigest (dOp r.d) then r.digFinish
  else if opTransform (dOp r.d) then (match s.sxOf r r.ctxKey with | some x => r.transformFinish x | none => {})
  else r.laneFinish

/-- Output bytes that stroke `k` releases. -/
def State.strokeOut (s : State) (r : Req) (k : Nat) : Bytes :=
  let (a, b) := s.outSpan r k
  if b ≤ a then []
  else if opDigest (dOp r.d) then (r.digFinish.dst.drop a).take (b - a)
  else
    let src := r.srcTo (if dTwoPass r.d then 1 else 0) (srcStroke r.d k)
    let out := if opTransform (dOp r.d) then (match s.sxOf r r.ctxKey with | some x => r.transform x src | none => [])
               else r.text (src.drop (dAad r.d))
    (out.drop a).take (b - a)

/-- The operation with a code runs on the engines that hold a stroke of a request and have read its source: the output
of each is computed, while the engines' clock runs (R70). -/
def State.compute (s : State) (op : Nat) (id : Nat) : State :=
  match s.req id with
  | none => s
  | some r =>
    if dOp r.d ≠ op ∨ ¬ s.live ∨ ¬ s.clkOk (if opDigest op then 5 else 4) then s else
    let upd := fun (x : Eng) => match x.run with
      | some w => if w.id = id ∧ w.src.isSome ∧ w.out.isNone then { x with run := some { w with out := some (s.strokeOut r w.k) } } else x
      | none => x
    let s' := (List.range 9).foldl (fun t n => if upd (s.lane n) = s.lane n then t else t.setLane n (upd (s.lane n))) s
    (List.range 4).foldl (fun t e => if upd (s.dig e) = s.dig e then t else t.setDig e (upd (s.dig e))) s'

-- the commit point -------------------------------------------------------------------------------------------------------------

/-- The output of stroke `k` of engine `u` (a digest engine from 9 on) is written at the stroke's destination segments, through a half
of the engine's write buffer (R295). -/
def State.writeStroke (s : State) (r : Req) (u k : Nat) (b : Bytes) : State :=
  let mark := s.nextId
  (segPlace (tget (fun _ => []) r.dsts k) b).foldl (fun s p => s.queueWrite p.1 p.2 r.f (.data r.id) none [] (some (u, mark))) s

/-- Strokes of lane `u` whose output has not drained from its write buffer. -/
def State.undrained (s : State) (u : Nat) : List Nat :=
  (s.fab.wrQ.filterMap (fun t => match t.buf with | some (e, m) => if e = u then some m else none | none => none)).dedup

/-- Both halves of a lane's write buffer hold output (R295): the stroke that has ended waits. -/
def State.bufferFull (s : State) (u : Nat) : Bool := decide (2 ≤ (s.undrained u).length)

/-- The zeros of a scrub over every byte that a request wrote, behind its data writes (R283). -/
def State.scrub (s : State) (r : Req) : State :=
  let before := (s.writesOf (fun u => u == .data r.id)).map (·.serial)
  (segPlace r.wrote (zeros r.written)).foldl
    (fun s p => s.queueWrite p.1 p.2 r.f (.scrub r.id) none before) s

/-- The acceptance of an inbound value at the commit point (R341, R241). -/
def State.accept (s : State) (r : Req) (v : Nat) : State :=
  match s.cached (dCtx r.d) with
  | none => s
  | some l =>
    let w := keyW r.ctxKey
    let (h, b) := replayCommit w l.work (s.bitmap l) v
    (s.setCached { l with work := h, pay := overwrite l.pay 0 b }).refresh l.h

/-- The acceptance must wait for a reservation write's response, that of the fill first of all (R241): the state after asking for it; `some none` where
none can be made (R233). -/
def State.acceptWait (s : State) (r : Req) (v : Nat) : Option (Option State) :=
  match s.cached (dCtx r.d) with
  | none => none
  | some l =>
    if ¬ l.filled then some (some s)
    else if v ≤ l.work ∨ v ≤ l.durable then none
    else if l.refreshing then some (some s)
    else some (s.reserveTo l (satLimit (l.limit + RES)))

/-- The saved keyed state of a context at the commit point (R316). -/
def State.saveState (s : State) (r : Req) (b : Bytes) : State :=
  let hdr := Hdr.ofNat r.hdr
  match s.cached (dCtx r.d) with
  | some l => s.setCached { l with pay := overwrite l.pay (savedOff hdr.inline ((algHash hdr.alg).getD .sha256)) b }
  | none => s

/-- Count on a lane unless its counters are frozen (R297). -/
def State.laneCount (s : State) (n : Nat) (c : RegName) (sat : Bool) (k : Nat := 1) : State :=
  if bitOf (s.reg .laneCntCtrl n) 0 then s
  else if sat then s.bumpSat c n 0 k else s.setReg c n 0 (s.reg c n + BitVec.ofNat 32 k)

/-- The commit point of a lane or digest request (R19, R20) with the outcome fixed: the request's own effects, then the
commit. -/
def State.finish (s : State) (r : Req) (x : Finish) : State :=
  let scrubbed := x.scrub ∧ r.written ≠ 0
  let s := s.writeAux r x.aux
  let s := if scrubbed then s.scrub r else s
  let s := match x.accept with | some v => s.accept r v | none => s
  let s := match x.saved with | some b => s.saveState r b | none => s
  let s := match x.latch with
    | some b => if r.f = 16 then { s with gal := { s.gal with latch := some (dHalg r.d, fieldLE (dUser r.d) 0 2, slice b 0 64) } } else s
    | none => s
  let s := if x.status = stAuthFail ∧ opLane (dOp r.d) then s.laneCount r.first .laneAuthFailCount true else s
  s.commit { r with outBytes := r.written, result := x.result, seqUsed := x.seqUsed, wrapped := x.wrapped
                    scrubbed := decide scrubbed } x.status x.detail

/-- Every stroke has committed, or the first pass of a verify-then-decrypt has failed: the outcome. -/
def State.ended (s : State) (r : Req) : Option Finish :=
  let K := passStrokes r.d
  if dTwoPass r.d ∧ r.committed.length = K ∧ ¬ r.pass1Ok then some { status := stAuthFail }
  else if r.committed.length = r.strokes then some (s.outcome r)
  else none

/-- Where the last stroke's commit would write at AUX outside the windows of the function: the first address that fails R120
(R122). An outcome that writes nothing at AUX makes no such access (DEDUCED, log entry 31). -/
def State.auxFail (s : State) (r : Req) (k : Nat) : Option Nat :=
  match s.ended { r with committed := r.committed ++ [k] } with
  | some x => if x.aux = [] then none else s.winFail r.f (dAux r.d) x.aux.length true
  | none => none

end Sys2Proof.Machine
end

