-- ==== Sys2Proof/Machine/Cycles.lean ====
section
/-! DEFINITION. Lane cycles and digest cycles of strokes, and the busy counters (R266, R289, R296, R297, R318, R319, R345). -/
namespace Sys2Proof.Machine

/-- Blocks of `u` bytes whose first byte lies from `x` up to `y`, of those numbered from `lo` and below `hi`. -/
def blocksIn (u lo hi x y : Nat) : Nat := min hi (ceilDiv y u) - max lo (ceilDiv x u)

/-- Lane time of an operation (R266): set-up; bytes and cycles of a payload block; cycles of an AAD block and the number of AAD
blocks that the set-up absorbs; finalisation. -/
structure LaneTime where
  setup : Nat := 0
  unit : Nat := 16
  per : Nat := 5
  aadPer : Nat := 0
  aadFree : Nat := 0
  fin : Nat := 5
deriving DecidableEq, Repr

/-- Set-up of GCM and GMAC by IV length. -/
def gcmSetup (iv : Nat) : Nat := if iv = 12 then 10 else 17 + ceilDiv iv 16

/-- The table of R266: the first ten AAD blocks are absorbed in set-up and not counted in the strokes. -/
def laneTime (op iv : Nat) : LaneTime :=
  if op = 0x15 ∨ op = 0x16 then { setup := 5 }
  else if op = 0x18 ∨ op = 0x19 ∨ op = 0x1C ∨ op = 0x1D then { setup := gcmSetup iv, aadPer := 1, aadFree := 10, fin := 20 }
  else if op = 0x1A ∨ op = 0x1B then { setup := 5, aadPer := 5, aadFree := 10, fin := 10 }
  else if op = 0x1E ∨ op = 0x1F then { setup := 5 }
  else if op = 0x20 then { unit := 64, per := 20 }
  else if op = 0x21 ∨ op = 0x22 then { setup := 20, unit := 64, per := 20, aadPer := 2, aadFree := 10, fin := 10 }
  else if 0x40 ≤ op ∧ op ≤ 0x42 then { aadPer := 5, aadFree := 10, fin := 80 }
  else {}

/-- Cycles of a key wrap or unwrap: 30 for a plaintext semiblock, 5 for an input of KWP of at most 8 bytes. -/
def wrapCycles (d : Bytes) : Nat :=
  let n := if dOp d = 0x23 then ceilDiv (dLen d) 8 else dLen d / 8 - 1
  if dPbit d 8 ∧ n ≤ 1 then 5 else 30 * n

/-- A stencil request's lane time (R345): that of GCM or ChaCha20-Poly1305, with 5 or 20 more cycles for each SNMASK. -/
def Sx.engineTime (x : Sx) : LaneTime :=
  let t := if x.ciph = 2 then laneTime 0x21 12 else laneTime 0x18 12
  { t with setup := t.setup + (if x.ciph = 2 then 20 else 5) * (x.head.filter (fun s => s.opc == 0x09)).length }

/-- Cycles of a stencil stroke over source bytes `a` up to `b`, without set-up and finalisation: the AUTH bytes count as AAD. -/
def Sx.strokeCycles (x : Sx) (first last : Bool) (a b : Nat) : Nat :=
  let t := x.engineTime
  let sb := if x.inb then x.headLen else x.passLen
  let auth := ((x.head.filter (fun s => s.cov == 1)).map (·.size)).foldl (· + ·) 0
  let bodyAuth := x.bodyStep.cov == 1
  let na := ceilDiv (auth + if bodyAuth then x.bodyLen else 0) 16
  let np := if x.cipher then ceilDiv x.bodyWire t.unit else 0
  let aad := blocksIn 16 t.aadFree na (if first then 0 else auth + (a - sb)) (if last || !bodyAuth then 16 * na else auth + (b - sb))
  let pay := blocksIn t.unit 0 np (a - sb) (if last then t.unit * np else b - sb)
  t.aadPer * aad + t.per * pay

/-- Lane time that applies to a request. -/
def State.timeOf (s : State) (r : Req) : LaneTime :=
  if opTransform (dOp r.d) then (match s.sxOf r r.ctxKey with | some x => x.engineTime | none => {})
  else laneTime (dOp r.d) r.nonce.length

/-- Lane cycles of stroke `k` at cycle-skip step 0, without set-up and finalisation (R266): a block counts in the stroke that
holds its first byte. -/
def State.strokeCycles (s : State) (r : Req) (k : Nat) : Nat :=
  let d := r.d
  let op := dOp d
  let K := passStrokes d
  let (a, b) := strokeSpan d (if K ≤ k then k - K else k)
  if opTransform op then (match s.sxOf r r.ctxKey with | some x => x.strokeCycles (k == 0) (k + 1 == K) a b | none => 0)
  else if op = 0x23 ∨ op = 0x24 then wrapCycles d
  else
    let t := laneTime op r.nonce.length
    let A := dAad d
    let pre := if (op = 0x1A ∨ op = 0x1B) ∧ A ≠ 0 then (if A ≤ 65279 then 2 else 6) else 0
    let np := ceilDiv (srcSize d - A) t.unit
    let np := if op = 0x1E ∨ op = 0x1F then max 1 np else np
    let last := k + 1 = K ∨ k + 1 = 2 * K
    let aad := blocksIn 16 t.aadFree (ceilDiv (A + pre) 16) (if a = 0 then 0 else a + pre) (b + pre)
    let pay := blocksIn t.unit 0 np (a - A) (if last then t.unit * np else b - A)
    t.aadPer * aad + t.per * pay

/-- Lane cycles at a cycle-skip step (R296): the time grows by 16 / (16 - step), rounded up to a whole cycle. -/
def skipCycles (step c : Nat) : Nat := ceilDiv (c * 16) (16 - step)

/-- A lane has spent cycles. -/
def State.laneBusy (s : State) (n c : Nat) : State := s.addBusy n (skipCycles (s.ageU n).step c)

/-- CCM takes two lanes (R279). -/
def dPair (d : Bytes) : Bool := dOp d == 0x1A || dOp d == 0x1B

/-- Set-up cycles of stroke `k`: once, or once for each piece of a split request (R266). -/
def State.setupCycles (s : State) (r : Req) (k : Nat) : Nat :=
  if k = 0 ∨ (dSplits r.d ∧ k < r.home.length) then (s.timeOf r).setup else 0

/-- The cycles of a stroke that has committed on lane `n`, with the finalisation where it ends its request: a split request's on
the lane of piece 0, a CCM request's on both lanes of its pair, or twice on the spare that runs both halves of a retried CCM stroke
(R266, R279, R290, R292). -/
def State.laneSpent (s : State) (n : Nat) (r : Req) (w : Run) : State :=
  let c := s.strokeCycles r w.k + s.setupCycles r w.k
  let fin := if (s.ended { r with committed := r.committed ++ [w.k] }).isSome then (s.timeOf r).fin else 0
  if dSplits r.d then
    let s := s.laneBusy n c
    if fin = 0 then s else s.laneBusy (r.home.getD 0 n) fin
  else
    match w.pair with
    | some m => (s.laneBusy n (c + fin)).laneBusy m (c + fin)
    | none => s.laneBusy n (if dPair r.d then 2 * (c + fin) else c + fin)

/-- A stroke that fails its check stops at the first mismatch (R291): how many of its cycles it has spent is a free value, on either lane
of a CCM pair. -/
def State.laneStopped (s : State) (n : Nat) (w : Run) : State :=
  match s.req w.id with
  | none => s
  | some r =>
    let c := s.strokeCycles r w.k + s.setupCycles r w.k
    let s' := ({ s with free := s.free + 2 } : State).laneBusy n (Config.freeNat s.free % (c + 1))
    match w.pair with
    | some m => s'.laneBusy m (Config.freeNat (s.free + 1) % (c + 1))
    | none => s'

-- digest engines -------------------------------------------------------------------------------------------------------------

/-- Hash of a request that uses a digest engine. -/
def Req.halg (r : Req) : Halg :=
  if dOp r.d = 0x30 ∨ dOp r.d = 0x31 then (Halg.ofCode (dHalg r.d)).getD .sha256 else (algHash (Hdr.ofNat r.hdr).alg).getD .sha256

/-- Blocks that end in a digest stroke: one that straddles a boundary is completed in the next stroke (R318). -/
def digAbsorbed (r : Req) (k : Nat) : Nat :=
  let (x, y) := strokeSpan r.d k
  y / r.halg.block - x / r.halg.block

/-- Compressions and permutations of the finalisation: those of a SHAKE output come with the stroke that releases their first byte. -/
def digFinal (r : Req) (k : Nat) : Nat :=
  if dXof r.d then
    let j := k + 1 - passStrokes r.d
    if k + 1 < passStrokes r.d then 0
    else (ceilDiv (min (dAuxLen r.d) (16384 * (j + 1))) r.halg.block - 1) - (ceilDiv (min (dAuxLen r.d) (16384 * j)) r.halg.block - 1)
  else if k + 1 = r.strokes ∧ (dOp r.d = 0x32 ∨ dOp r.d = 0x33) then 1
  else 0

/-- Bytes of the inner message of a combined request that lie before source byte `p` (R287): the ciphertext of a CBC block
comes with its last byte. -/
def combBefore (d : Bytes) (p : Nat) : Nat :=
  let A := dAuxLen d
  if p < A then p
  else A + (if dPbit d 8 then 16 else 0) + (if dOp d = 0x42 then p - A else (p - A) / 16 * 16)

/-- Compressions of a combined stroke (R287, R288): the last stroke of the hashing pass takes the padding and the outer hash. -/
def combBlocks (r : Req) (k : Nat) : Nat :=
  let K := passStrokes r.d
  if K ≤ k then 0 else
  let (x, y) := strokeSpan r.d k
  let B := r.halg.block
  let m := combBefore r.d
  if k + 1 = K then (m y + fieldLE r.param 17 1) / B - m x / B + 1 else m y / B - m x / B

/-- Compressions that a digest stroke runs. -/
def digBlocks (r : Req) (k : Nat) : Nat := digAbsorbed r k + digFinal r k

/-- Digest cycles of a stroke (R318): set-up with the first, finalisation with the last. -/
def digCycles (r : Req) (k : Nat) : Nat :=
  r.halg.cycles * digBlocks r k + (if k = 0 then 4 else 0) + (if k + 1 = r.strokes then 4 else 0)

/-- A digest stroke has committed on engine `e`. -/
def State.digSpent (s : State) (e : Nat) (r : Req) (k : Nat) : State :=
  (s.digCount e .digBlockCount false (digBlocks r k)).addBusy (9 + e) (digCycles r k)

/-- A digest stroke has failed its check: how far it has run is a free value. -/
def State.digStopped (s : State) (e : Nat) (w : Run) : State :=
  match s.req w.id with
  | none => s
  | some r =>
    let s' : State := { s with free := s.free + 2 }
    (s'.digCount e .digBlockCount false (Config.freeNat s.free % (digBlocks r w.k + 1))).addBusy (9 + e)
      (Config.freeNat (s.free + 1) % (digCycles r w.k + 1))

/-- A combined stroke has used digest engine `e`: its compressions count, the engine's time beside the lane is a free value (the
source states none). -/
def State.combSpent (s : State) (e : Nat) (r : Req) (k : Nat) : State :=
  let s' : State := { s with free := s.free + 1 }
  (s'.digCount e .digBlockCount false (combBlocks r k)).addBusy (9 + e) (Config.freeNat s.free)

end Sys2Proof.Machine
end

