-- ==== Sys2Proof/Machine/Sched.lean ====
section
/-! DEFINITION. The scheduler (R200-R222, R279, R292-R294, R564, R565): eligibility, the arbiters' choice, first grants,
strokes, retries and moves. -/
namespace Sys2Proof.Machine

-- the gate list (R208-R215) ------------------------------------------------------------------------------------------------

/-- Base time of the list in operation. -/
def State.operBase (s : State) : Nat := (s.reg .gateOperBaseLo).toNat + (s.reg .gateOperBaseHi).toNat * 2 ^ 32

/-- Spans of a cycle of the list in operation: start, end, whether the gate is open. -/
def State.gateSpans (s : State) (g : Nat) : List (Nat × Nat × Bool) :=
  (gateSpansF (s.reg .gateOperLen).toNat 0 0 (s.reg .gateOperCycle).toNat
    (fun i => (s.reg .gateOperIvl 0 i).toNat) (fun i => (s.reg .gateOperGates 0 i).toNat)).map
    (fun x => (x.1, x.2.1, x.2.2 / 2 ^ g % 2 == 1))

/-- How far before position `p` of the cycle a window that contains it opened, walking back over open spans of this cycle
and the one before; none where the gate is closed at `p`. -/
def openSince (cycle : Nat) (sp : List (Nat × Nat × Bool)) (p : Nat) : Option Nat :=
  let back := (sp.map (fun x => (x.1 + cycle, x.2.1 + cycle, x.2.2))).reverse ++ sp.reverse
  let past := back.dropWhile (fun x => decide (p + cycle < x.1))
  match past.takeWhile (fun x => x.2.2) with
  | [] => none
  | l => if l.length = past.length then none else (l.getLast?).map (fun x => p + cycle - x.1)

/-- The window of a gate that contains an instant: when it opened (R209, R210). A window that was open when the list took
effect opened then. -/
def State.windowAt (s : State) (g t : Nat) : Option Nat :=
  let cycle := (s.reg .gateOperCycle).toNat
  if ¬ s.gate.oper ∨ cycle = 0 ∨ t < s.operBase ∨ t < s.gate.since then none else
  let sp := s.gateSpans g
  let p := (t - s.operBase) % cycle
  if ¬ sp.any (fun x => decide (x.1 ≤ p) && decide (p < x.2.1) && x.2.2) then none
  else match openSince cycle sp p with
    | some d => some (max (t - d) s.gate.since)
    | none => some s.gate.since

/-- The class in which a request is scheduled now (R211, R212, R215): 2 gate-locked, 1 priority, 0 bulk; none where it waits
for an interval. -/
def State.effClass (s : State) (r : Req) : Option Nat :=
  if r.cls ≠ 2 then some r.cls
  else if r.fallen ∨ ¬ s.gated then some 1
  else
    let g := s.gateOf r.f r.n
    if r.started then some (if s.gate.elig.any (fun e => e.g == g && r.bound == some e.opens) then 2 else 1)
    else if ¬ s.gateOpens g then some 1
    else if s.gate.elig.any (fun e => e.g == g) then some 2 else none

/-- LATE at a grant (R212, R213, R215). -/
def State.lateNow (s : State) (r : Req) : Bool :=
  r.late || (r.cls == 2 && (!s.gated || (!r.started && (match r.bound with | some t => decide (t < s.now) | none => true))))

/-- The interval that a request holds from its first grant on. -/
def State.bindStart (s : State) (r : Req) : Req :=
  if r.cls ≠ 2 then r else
  match (if s.gated ∧ ¬ r.fallen then s.gate.elig.find? (fun e => e.g == s.gateOf r.f r.n) else none) with
  | some e => { r with bound := some e.opens }
  | none => { r with fallen := true }

-- engines --------------------------------------------------------------------------------------------------------------------

/-- Lane `n` is in service (R36): neither retired, nor the reserve, nor under test. -/
def State.laneIn (s : State) (n : Nat) : Bool := decide (n < 9) && !s.retired n && s.reserve != some n && !(s.lane n).test

/-- Lane `n` is powered, clocked and at a stroke boundary. -/
def State.laneIdle (s : State) (n : Nat) : Bool := (s.lane n).run.isNone && s.islandUp n && s.clkOk 4

/-- The lane that is to take the reserve role, while the rotation waits for the end of its stroke (R36). -/
def State.leaving (s : State) : Option Nat :=
  match s.reserve with
  | some m =>
    let n := (m + 1) % 9
    if s.sched.rotate ∧ s.sched.laneRetry = [] ∧ (s.lane m).run.isNone ∧ ¬ (s.lane m).test ∧ ¬ (s.lane n).test then some n else none
  | none => none

/-- A free state bank. -/
def Eng.room (x : Eng) : Bool := decide (x.banks.length < 4)

/-- Lanes in service with a free bank, in rising order from `n` upward, wrapping, `n` excluded. -/
def State.lanesAfter (s : State) (n : Nat) : List Nat :=
  ((List.range 8).map (fun i => (n + 1 + i) % 9)).filter (fun m => s.laneIn m && (s.lane m).room)

/-- The pieces of a request at its first grant on lane `n` (R220, R221, R279): its home lanes. -/
def State.pieces (s : State) (d : Bytes) (n : Nat) : List Nat :=
  if dPair d then n :: (s.lanesAfter n).take 1
  else if ¬ dSplits d then [n]
  else
    let others := (List.range 9).filter (fun m => m != n && s.laneIn m && (s.lane m).room)
    let p := min (fld (s.reg .schedCfg) 3 0) (min (1 + others.length) (strokeCount d))
    n :: others.take (p - 1)

-- the persistent counter (R527-R529, R565) --------------------------------------------------------------------------------------

/-- A draw of the function's persistent counter can be made at once, or will never be made. -/
def State.sealReady (s : State) (f : Nat) : Bool :=
  let x := s.fn f
  x.sealDead || (x.sealStarted && decide (x.sealHigh ≤ s.sealH f))

/-- The next value of the counter, none where no draw is made any more (R349, R529). -/
def State.sealNext (s : State) (f : Nat) : Option Nat :=
  let x := s.fn f
  let v := x.sealHigh * 2 ^ 16 + x.sealLow
  if ¬ x.sealStarted ∨ s.sealH f < x.sealHigh ∨ 2 ^ 64 - 1 ≤ v then none else some v

/-- Draw it (R528): the advance is asked for when the low 16 bits reach 0xC000. -/
def State.sealDraw (s : State) (f : Nat) : State :=
  let x := s.fn f
  let s := s.setFn f (if x.sealLow = 0xFFFF then { x with sealLow := 0, sealHigh := x.sealHigh + 1 } else { x with sealLow := x.sealLow + 1 })
  if x.sealLow = 0xC000 then s.sealAdvanceStart f else s

-- readiness ---------------------------------------------------------------------------------------------------------------------

/-- A stroke of a request that is running or waits for a retry. -/
def State.strokesOut (s : State) (id : Nat) : List Nat :=
  let on := fun (x : Eng) => match x.run with | some w => if w.id = id then [w.k] else [] | none => []
  (List.range 9).flatMap (fun n => on (s.lane n)) ++ (List.range 4).flatMap (fun e => on (s.dig e))
    ++ ((s.sched.laneRetry ++ s.sched.digRetry).filter (fun w => w.id == id)).map (·.k)

/-- Next stroke of a started request for engine `n` (R220, R221). -/
def State.nextOn (s : State) (r : Req) (n : Nat) : Option Nat :=
  let out := s.strokesOut r.id
  if dSplits r.d then
    let P := r.home.length
    let i := r.home.findIdx (· == n)
    if P ≤ i ∨ out.any (fun k => k % P == i) then none
    else ((List.range r.strokes).filter (fun k => k % P == i)).find? (fun k => !r.committed.contains k)
  else if r.home.head? ≠ some n ∨ out ≠ [] ∨ r.strokes ≤ r.committed.length then none
  else some r.committed.length

/-- The partner lane of a CCM stroke can take its grant in the same arbitration (R279). -/
def State.pairReady (s : State) (r : Req) (n : Nat) : Bool :=
  match (if r.started then r.home.drop 1 else (s.lanesAfter n).take 1) with
  | m :: _ => s.laneIn m && s.laneIdle m
  | [] => false

/-- A request has a stroke ready for lane `n` (R202, R204, R205). -/
def State.readyLane (s : State) (r : Req) (n : Nat) : Bool :=
  opLane (dOp r.d) && s.fnRuns r.f && s.live
  && (!opCombined (dOp r.d) || (s.digFor []).isSome)
  && (!dPair r.d || s.pairReady r n)
  && (if r.started then r.stage == .running && (s.nextOn r n).isSome
      else r.stage == .ready && s.mayStart r && (s.lane n).room && (dOp r.d != 0x52 || s.sealReady r.f))

/-- A request has a stroke ready for digest engine `e`. -/
def State.readyDig (s : State) (r : Req) (e : Nat) : Bool :=
  opDigest (dOp r.d) && s.fnRuns r.f && s.live && !s.sched.digMove.contains r.id
  && (if r.started then r.stage == .running && (s.nextOn r e).isSome else r.stage == .ready && s.mayStart r && (s.dig e).room)

-- arbitration (R203, R205, R206) ---------------------------------------------------------------------------------------------------

/-- A candidate: class, ring, the request, and the credits that the grant takes. -/
structure Cand where
  cls : Nat
  g : Nat
  id : Nat
  adm : Nat
  cost : Nat := 1
deriving DecidableEq, Repr

/-- Candidates among the requests that `ready` accepts, in the order of admission. -/
def State.cands (s : State) (ready : Req → Bool) : List Cand :=
  sortBy (fun a b => decide (a.adm ≤ b.adm)) ((s.reqs.filter ready).filterMap (fun r => (s.effClass r).map (fun c =>
    ({ cls := c, g := ringG r.f r.n, id := r.id, adm := r.adm, cost := if dPair r.d then 2 else 1 } : Cand))))

/-- WEIGHT of a ring. -/
def State.weight (s : State) (g : Nat) : Nat := fld (s.reg .ringSched (ringF g) (ringN g)) 15 8

/-- Credit of a ring in a class of an arbiter. -/
def State.credit (s : State) (key g : Nat) : Nat := tget (fun _ => 1) s.sched.credit (key * 2048 + g)

/-- Set a ring's credit. -/
def State.setCredit (s : State) (key g v : Nat) : State :=
  { s with sched := { s.sched with credit := tset (fun _ => 1) s.sched.credit (key * 2048 + g) v } }

/-- Every ring's credit in a class is set to WEIGHT. -/
def State.newRound (s : State) (key : Nat) : State :=
  let s : State := { s with sched := { s.sched with began := if s.sched.began.contains key then s.sched.began else key :: s.sched.began } }
  (List.range 1040).foldl (fun s g => if s.credit key g = s.weight g then s else s.setCredit key g (s.weight g)) s

/-- The first of some rings in rising order behind the pointer, the pointer's own ring last. -/
def ringAfter (p : Nat) (gs : List Nat) : Option Nat :=
  let key := fun (g : Nat) => (g + 2080 - p - 1) % 1040
  gs.find? (fun g => gs.all (fun x => decide (key g ≤ key x)))

/-- The ring that a class of an arbiter grants among the eligible ones (R205). The first grant of a class after a block reset finds the
pointer at ring 0 with a new round (R206, its example; DEDUCED, log entry 23). -/
def State.pickRing (s : State) (key : Nat) (gs : List Nat) : State × Option Nat :=
  let p := tget (fun _ => 0) s.sched.ptr key
  let s := if gs = [] ∨ s.sched.began.contains key = true then s else s.newRound key
  if gs.contains p ∧ 0 < s.credit key p then (s, some p)
  else match ringAfter p (gs.filter (fun g => decide (0 < s.credit key g))) with
    | some g => (s, some g)
    | none => if gs = [] then (s, none) else
      let s := s.newRound key
      (s, ringAfter p (gs.filter (fun g => decide (0 < s.credit key g))))

/-- The class of a grant (R203), and whether it is contended. -/
def State.pickClass (s : State) (arb : Nat) (cs : List Cand) : Option (Nat × Bool) :=
  let has := fun (c : Nat) => cs.any (fun x => x.cls == c)
  if has 2 then some (2, false)
  else if has 1 ∧ has 0 then
    let bulk := ((tget (fun _ => []) s.sched.recent arb).filter id).length
    some (if bulk < fld (s.reg .schedCfg) 11 8 then 0 else 1, true)
  else if has 1 then some (1, false)
  else if has 0 then some (0, false)
  else none

/-- One grant of an arbiter: the candidate chosen, with class, credit, pointer and contended grants accounted. A CCM stroke, which takes
two grants (R279), is granted to a ring with one credit left, whose credit is then 0 (DESIGN CHOICE, log entry 13). -/
def State.arbitrate (s : State) (arb : Nat) (cs : List Cand) : State × Option Cand :=
  match s.pickClass arb cs with
  | none => (s, none)
  | some (c, contended) =>
    let key := arb * 3 + c
    match s.pickRing key ((cs.filter (fun x => x.cls == c)).map (·.g)) with
    | (s, none) => (s, none)
    | (s, some g) =>
      match cs.find? (fun x => x.cls == c && x.g == g) with
      | none => (s, none)
      | some x =>
        let s := s.setCredit key g (s.credit key g - x.cost)
        let old := tget (fun _ => []) s.sched.recent arb
        let recent := if contended then (List.replicate x.cost (c == 0) ++ old).take 15 else old
        ({ s with sched := { s.sched with ptr := tset (fun _ => 0) s.sched.ptr key g
                                          recent := tset (fun _ => []) s.sched.recent arb recent } }, some x)

-- grants -------------------------------------------------------------------------------------------------------------------------------

/-- What every first grant does to a request: it starts, its data are read afresh, LATE and its interval are fixed. -/
def State.firstGrant (s : State) (r : Req) (home : List Nat) : State × Req :=
  let late := s.lateNow r
  let r := { (s.bindStart r) with stage := .running, started := true, late := late, rbuf := [], home := home
                                  grantNo := s.nextId }
  ({ (s.setReq r) with nextId := s.nextId + 1 }, r)

/-- A later grant while no gated service is possible makes a gate-locked request LATE (R212). -/
def State.laterGrant (s : State) (r : Req) : State × Req :=
  let r := { r with late := s.lateNow r }
  (s.setReq r, r)

/-- Put a run on a lane, with its digest engine and partner. -/
def State.placeLane (s : State) (n : Nat) (w : Run) : State := s.setLane n { s.lane n with run := some w }

/-- Enter a request in the banks of a lane. -/
def State.bankLane (s : State) (id n : Nat) : State :=
  if (s.lane n).banks.contains id then s else s.setLane n { s.lane n with banks := (s.lane n).banks ++ [id] }

/-- The reserve lane's island is up while any lane has a stroke in progress (R292). -/
def State.wakeReserve (s : State) : State :=
  match s.reserve with
  | some m => s.islWake m
  | none => s

/-- The stroke of a granted request starts on lane `n`. A combined stroke takes a digest engine with it (R201); a transform stroke takes
none, since no stencil has a step that a digest engine runs (DEDUCED, log entry 51). -/
def State.startLane (s : State) (r : Req) (n k : Nat) : State :=
  let dg := if opCombined (dOp r.d) then s.digFor [] else none
  let pr := if dPair r.d then (r.home.drop 1).head? else none
  let s := s.wakeReserve.placeLane n { id := r.id, k := k, digest := dg, pair := pr }
  match pr with
  | some m => s.placeLane m { id := r.id, k := k, src := some [], out := some [], pair := some n }
  | none => s

/-- The first grant of a lane request on lane `n`: banks, pieces, the seal point of a SEAL (R349), the first stroke. -/
def State.firstLane (s : State) (r : Req) (n : Nat) : State :=
  let home := s.pieces r.d n
  let (s, r) := s.firstGrant { r with first := n } home
  let s := home.foldl (fun (s : State) m => s.bankLane r.id m) s
  if dOp r.d ≠ 0x52 then s.startLane r n 0
  else match s.sealNext r.f with
    | none => s.fail r stSeqExhausted 0
    | some v =>
      let r := { r with seq := v, drawn := true, sealTime := s.now, sealSync := s.time.sync }
      (((s.setReq r).sealDraw r.f)).startLane r n 0

/-- A grant of the lane arbiter to lane `n` (R201-R206). -/
def State.grantLane (s : State) (n : Nat) : State :=
  if ¬ s.live ∨ ¬ s.laneIn n ∨ ¬ s.laneIdle n ∨ s.leaving = some n then s else
  match s.arbitrate 0 (s.cands (fun r => s.readyLane r n)) with
  | (s, none) => s
  | (s, some c) =>
    match s.req c.id with
    | none => s
    | some r =>
      if ¬ r.started then s.firstLane r n
      else match s.nextOn r n with
        | none => s
        | some k => let (s, r) := s.laterGrant r; s.startLane r n k

/-- A grant of the digest arbiter to engine `e`; a gallery extension that waits takes the first free engine ahead of it (R324). -/
def State.grantDig (s : State) (e : Nat) : State :=
  if ¬ s.live ∨ ¬ s.digFree e then s else
  match s.arbitrate 1 (s.cands (fun r => s.readyDig r e)) with
  | (s, none) => s
  | (s, some c) =>
    match s.req c.id with
    | none => s
    | some r =>
      match (if r.started then s.nextOn r e else some 0) with
      | none => s
      | some k =>
        let (s, r) := if r.started then s.laterGrant r else s.firstGrant r [e]
        let x := s.dig e
        s.setDig e { x with banks := if x.banks.contains r.id then x.banks else x.banks ++ [r.id], run := some { id := r.id, k := k } }

-- retries (R30-R33, R292, R564) --------------------------------------------------------------------------------------------------------

/-- The lane that a waiting retry takes now: the reserve, or, with no reserve left or once an attempt of the stroke has
failed on it, the lowest lane in service at a stroke boundary on which none has (R30, R292). -/
def State.spareLane (s : State) (w : Run) : Option Nat :=
  let other := (List.range 9).find? (fun m => s.laneIn m && s.laneIdle m && !w.failed.contains m)
  match s.reserve with
  | some m =>
    if w.failed.contains m then other
    else if (s.lane m).run.isNone ∧ s.islandUp m ∧ s.clkOk 4 then some m else none
  | none => other

/-- The digest engine that a waiting retry takes now. -/
def State.spareDig (s : State) (w : Run) : Option Nat := s.digFor w.failed

/-- A self-test of unit `u`, of the field or commanded, is abandoned (R31, R545, R546). -/
def State.abandonTest (s : State) (u : Nat) : State :=
  let b := { s.bist with field := s.bist.field.filter (fun x => x.1 != u) }
  { s with bist := if b.busy ∧ b.unit = u then { b with busy := false, done := true, pass := false, abandoned := true } else b }

/-- Waiting lane retries start on the spare, that of a combined stroke with a digest engine on which none of its attempts failed. -/
def State.takeLaneRetry (s : State) : State :=
  match s.sched.laneRetry with
  | [] => s
  | w :: t =>
    match s.spareLane w with
    | none => s
    | some m =>
      let comb : Bool := (match s.req w.id with | some r => opCombined (dOp r.d) | none => false)
      let dg := if comb then s.digFor w.failedDig else none
      if comb = true ∧ dg = none then s else
      let s := { (s.abandonTest m) with sched := { s.sched with laneRetry := t } }
      s.setLane m { s.lane m with test := false, run := some { w with digest := dg } }

/-- Waiting digest retries start on the first engine. -/
def State.takeDigRetry (s : State) : State :=
  match s.sched.digRetry with
  | [] => s
  | w :: t =>
    match s.spareDig w with
    | none => s
    | some e => ({ s with sched := { s.sched with digRetry := t } } : State).setDig e { s.dig e with run := some w }

/-- A request of a retired digest engine moves to the first engine with a free bank (R564). -/
def State.takeDigMove (s : State) : State :=
  match s.sched.digMove with
  | [] => s
  | id :: t =>
    match (List.range 4).find? (fun e => s.digFree e && (s.dig e).room), s.req id with
    | some e, some r =>
      let s : State := { s with sched := { s.sched with digMove := t } }
      (s.setReq { r with home := [e] }).setDig e { s.dig e with banks := (s.dig e).banks ++ [id] }
    | _, none => { s with sched := { s.sched with digMove := t } }
    | none, _ => s

/-- Retries and moves go ahead of every grant. -/
def State.takeRetries (s : State) : State :=
  if ¬ s.live then s else
  let s := iterate s.sched.laneRetry.length State.takeLaneRetry s
  let s := iterate s.sched.digRetry.length State.takeDigRetry s
  iterate s.sched.digMove.length State.takeDigMove s

/-- The lane that runs the main part of a stroke: for the partner of a CCM stroke, its home lane. -/
def State.mainLane (s : State) (n : Nat) : Nat :=
  match (s.lane n).run with
  | some w =>
    (match w.pair, (s.req w.id).bind (fun r => r.home.head?) with
     | some m, some h => if m = h then m else n
     | _, _ => n)
  | none => n

/-- Take the run off a lane and off its partner. -/
def State.clearLane (s : State) (n : Nat) : State :=
  match (s.lane n).run with
  | none => s
  | some w =>
    let s := s.setLane n { s.lane n with run := none }
    match w.pair with
    | some m => s.setLane m { s.lane m with run := none }
    | none => s

/-- A stroke on lane `n` fails its check with attempt `w` (R30, R33): the event `src`, and the retry, or LANE_LOST after a
third attempt (R33). -/
def State.failLane (s : State) (n src : Nat) (inj : Bool) (detail : Nat := 0) : State :=
  match (s.lane (s.mainLane n)).run with
  | none => s
  | some w =>
    let s := (s.clearLane (s.mainLane n)).laneStopped (s.mainLane n) w
    let s := (s.laneCount n .laneRetryCount true).capture src detail 31 inj
    if s.blk.frozen then s
    else if 3 ≤ w.attempt then s.capture 0x29
    else
      let s : State := { s with sched := { s.sched with
        laneRetry := s.sched.laneRetry ++ [{ w with attempt := w.attempt + 1, failed := w.failed ++ [n], out := none, digest := none, pair := none }] } }
      s.takeRetries

/-- The lane whose combined stroke uses digest engine `e`. -/
def State.combinedOn (s : State) (e : Nat) : Option Nat :=
  (List.range 9).find? (fun n => match (s.lane n).run with | some w => w.digest == some e | none => false)

/-- A combined stroke on lane `n` fails the check of its digest engine `e` (R30, R33): the whole stroke is run again. -/
def State.failCombined (s : State) (n e : Nat) (inj : Bool) (detail : Nat) : State :=
  match (s.lane n).run with
  | none => s
  | some w =>
    let s := (s.clearLane n).laneStopped n w
    let s := (s.digCount e .digRetryCount true).capture (0x40 + e) detail 31 inj
    if s.blk.frozen then s
    else if 3 ≤ w.attempt then s.capture 0x44
    else
      let s : State := { s with sched := { s.sched with
        laneRetry := s.sched.laneRetry ++ [{ w with attempt := w.attempt + 1, failedDig := w.failedDig ++ [e], out := none, digest := none, pair := none }] } }
      s.takeRetries

/-- A stroke on digest engine `e` fails its check. -/
def State.failDig (s : State) (e : Nat) (inj : Bool) (detail : Nat := 0) : State :=
  match (s.dig e).run with
  | none => (match s.combinedOn e with | some n => s.failCombined n e inj detail | none => s)
  | some w =>
    let s := (s.setDig e { s.dig e with run := none }).digStopped e w
    let s := (s.digCount e .digRetryCount true).capture (0x40 + e) detail 31 inj
    if s.blk.frozen then s
    else if 3 ≤ w.attempt then s.capture 0x44
    else
      let s : State := { s with sched := { s.sched with
        digRetry := s.sched.digRetry ++ [{ w with attempt := w.attempt + 1, failed := w.failed ++ [e], out := none }] } }
      s.takeRetries

-- commit of a stroke (R18) ---------------------------------------------------------------------------------------------------------------

/-- The stroke has been run before. -/
def Run.again (w : Run) : Bool := w.failed != [] || w.failedDig != []

/-- A stroke of request `r` has committed on unit `u` with output `out`: its bytes drain to memory, and after the last one the request
reaches its commit point. None where the acceptance of its value must wait for a reservation (R241). -/
def State.commitStroke (s : State) (r : Req) (u : Nat) (w : Run) (out : Bytes) : Option State :=
  let r' := { r with committed := r.committed ++ [w.k], written := r.written + out.length
                     wrote := r.wrote ++ (segPlace (tget (fun _ => []) r.dsts w.k) out).map (fun p => (p.1, p.2.length))
                     retried := r.retried || w.again }
  match s.ended r' with
  | none => some ((s.setReq r').writeStroke r' u w.k out)
  | some x =>
    match (match x.accept with | some v => s.acceptWait r' v | none => none) with
    | some (some _) => none
    | some none => some (((s.setReq r').writeStroke r' u w.k out).fail r' stSeqExhausted 0)
    | none => some (((s.setReq r').writeStroke r' u w.k out).finish r' x)

/-- Ask for the reservation that an acceptance waits for. -/
def State.askReserve (s : State) (r : Req) (w : Run) : State :=
  let r' := { r with committed := r.committed ++ [w.k] }
  match s.ended r' with
  | some x => (match x.accept with
    | some v => (match s.acceptWait r' v with | some (some s') => s' | _ => s)
    | none => s)
  | none => s

/-- An armed injection that makes the stroke on lane `n` fail (R514): at the comparator of the lane, of its partner in a CCM pair (R279) or
of its digest engine, or two inverted check bits in the lane's memories. -/
def State.injected (s : State) (n : Nat) (w : Run) : Option State :=
  if s.armedChecker = some (0x20 + n) then some (s.injFired.failLane n (0x20 + n) true)
  else if s.wordStrike 0x39 = some true then some (s.injFired.failLane n (0x30 + n) true)
  else match w.pair, w.digest with
    | some m, _ => if s.armedChecker = some (0x20 + m) then some (s.injFired.failLane m (0x20 + m) true) else none
    | none, some e => if s.armedChecker = some (0x40 + e) then some (s.injFired.failCombined n e true 0) else none
    | none, none => none

/-- The stroke on lane `n` has passed its duplicate check (R18), unless an injection strikes; it ends only when its half of the write
buffer is free (R295). -/
def State.commitLane (s : State) (n : Nat) : State :=
  let n := s.mainLane n
  match (s.lane n).run with
  | none => s
  | some w =>
    match s.req w.id, w.out with
    | some r, some out =>
      if ¬ s.live ∨ ¬ s.clkOk 4 ∨ ¬ s.fnRuns r.f ∨ s.bufferFull n = true then s
      else
      let s := s.singleStrike 0x39 0x39 0
      match s.injected n w, s.auxFail r w.k, s.commitStroke r n w out with
        | some s, _, _ => s
        | none, some x, _ => s.haltReq r 7 x
        | none, none, none => s.askReserve r w
        | none, none, some _ =>
          let s := (s.clearLane n).laneSpent n r w
          let s := s.laneCount n .laneStrokeCount false
          let s := match w.pair with | some m => s.laneCount m .laneStrokeCount false | none => s
          let s := match w.digest with | some e => s.combSpent e r w.k | none => s
          let s := if w.again then s.laneCount n .laneCoverCount true else s
          (s.commitStroke r n w out).getD s
    | _, _ => s

/-- The stroke on digest engine `e` has passed its duplicate check. -/
def State.commitDig (s : State) (e : Nat) : State :=
  match (s.dig e).run with
  | none => s
  | some w =>
    match s.req w.id, w.out with
    | some r, some out =>
      if ¬ s.live ∨ ¬ s.clkOk 5 ∨ ¬ s.fnRuns r.f then s
      else if s.armedChecker = some (0x40 + e) ∨ s.wordStrike 0x47 = some true then s.injFired.failDig e true
      else
      let s := s.singleStrike 0x47 0x47 0
      match s.auxFail r w.k with
      | some x => s.haltReq r 7 x
      | none =>
        let s := s.setDig e { s.dig e with run := none }
        let s := s.digSpent e r w.k
        let s := if w.failed = [] then s else s.digCount e .digCoverCount true
        (s.commitStroke r (9 + e) w out).getD s
    | _, _ => s

-- retirement and rotation (R35, R36, R293, R564) --------------------------------------------------------------------------------------------

/-- Banks and homes of lane `a` pass to lane `b` (R36, R293). -/
def State.handBanks (s : State) (a b : Nat) : State :=
  let s := s.setLane b { s.lane b with banks := (s.lane b).banks ++ (s.lane a).banks }
  let s := s.setLane a { s.lane a with banks := [] }
  { s with reqs := s.reqs.map (fun r => if opLane (dOp r.d) ∧ r.home.contains a then { r with home := r.home.map (fun h => if h = a then b else h) } else r) }

/-- Lane `n` is retired: its stroke becomes a retry, the reserve enters service with its banks, and no reserve is left. -/
def State.retireLane (s : State) (n : Nat) : State :=
  let s := match (s.lane (s.mainLane n)).run with
    | none => s
    | some w =>
      let s := s.clearLane (s.mainLane n)
      { s with sched := { s.sched with laneRetry := s.sched.laneRetry ++ [{ w with failed := w.failed ++ [n], out := none, digest := none, pair := none }] } }
  let s := s.setLane n { s.lane n with test := false }
  match s.reserve with
  | some m => let s : State := { s with reserve := none }
              if m = n then s else (s.abandonTest m).setLane m { s.lane m with test := false } |>.handBanks n m
  | none =>
    match (List.range 9).find? (fun m => s.laneIn m && m != n) with
    | some m => s.handBanks n m
    | none => s

/-- Digest engine `e` is retired: the requests it held move (R564), its running stroke is granted again. -/
def State.retireDig (s : State) (e : Nat) : State :=
  let held := sortBy (fun a b => decide (a.grantNo ≤ b.grantNo)) (s.reqs.filter (fun r => (s.dig e).banks.contains r.id))
  let s := held.foldl (fun (s : State) r => s.setReq { r with retried := true, home := [] }) s
  let foreign := match (s.dig e).run with | some w => if (s.dig e).banks.contains w.id then [] else [{ w with failed := w.failed ++ [e], out := none }] | none => []
  ({ s with sched := { s.sched with digMove := s.sched.digMove ++ held.map (·.id), digRetry := s.sched.digRetry ++ foreign } } : State).setDig e {}

/-- A combined stroke that used a retired digest engine takes another one. -/
def State.redirectDig (s : State) (e : Nat) : State :=
  (List.range 9).foldl (fun (s : State) n => match (s.lane n).run with
    | some w => if w.digest = some e then s.placeLane n { w with digest := s.freeDig } else s
    | none => s) s

/-- The reserve role passes to the next lane number (R36), once the stroke of the lane that leaves service has ended; the rotation waits
too while a retry is pending, and, where R36 is silent, while the reserve lane runs a retry or either lane is under a self-test (DESIGN
CHOICE, log entry 51). It is dropped once a lane has been retired. -/
def State.rotate (s : State) : State :=
  match s.reserve with
  | none => { s with sched := { s.sched with rotate := false } }
  | some m =>
    let n := (m + 1) % 9
    if (List.range 9).any s.retired then { s with sched := { s.sched with rotate := false } }
    else if s.sched.laneRetry ≠ [] ∨ (s.lane n).run.isSome ∨ (s.lane m).run.isSome ∨ (s.lane m).test ∨ (s.lane n).test then
      { s with sched := { s.sched with rotate := true } }
    else { (s.handBanks n m) with reserve := some n, sched := { s.sched with rotate := false } }

/-- Mark a unit under test or back in service. -/
def State.setTest (s : State) (u : Nat) (on : Bool) : State :=
  if u < 9 then s.setLane u { s.lane u with test := on }
  else if u < 13 then s.setDig (u - 9) { s.dig (u - 9) with test := on }
  else s.setEasel (u - 13) { s.easel (u - 13) with test := on }

/-- The tests of a unit in the field, in order: MBIST, LBIST, KAT (R545). -/
def fieldTests : List Nat := [1, 0, 2]

/-- The interval of R36 has expired, or a rotation waits: the lane that takes the reserve role is measured and
then tested where LANE_EN is set (R545). -/
def State.rotateNow (s : State) : State :=
  let t := s.rotate
  if t.reserve = s.reserve then t else
  match t.reserve with
  | some n =>
    if bitOf (t.reg .bistFieldCfg) 31 then
      ({ t with bist := { t.bist with field := t.bist.field ++ [(n, fieldTests)] }
                blk := { t.blk with toMeasure := t.blk.toMeasure.filter (· != n) ++ [n] } } : State).setTest n true
    else t
  | none => t

/-- A rotation that waits goes on. -/
def State.rotateDue (s : State) : State := if s.sched.rotate then s.rotateNow else s

end Sys2Proof.Machine
end

