-- ==== Sys2Proof/Machine/Retire.lean ====
section
/-! DEFINITION. Permanent faults of units (R35, R503, R564, R382, R389) and the margin plan (R534-R541). -/
namespace Sys2Proof.Machine

-- easels -----------------------------------------------------------------------------------------------------------------

/-- Easel `e` is in service (R400). -/
def State.easelIn (s : State) (e : Nat) : Bool := decide (e < 4) && !s.retired (13 + e) && !(s.easel e).test

/-- Replace a computation of an easel. -/
def Easel.setComp (x : Easel) (c : Comp) : Easel := { x with comps := x.comps.map (fun y => if y.id = c.id ∧ ¬ y.dead then c else y) }

/-- The computation that an easel runs. -/
def Easel.comp (x : Easel) : Option Comp := x.running.bind (fun id => x.comps.find? (fun c => c.id == id && !c.dead))

/-- A request's outcome will carry RETRIED (R34). -/
def State.markRetried (s : State) (id : Nat) : State :=
  match s.req id with
  | some r => s.setReq { r with retried := true }
  | none => s

/-- Count on an easel unless its counters are frozen (R400). -/
def State.easelCount (s : State) (e : Nat) (c : RegName) (sat : Bool) : State :=
  if bitOf (s.reg .easelCntCtrl e) 0 then s
  else if sat then s.bumpSat c e else s.bump c e

/-- A compare on easel `e` has failed (R383, R400): it is counted, and the easel is in recovery mode. -/
def State.compareFailed (s : State) (e : Nat) : State :=
  let s := s.easelCount e .easelRetryCount true
  s.setEasel e { s.easel e with recover := fld (s.reg .easelRecover) 8 0 }

/-- Easel `e` is retired: every computation that it holds restarts on another in-service easel; the one that failed goes
first, with its third attempt (R382, R389). -/
def State.retireEasel (s : State) (e : Nat) (third : Option Nat) : State :=
  let held := (s.easel e).comps.filter (fun c => !c.dead)
  let a := (held.filter (fun c => some c.id == third)).map (fun c => (c.id, 3, e))
  let b := (held.filter (fun c => some c.id != third)).map (fun c => (c.id, c.attempt, e))
  let s := match (s.easel e).running with | some id => s.abandonRun id (13 + e) | none => s
  let s := held.foldl (fun (s : State) c => s.markRetried c.id) s
  let s : State := { s with sched := { s.sched with easelMove := s.sched.easelMove ++ a ++ b } }
  s.setEasel e {}

-- units ---------------------------------------------------------------------------------------------------------------------

/-- A test of another unit of the class of `u` is abandoned, and that unit returns (R545, R546). -/
def State.endClassTests (s : State) (u : Nat) : State :=
  let (a, b) := unitClass u
  (List.range 17).foldl (fun (s : State) v =>
    if v = u ∨ v < a ∨ b ≤ v then s
    else if v < 9 then (if (s.lane v).test then (s.abandonTest v).setLane v { s.lane v with test := false } else s)
    else if v < 13 then (if (s.dig (v - 9)).test then (s.abandonTest v).setDig (v - 9) { s.dig (v - 9) with test := false } else s)
    else (if (s.easel (v - 13)).test then (s.abandonTest v).setEasel (v - 13) { s.easel (v - 13) with test := false } else s)) s

/-- Lane, digest engine, easel or port `u` has a permanent fault (R35, R503): it is marked, and its work moves. -/
def State.retireUnit (s : State) (u : Nat) (third : Option Nat := none) : State :=
  if s.retired u then s
  else if u = 17 then s.portFault 0
  else if u = 18 then s.portFault 1
  else
    let s := ((s.markRetired u).abandonTest u).endClassTests u
    if u < 9 then (s.retireLane u).takeRetries
    else if u < 13 then ((s.retireDig (u - 9)).redirectDig (u - 9)).takeRetries
    else s.retireEasel (u - 13) third

-- the margin plan --------------------------------------------------------------------------------------------------------------

/-- LIFE_HOURS (R530). -/
def State.lifeHours (s : State) : Nat := (s.tlyVal 161).toNat % 0x100000
/-- AGE_CFG.LOW. -/
def State.ageLow (s : State) : Nat := fld (s.reg .ageCfg) 9 0
/-- AGE_CFG.VMAX. -/
def State.ageVmax (s : State) : Nat := fld (s.reg .ageCfg) 13 12

/-- Units with cycle skip: lanes and easels (R534). -/
def skips (u : Nat) : Bool := decide (u < 9) || (decide (13 ≤ u) && decide (u < 17))

/-- Record PLAN[u] and raise MARGIN (R535, R538). -/
def State.planWrite (s : State) (u : Nat) : State :=
  let x := s.ageU u
  (s.tlyWrite (128 + u) (at_ x.step 0 ||| flag x.mret 2) 4 [.plan]).capture 0x93 u

/-- Record VPLAN (R538); the recorded V never falls. -/
def State.vplanWrite (s : State) : State :=
  s.tlyWrite 160 (at_ (max s.pwr.v (fld (s.tlyNext 160) 1 0)) 0 ||| flag s.pwr.vref 2) 4 [.plan]

/-- Plan step 4: the unit is to be retired, at the end of its current work (R535). -/
def State.marginRetire (s : State) (u : Nat) : State := (s.setAgeU u { s.ageU u with mret := true }).planWrite u

/-- The voltage step asked for by `u` is in force (R535). -/
def State.vstepTaken (s : State) (u : Nat) : State :=
  (({ s with pwr := { s.pwr with v := s.pwr.vreq, vwait := none } } : State).vplanWrite).capture 0x93 u

/-- Unit `u` asks for a voltage step (R73, R534): the request moves only while `vstep_ack` equals it. -/
def State.askVolt (s : State) (u : Nat) : State :=
  if s.pwr.vwait.isSome then s
  else if s.pwr.vack ≠ s.pwr.vreq then { s with pwr := { s.pwr with vwait := some (some u) } }
  else if s.pwr.v < s.pwr.vreq then s.vstepTaken u
  else { s with pwr := { s.pwr with vwait := some (some u), vreq := s.pwr.vreq + 1 } }

/-- The next plan step of a unit below LOW (R534). While an echo of `vstep_ack` is awaited every unit stays at its setting (R73). -/
def State.planStep (s : State) (u : Nat) : State :=
  let x := s.ageU u
  if s.pwr.vwait.isSome then s
  else if skips u ∧ x.step < 2 then (s.setAgeU u { x with step := x.step + 1 }).planWrite u
  else if s.pwr.v < s.ageVmax ∧ ¬ s.pwr.vref then s.askVolt u
  else if x.mret then s
  else s.marginRetire u

/-- An anchor (R539). -/
def anchorWord (slack step v hours : Nat) : Word := at_ slack 22 ||| at_ step 20 ||| at_ v 18 ||| at_ (hours / 4 % 0x40000) 0

/-- The anchors after a measurement: none where they stand, else the new previous and current ones (R539). -/
def anchorsNext (prev cur : Word) (slack step v hours : Nat) : Option (Word × Word) :=
  let new := anchorWord slack step v hours
  if cur = 0 ∨ fld cur 21 20 ≠ step ∨ fld cur 19 18 ≠ v then (if prev = 0 ∧ cur = new then none else some (0, new))
  else if 4 * fld cur 17 0 + 8766 ≤ hours then some (cur, new)
  else none

/-- E of R540, none without a previous anchor. -/
def projection (prev : Word) (slack low vmax v t step : Nat) (vref skip : Bool) : Option Nat :=
  if prev = 0 then none else
  let num : Int := (fld prev 31 22 : Int) - slack
  let den : Int := (t : Int) - 4 * fld prev 17 0
  let c : Int := (if skip then 60 * (2 - (step : Int)) else 0) + (if vref then 0 else 40 * ((vmax : Int) - v))
  if num ≤ 0 ∨ den ≤ 0 then some 0xFFFFF
  else some (min 0xFFFFF ((t : Int) + ((slack : Int) - low + c) * den / num).toNat)

/-- The second-smallest of some values, or the smallest where the class has lost a unit (R541). -/
def classEnd (lost : Bool) (l : List (Nat × Nat)) : Option (Nat × Nat) :=
  let l := sortBy (fun a b => decide (a.1 ≤ b.1)) l
  if lost then l.head? else (l.drop 1).head?

/-- AGE_END (R541): the earliest end and the unit that sets it. -/
def State.ageEnd (s : State) : Option (Nat × Nat) :=
  let cls := fun (a n : Nat) =>
    let us := (List.range n).map (a + ·)
    classEnd (us.any s.retired) ((us.filter (fun u => !s.retired u)).map (fun u => ((s.ageU u).e, u)))
  let l := [cls 0 9, cls 9 4, cls 13 4, cls 17 2].filterMap id
  l.find? (fun x => l.all (fun y => decide (x.1 ≤ y.1)))

/-- A path-delay measurement of unit `u` (R534, R539-R541). -/
def State.measure (s : State) (u slack : Nat) : State :=
  if s.retired u then s else
  let t := s.lifeHours
  let x := s.ageU u
  let s := match anchorsNext (s.tlyNext (193 + 2 * u)) (s.tlyNext (192 + 2 * u)) slack x.step s.pwr.v t with
    | none => s
    | some (p, c) => (s.tlyWrite (193 + 2 * u) p 4 [.plan]).tlyWrite (192 + 2 * u) c 4 [.plan]
  let e := projection (s.tlyNext (193 + 2 * u)) slack s.ageLow s.ageVmax s.pwr.v t x.step s.pwr.vref (skips u)
  let s := s.setAgeU u { x with valid := true, slack := slack, hour4 := t / 4, projValid := e.isSome, e := e.getD 0xFFFFF }
  let s : State := { s with blk := { s.blk with ageEnd := s.ageEnd } }
  if slack < s.ageLow then s.planStep u else s

/-- Unit `u` is at the end of its current stroke, computation or transaction (R535). -/
def State.unitIdle (s : State) (u : Nat) : Bool :=
  if u < 9 then (s.lane u).run.isNone
  else if u < 13 then (s.dig (u - 9)).run.isNone
  else if u < 17 then (s.easel (u - 13)).running.isNone
  else s.fab.rd.all (fun t => t.port.val + 17 != u) && s.fab.wr.all (fun t => t.port.val + 17 != u)

/-- Retirements by margin that have come due. -/
def State.marginDue (s : State) : State :=
  (s.age.filter (fun a => a.2.mret && !s.retired a.1)).foldl (fun (s : State) a => if s.unitIdle a.1 then s.retireUnit a.1 else s) s

end Sys2Proof.Machine
end

