-- ==== Sys2Proof/Machine/Settle.lean ====
section
/-! DEFINITION. What the block does by itself after a command: fetches, admissions, preparations, stroke reads, entropy
turns, completions, messages, issue of traffic, clock requests. -/
namespace Sys2Proof.Machine

-- entropy turns (R465-R467, R471) ---------------------------------------------------------------------------------------

/-- Released bytes not yet taken. -/
def State.palBytes (s : State) : Nat := (s.ent.pal.map List.length).foldl (· + ·) 0

/-- Drop `n` bytes from the oldest windows. -/
def palDrop : Nat → List Bytes → List Bytes
  | _, [] => []
  | n, w :: t => if w.length ≤ n then palDrop (n - w.length) t else w.drop n :: t

/-- Bytes taken of the oldest window that is left once `n` more are taken. -/
def palOffAfter : Nat → Nat → List Bytes → Nat
  | _, _, [] => 0
  | n, off, w :: t => if w.length ≤ n then palOffAfter (n - w.length) 0 t else off + n

/-- Take `n` bytes from the palette. -/
def State.palTake (s : State) (n : Nat) : State × Bytes :=
  ({ s with ent := { s.ent with pal := palDrop n s.ent.pal, palOff := palOffAfter n s.ent.palOff s.ent.pal } }, s.ent.pal.flatten.take n)

/-- The request whose turn it is: the next one in the order of admission after the last served, else the first. -/
def State.entTurn (s : State) : Option Req :=
  let ws := s.reqs.filter (fun r => r.entWaits)
  let least := fun (l : List Req) => l.find? (fun r => l.all (fun q => decide (r.adm ≤ q.adm)))
  match least (ws.filter (fun r => decide (s.ent.turn < r.adm))) with
  | some r => some r
  | none => least ws

/-- One turn of at most 64 bytes; none where nobody waits or no byte is released. -/
def State.serveOne (s : State) : Option State :=
  if s.ent.state == 6 ∨ s.palBytes = 0 then none else
  match s.entTurn with
  | none => none
  | some r =>
    let need := s.entNeed r
    let n := min (min 64 (need - r.got.length)) s.palBytes
    let (s, b) := s.palTake n
    let s := { s with ent := { s.ent with turn := r.adm } }
    let off := r.got.length
    let r := { r with got := r.got ++ b }
    let full := need ≤ r.got.length
    if dOp r.d = 0x70 then
      (match s.dstFail r off b.length with
       | some x => some (s.haltReq r 7 x)
       | none =>
         let s := s.setReq { r with written := r.got.length, entWaits := !full }
         let s := s.writeData r off b
         some (if full then s.commit { r with written := r.got.length, outBytes := r.got.length } stOk 0 else s))
    else
      let r := { r with entWaits := !full }
      let s := s.setReq r
      some (if full ∧ dOp r.d ≠ 0x62 then s.keyDrawn r else s)

/-- Serve turns while there are bytes and waiting requests. -/
def State.serveF : Nat → State → State
  | 0, s => s
  | fuel + 1, s => match s.serveOne with
    | some s' => serveF fuel s'
    | none => s

/-- With WAIT = 0 a request that finds no byte ends at once (R466); with entropy off or failed every waiting request
ends (R467). -/
def State.entEnd (s : State) : State :=
  let ends := s.entGone || fld (s.reg .entCfg) 15 0 == 0
  if ¬ ends then s else
  (s.reqs.filter (fun r => r.entWaits)).foldl (fun s r => s.fail r stEntropyUnavailable 0) s

/-- Serve ENT_WORD first (R465, R469), then the requests. -/
def State.entStall (s : State) : State :=
  match s.port.stall with
  | some (.entWord f) =>
    if s.palBytes < 4 then s else
    let (s, b) := s.palTake 4
    let x := s.fn f
    let s := s.setFn f { x with entStatus := BitVec.ofNat 32 ((x.entStatus.toNat + 1) % 0x10000) }
    s.endStall 0 (BitVec.ofNat 32 (leNat b))
  | _ => s

/-- A palette word is lost (R464): its window is discarded from that word on. Words are numbered from the oldest released
window, eight to a window (DESIGN CHOICE, log entry 26). -/
def State.palLost (s : State) (idx : Nat) : State :=
  match s.ent.pal[idx / 8]? with
  | none => s
  | some w =>
    let keep := 16 * (idx % 8) - (if idx / 8 = 0 then s.ent.palOff else 0)
    let pal := if keep = 0 then s.ent.pal.eraseIdx (idx / 8) else s.ent.pal.set (idx / 8) (w.take keep)
    let off := if idx / 8 = 0 ∧ keep = 0 then 0 else s.ent.palOff
    ({ s with ent := { s.ent with pal := pal, palOff := off } } : State).bumpSat .entDiscardCount

/-- A consumer is about to read the palette. -/
def State.palRead (s : State) : Bool :=
  s.ent.state != 6 && s.palBytes != 0
  && (s.entTurn.isSome || (match s.port.stall with | some (.entWord _) => decide (4 ≤ s.palBytes) | _ => false))

/-- An armed injection of the palette's checker strikes the next word read (R514). -/
def State.palStrike (s : State) : State :=
  if ¬ s.palRead then s
  else if s.wordStrike 0x69 = some true then (s.injFired.capture 0x68 (s.ent.palOff / 16) 31 true).recover (fun s => s.palLost (s.ent.palOff / 16))
  else s.singleStrike 0x69 0x69 (s.ent.palOff / 16)

/-- A stalled ENT_WORD read takes its bytes (R465, R469), once the palette holds them. -/
def State.entRead (s : State) : State :=
  match s.port.stall with
  | some (.entWord _) => if s.palBytes < 4 then s else s.palStrike.entStall
  | _ => s

/-- Serve the palette's consumers. -/
def State.serve (s : State) : State :=
  if ¬ s.live then s else
  let s := s.palStrike
  if ¬ s.live then s else
  let s := s.entStall
  let s := s.serveF (s.palBytes / 4 + s.reqs.length + 1)
  s.entEnd

-- strokes under way -------------------------------------------------------------------------------------------------------

/-- The source of a run, where it has been read. -/
def State.runRead (s : State) (w : Run) : State × Run :=
  match w.src with
  | some _ => (s, w)
  | none =>
    match s.req w.id with
    | none => (s, w)
    | some r => match s.strokeRead r w.k with
      | .go s b => (s, { w with src := some b })
      | .wait s => (s, w)
      | .stop s => (s, w)

/-- Read for the stroke of one lane. -/
def State.laneRead (s : State) (n : Nat) : State :=
  match (s.lane n).run with
  | none => s
  | some w =>
    let (s, w') := s.runRead w
    match (s.lane n).run with
    | some _ => if w' = w then s else s.setLane n { s.lane n with run := some w' }
    | none => s

/-- Read for the stroke of one digest engine. -/
def State.digRead (s : State) (e : Nat) : State :=
  match (s.dig e).run with
  | none => s
  | some w =>
    let (s, w') := s.runRead w
    match (s.dig e).run with
    | some _ => if w' = w then s else s.setDig e { s.dig e with run := some w' }
    | none => s

-- clocks (R25) ----------------------------------------------------------------------------------------------------------------

/-- A port has a transaction outstanding or waiting. -/
def State.portBusy (s : State) (p : Fin 2) : Bool :=
  s.portUp p && (s.msgWaits || s.fab.rdQ != [] || s.fab.wrQ != [] || s.fab.rd.any (fun t => t.port == p) || s.fab.wr.any (fun t => t.port == p))

/-- A request needs a digest engine to compute the states of an HMAC key: a lifted one in its key phase, an inline one as an operation
gives it to a line (R245, R260). -/
def State.wantsStates (s : State) : Bool :=
  s.reqs.any (fun r =>
    let a := algHmac (Hdr.ofNat r.hdr).alg
    let op := dOp r.d
    (r.stage == .checking && r.step == 5 && (op == 0x32 || op == 0x33 || op == 0x34 || opCombined op))
    || ((r.stage == .ready || r.stage == .running) && ((a && (op == 0x71 || op == 0x82)) || op == 0x84)))

/-- A request of an operation group waits for an engine or is on one. -/
def State.wantsEngine (s : State) (g : Nat → Bool) : Bool :=
  s.reqs.any (fun r => g (dOp r.d) && (r.stage == .ready || r.stage == .running))

/-- The dispatcher has work (R25): a posted entry, a queued or admitted request, a completion or message to send, a function that
resets or goes to sleep, a disable or a fence in progress, the draining of R107. -/
def State.dispWork (s : State) : Bool :=
  s.activeRings != [] || s.reqs != [] || s.vpend.any (fun p => !bitOf (s.reg .vecCtrl p.1 p.2) 0)
  || (List.range 17).any (fun f => (s.fn f).haltMsg || (s.fn f).resetting || (s.fn f).pm == .flushing)
  || s.ctx.disabling || s.ctx.inval.isSome || s.draining || (match s.port.stall with | some (.fence _ _ _) => true | _ => false)

/-- The dispatcher runs: its clock is acknowledged and the core island is up (R25, R70). -/
def State.dispOn (s : State) : Bool := s.clkOk 3 && s.islandUp 12

/-- What each clock domain wants (R25): in reset nothing (R40); the clocks of INIT, and those of every unit from WARMUP on (R83); in
deep sleep and the snowplough state the register clock alone, and only for an access (R107, R516), once the tally store has made its
last writes there; besides, what background activities ask for. -/
def State.wants (s : State) (d : Nat) : Bool :=
  if s.blk.rstLow ∨ s.blk.porLow then false
  else if s.blk.snow = 1 then s.pwr.clkReq.getLsbD d || d == 12 || (d == 0 && s.port.waiting)
  else
    let starting := s.blk.st == .starting && !s.blk.scan
    let init := starting && s.blk.phase == 1
    let warm := starting && decide (5 ≤ s.blk.phase)
    let on := starting || s.live
    (on && s.pwr.bg.getLsbD d) ||
    match d with
    | 0 => s.port.waiting || s.port.stall.isSome || (on && s.gal.ext != [])
    | 1 => on && (init || s.portBusy 0)
    | 2 => on && (init || s.portBusy 1)
    | 3 => on && (init || s.dispWork)
    | 4 => on && (warm || s.wantsEngine opLane || (List.range 9).any (fun n => (s.lane n).run.isSome || (s.lane n).test))
    | 5 => on && ((starting && decide (2 ≤ s.blk.phase)) || s.wantsEngine opDigest || s.wantsEngine opCombined || s.wantsStates || s.gal.ext != [] || s.pssWaits
                  || (List.range 4).any (fun n => (s.dig n).run.isSome || (s.dig n).test))
    | 6 => on && ((starting && decide (3 ≤ s.blk.phase)) || s.wantsEngine opEasel
                  || (List.range 4).any (fun n => (s.easel n).comps != [] || (s.easel n).test))
    | 7 => on && s.ent.enable
    | 8 => on && (init || s.kl.out != [] || s.kl.wait != [])
    | 9 => starting
    | 10 => on && s.islandUp 12
    | 11 => on && (s.bist.busy || s.blk.toTest != [] || s.bist.field != [])
    | 12 => s.blk.snow != 2 && s.blk.phase != 8 && (s.tly.cur.isSome || s.tly.queue != [] || init)
    | _ => false

-- islands (R26, R103, R104, R485) -------------------------------------------------------------------------------------------------

/-- The write buffer of engine `b` (lane, or digest engine from 9 on) is empty: no committed output waits to be issued (R26). -/
def State.bufferEmpty (s : State) (b : Nat) : Bool := s.fab.wrQ.all (fun t => match t.buf with | some (e, _) => e != b | none => true)

/-- The island is idle (R26, R103): nothing on it holds it up and its write buffers are empty; without retention a state bank in use
does, a stroke on any lane holds the reserve lane up (R292), and TIME_CFG.HOLD_CORE keeps the core up (R485). -/
def State.islandIdle (s : State) (i : Nat) : Bool :=
  if i < 9 then (s.lane i).run.isNone && !(s.lane i).test && s.bufferEmpty i && (s.keeps i || (s.lane i).banks == [])
    && !(s.reserve == some i && (List.range 9).any (fun n => (s.lane n).run.isSome))
  else if i = 9 then (List.range 4).all (fun e => (s.dig e).run.isNone && !(s.dig e).test && (s.dig e).banks == [] && s.bufferEmpty (9 + e))
    && s.gal.ext == [] && !s.pssWaits && (List.range 9).all (fun n => match (s.lane n).run with | some w => w.digest.isNone | none => true)
  else if i = 10 then (List.range 4).all (fun e => (s.easel e).comps == [] && !(s.easel e).test)
  else if i = 11 then !s.ent.enable
  else !s.dispWork && s.fab.rd == [] && s.fab.wr == [] && s.fab.rdQ == [] && s.fab.wrQ == [] && s.kl.out == [] && s.kl.wait == []
    && !bitOf (s.reg .timeCfg) 31

/-- An island that has become idle takes its retention setting from BLK_PM_CFG as it stands then (R104). -/
def State.noteIdle (s : State) (i : Nat) : State :=
  let x := s.isl i
  let now := if x.step = .up ∧ s.islandIdle i = true then some (x.idle.getD (s.retains i)) else none
  if x.idle = now then s else s.setIsl i { x with idle := now }

/-- Work for the dispatcher wakes the core island (R103). -/
def State.wakeCore (s : State) : State := if s.live ∧ s.dispWork = true ∧ ¬ s.islandUp 12 then s.islWake 12 else s

-- time (R482) -----------------------------------------------------------------------------------------------------------------

/-- HOLDOVER in microseconds (R496: values below 1,100 act as 1,100). -/
def State.holdover (s : State) : Nat := max 1100 (fld (s.reg .timeHoldover) 15 0)

/-- SYNC follows its conditions (R482); its fall is TIME_SYNC (R500). -/
def State.updateSync (s : State) : State :=
  let on := s.time.near && s.time.slow == 0 && decide (s.time.age ≤ s.holdover)
  let s' := { s with time := { s.time with sync := on } }
  if s.time.sync ∧ ¬ on then s'.capture 0xA2 else s'

-- the whole ---------------------------------------------------------------------------------------------------------------------

/-- Place of a request among those whose halt causes one moment detects: ring number, then entry index (R126). -/
def State.entryKey (s : State) (r : Req) : Nat := ringG r.f r.n * 0x10000 + r.pos % s.ringSize r.f r.n

/-- Rings whose next entry to pass the meter has been fetched, the lower ring number first. -/
def State.queuedRings (s : State) : List (Nat × Nat) :=
  sortBy (fun a b => decide (ringG a.1 a.2 ≤ ringG b.1 b.2)) ((s.reqs.filter (fun r => r.stage == .queued)).map (fun r => (r.f, r.n))).dedup

/-- Requests that are being prepared, in the order of R126. -/
def State.checkingIds (s : State) : List Nat :=
  (sortBy (fun a b => decide (s.entryKey a ≤ s.entryKey b)) (s.reqs.filter (fun r => r.stage == .checking))).map (·.id)

/-- Lanes 0 to 8 and digest engines 9 to 12 with a stroke, in the order in which R126 ranks the requests of their strokes. -/
def State.strokeUnits (s : State) : List Nat :=
  let key := fun (u : Nat) => ((((if u < 9 then s.lane u else s.dig (u - 9)).run.bind (fun w => s.req w.id)).map s.entryKey)).getD 0
  sortBy (fun a b => decide (key a ≤ key b)) (List.range 13)

/-- Read for the stroke of a unit. -/
def State.unitRead (s : State) (u : Nat) : State := if u < 9 then s.laneRead u else s.digRead (u - 9)

/-- A context table disable goes on (R227): once no request holds a line, every dirty line is written back and the caches are
emptied; BUSY falls once those writes have their responses (DESIGN CHOICE, log entry 27). -/
def State.disableAdvance (s : State) : State :=
  if ¬ s.ctx.disabling ∨ s.reqs.any (fun r => r.inFlight && (dUsesCtx r.d || opCtx (dOp r.d)) && decide (3 < r.step)) then s else
  let s := s.flushLines (fun _ => true)
  let s : State := { s with ctx := { s.ctx with keys := [], hmac := [] } }
  if (s.writesOf (fun u => match u with | .wb _ => true | .resv _ _ => true | _ => false)) = [] then
    { s with ctx := { s.ctx with disabling := false } }
  else s

/-- The invalidation of KL_CTRL (R261): the entries of lifted keys leave both caches, and INVAL_BUSY falls. A request that holds a
dropped key goes on with it. -/
def State.invalidate (s : State) : State :=
  match s.ctx.inval with
  | none => s
  | some (tag, slot) =>
    let hit := fun (lifted : Bool) (a b : Nat) => lifted && a == tag && (match slot with | some n => b == n | none => true)
    { s with ctx := { s.ctx with inval := none, keys := s.ctx.keys.filter (fun k => !hit k.lifted k.a k.b)
                                 hmac := s.ctx.hmac.filter (fun k => !hit k.lifted k.a k.b) } }

/-- One pass over everything that can move. -/
def State.sweep (s : State) : State :=
  let s := s.activeRings.foldl (fun s p => s.fetchRing p.1 p.2) s
  let s := s.queuedRings.foldl (fun s p => State.admitF (s.reqs.length + 1) p.1 p.2 s) s
  let s := s.checkingIds.foldl State.prep s
  let s := s.takeRetries.marginDue.rotateDue
  let s := s.strokeUnits.foldl State.unitRead s
  let s : State := { s with reqs := s.reqs.map s.lateUngated }
  let s := s.serve.drawnDue.invalidate
  let s := s.completeF s.reqs.length
  let s := s.issueMsgs
  let s := (List.range 17).foldl State.issueHaltMsg s
  let s := (List.range 17).foldl State.pmAdvance s
  s.disableAdvance.fenceAdvance

/-- Events captured from here on belong to a later capture cycle (R505). -/
def State.nextCapture (s : State) : State :=
  if s.flt.captured.any (fun e => e.cycle == s.flt.cycle) then { s with flt := { s.flt with cycle := s.flt.cycle + 1 } } else s

/-- Everything that follows from a command without a further event, then the traffic, the wake of the core island and the clock
requests; the dispatcher works only while its clock and its island run (R70). After the capture of a fatal event nothing commits,
drains or issues (R515). -/
def State.settle (s : State) : State :=
  let s := if ¬ s.live then s else if s.dispOn then iterate (s.reqs.length + 3) State.sweep s else s.entRead
  let s := s.pumpFab.pumpKl.wakeCore
  let s := (List.range 13).foldl State.noteIdle s
  (s.driveClocks s.wants).updateSync.nextCapture

/-- The outcome of a command: the next state, settled. -/
def State.done (s : State) : Out := .next s.settle

end Sys2Proof.Machine
end

