-- ==== Sys2Proof/Machine/FnCtl.lean ====
section
/-! DEFINITION. The register port's responses (R42-R46), the block's level outputs (R75-R78, R183), function states and
resets (R112-R118, R131-R139), the sleep handshake (R181), the fence read (R494), deep sleep (R107). -/
namespace Sys2Proof.Machine

-- the register port ------------------------------------------------------------------------------------------------------

/-- A response transfers (R45). -/
def State.respond (s : State) (code : Nat) (v : Word) : State :=
  { s with port := { s.port with waiting := false, code := code, data := v } }

/-- OK to a write. -/
def State.ok (s : State) : State := s.respond 0 0
/-- ERROR: nothing else changes (R45). -/
def State.refuse (s : State) : State := s.respond 1 0

/-- A write's outcome: `none` is ERROR. -/
def State.answer (s : State) : Option State → State
  | some s' => s'.ok
  | none => s.refuse

/-- The port takes a request: no read is stalled (R43), the block is out of reset (R557), and `reg_clk` runs (R46, R70). -/
def State.portTakes (s : State) : Bool := s.port.stall.isNone && s.awake && s.clkOk 0

/-- A request that the port does not take waits at `reg_req_valid`: it asks for `reg_clk`, and is presented again once that runs
(R43, R46; log entry 44). -/
def State.present (s : State) : State :=
  if s.port.stall.isSome ∨ ¬ s.awake ∨ s.blk.porLow then s else { s with port := { s.port with waiting := true } }

/-- Every mapped access is served (R557): in service, and while the block drains for deep sleep (R107), until a fatal event
is captured (R515). -/
def State.serves (s : State) : Bool := (s.blk.st == .service || s.draining) && !s.blk.frozen

/-- A write to a register of the management window: `none` is ERROR (R43, R557). -/
def State.mgmt (s : State) (o : Option State) : State :=
  if ¬ s.portTakes then s.present else if ¬ s.serves then s.refuse else s.answer o

-- level outputs -------------------------------------------------------------------------------------------------------------

/-- `blk_alive` (R78). -/
def State.blkAlive (s : State) : Bool := s.blk.st == .service

/-- `wake_req_n` (R77, R183): low while a function is in HELD; high where the block is in reset, starting, unpowered or in the
snowplough state (R82). -/
def State.wakeReqN (s : State) : Bool :=
  !(s.blk.st == .service || s.blk.st == .deepSleep) || (List.range 17).all (fun f => (s.fn f).pm != .held)

/-- `fault_n` (R75): high after `por_n` while FLT_PEND has no BLOCK_FATAL, REPORTED or HALT bit and the block is not in the
snowplough state. -/
def State.faultN (s : State) : Bool := !s.blk.porLow && s.blk.st != .unpowered && s.flt.pend &&& 0x0301FFFF == 0 && s.blk.snow == 0

/-- `irq_mgmt_n` (R76): low while an enabled cause is pending; low in the snowplough state (R82). -/
def State.irqMgmtN (s : State) : Bool :=
  s.blk.porLow || s.blk.st == .unpowered || (s.blk.snow == 0 && s.flt.pend &&& s.reg .fltIrqEn == 0)

-- function states (R112) -------------------------------------------------------------------------------------------------------

/-- Disabled. -/
def State.fnDisabled (s : State) (f : Nat) : Bool := !(s.fn f).enabled && !(s.fn f).resetting

/-- ACK of FN_PM (R142, R181). -/
def State.fnAck (s : State) (f : Nat) : Bool :=
  let x := s.fn f
  if x.halted ∨ x.resetting ∨ ¬ x.enabled then x.pm != .run else x.pm == .asleep || x.pm == .held

/-- The ranges of two functions share a handle (R116). -/
def State.rangesMeet (s : State) (f g : Nat) : Bool :=
  decide (s.ctxBase f ≤ s.ctxLimit f) && decide (s.ctxBase g ≤ s.ctxLimit g)
  && decide (s.ctxBase f ≤ s.ctxLimit g) && decide (s.ctxBase g ≤ s.ctxLimit f)

/-- The range of `f` shares a handle with M's or with that of another tenant that is not Disabled. -/
def State.rangeTaken (s : State) (f : Nat) : Bool :=
  (List.range 17).any (fun g => g != f && (g == 16 || !s.fnDisabled g) && s.rangesMeet f g)

/-- The counted completions of a function are forgotten, and its moderation timers stop. -/
def State.dropCounted (s : State) (f : Nat) : State :=
  ((s.rings.filter (fun e => ringF e.1 == f)).map (·.1)).foldl (fun s g => s.setRing g { s.ring g with counted := 0, timer := none }) s

/-- A function reset starts (R132 steps 1 and 2): RESET_DONE falls, requests are abandoned, pending interrupts dropped, moderated or
not, a stalled fence read returns 0. A GO while Resetting has no effect (R131). -/
def State.startReset (s : State) (f : Nat) (disable : Bool) : State :=
  let x := s.fn f
  if x.resetting then s else
  let s := s.setFn f { x with resetting := true, disableAfter := disable && decide (f < 16), haltMsg := false, resetWb := false }
  let s := (s.abandonAll f).dropCounted f
  let s := { s with vpend := s.vpend.filter (fun p => p.1 != f) }
  match s.port.stall with
  | some (.fence g _ _) => if g = f then s.endStall 0 0 else s
  | _ => s

/-- The register belongs to the window of `f`. -/
def keyOfWindow (f k : Nat) : Bool :=
  (match regRows[k / 0x100000]? with | some r => r.win | none => false) && k / 0x4000 % 0x40 == f

/-- Steps 5 and 6 of R132: what R133 names is wiped, the registers and the scheduler state of the function's rings take the values of
R134; until the next accepted doorbell nothing is written under its tag (R135). -/
def State.finishReset (s : State) (f : Nat) : State :=
  let mine := fun (a : Nat) (lifted : Bool) => if lifted then a == f else s.inRange f a
  let s := { s with
    ctx := { s.ctx with keys := s.ctx.keys.filter (fun k => !mine k.a k.lifted)
                        hmac := s.ctx.hmac.filter (fun k => !mine k.a k.lifted) }
    regs := s.regs.filter (fun e => !keyOfWindow f e.1)
    rings := s.rings.filter (fun e => ringF e.1 != f)
    vpend := s.vpend.filter (fun p => p.1 != f)
    sched := { s.sched with credit := s.sched.credit.filter (fun e => ringF (e.1 % 2048) != f) }
    reqs := s.reqs.filter (fun r => r.f != f)
    gal := if f = 16 then { s.gal with latch := none } else s.gal }
  let x := s.fn f
  s.setFn f { enabled := x.enabled && !x.disableAfter, quiet := true, epochBusy := x.epochBusy, epochFail := x.epochFail
              sealLow := x.sealLow, sealHigh := x.sealHigh, sealStarted := x.sealStarted, sealAdvance := x.sealAdvance
              sealDead := x.sealDead }

/-- An abandoned computation of the function still waits for the answer to its extension request (R431). -/
def State.deadComp (s : State) (f : Nat) : Bool := (List.range 4).any (fun e => (s.easel e).comps.any (fun c => c.dead && c.f == f))

/-- Steps 3 to 6 of R132: once every transaction under the function's tag has its response, the function's cached
contexts are written back and dropped; once those writes have theirs and no canvas segment of the function is left (R133, R431), the
wipe and the registers. -/
def State.drainReset (s : State) (f : Nat) : State :=
  let x := s.fn f
  if ¬ x.resetting ∨ ¬ s.live then s
  else if (s.fab.rd ++ s.fab.rdQ ++ s.fab.wr ++ s.fab.wrQ).any (fun t => t.tag == f) then s
  else
    let s := if x.resetWb then s else
      (s.flushLines (fun l => l.hdr.owner == f)).setFn f { x with resetWb := true }
    if (s.writesOf (fun u => match u with | .wb h => s.inRange f h | .resv h _ => s.inRange f h | _ => false)) ≠ [] ∨ s.deadComp f = true then s
    else s.finishReset f

/-- An epoch advance of a Disabled tenant (R139). -/
def State.bumpEpoch (s : State) (f : Nat) : State :=
  let e := s.epoch f
  let s := s.setFn f { s.fn f with epochBusy := e ≠ 0xFFFF, epochFail := e = 0xFFFF }
  if e = 0xFFFF then s.capture 0x96 (16 + f) else s.tlyWrite (16 + f) (BitVec.ofNat 32 (e + 1)) 2 [.epoch f]

/-- A write to BLK_FN_CFG[f] (R113, R116, R117, R139). -/
def State.writeFnCfg (s : State) (f : Nat) (v : Word) : Option State :=
  let on := bitOf v 0
  let bump := bitOf v 1
  if f = 16 then (if bump then none else some s)
  else if bump then
    (if s.fnDisabled f ∧ ¬ (s.fn f).epochBusy ∧ ¬ on then some (s.bumpEpoch f) else none)
  else if on then
    (if ¬ s.fnDisabled f then some s
     else if (s.fn f).epochBusy ∨ s.rangeTaken f then none
     else some (s.setFn f { s.fn f with enabled := true }))
  else if (s.fn f).enabled ∧ ¬ (s.fn f).resetting then some (s.startReset f true)
  else some s

-- sleep handshake (R142, R181, R182) --------------------------------------------------------------------------------------------

/-- Every counted completion of the function becomes due. -/
def State.flushCounted (s : State) (f : Nat) (p : Nat → Ring → Bool) : State :=
  (s.rings.filter (fun e => ringF e.1 == f && e.2.counted != 0 && p (ringN e.1) e.2)).foldl
    (fun s e => s.ringDue f (ringN e.1)) s

/-- A write of SLEEP or RUN to FN_PM.MODE; reserved values are ignored (R142). -/
def State.writePm (s : State) (f mode : Nat) : State :=
  let x := s.fn f
  let stuck := x.halted || x.resetting || !x.enabled
  if mode = 1 then
    (if x.pm ≠ .run then s
     else if stuck then s.setFn f { x with pm := .asleep }
     else (s.setFn f { x with pm := .flushing }).flushCounted f (fun _ _ => true))
  else if mode = 0 then
    (match x.pm with
     | .run => s
     | .held => (s.setFn f { x with pm := .run }).flushCounted f (fun _ _ => true)
     | _ => (s.setFn f { x with pm := .run }).flushCounted f (fun n y => decide (s.modCount f n ≤ y.counted)))
  else s

-- stalled reads -----------------------------------------------------------------------------------------------------------------------

/-- The completion of a request past its commit point is not held under R170 or R175. -/
def State.orderFree (s : State) (r : Req) : Bool :=
  if s.asReady r.f r.n then s.chainTurn r else (s.ring (ringG r.f r.n)).next == r.pos

/-- A read of FN_FENCE (R494, R495): 0 at once for a Disabled or Resetting function, else the read stalls on the set X. -/
def State.fenceRead (s : State) (f : Nat) : State :=
  let x := s.fn f
  if x.resetting ∨ ¬ x.enabled then s.respond 0 0 else
  let ids := (s.reqs.filter (fun r => r.f == f && (r.stage == .completing || (r.stage == .committed && s.orderFree r)))).map (·.id)
  let msgs := (s.writesOf (fun u => match u with | .msg g _ => g == f | .haltMsg g => g == f | _ => false)).map (·.serial)
  { s with port := { s.port with waiting := false, stall := some (.fence f ids msgs) } }

/-- An ENT_WORD read answered without entropy (R469, R470): REASON 1 TIMEOUT, 2 UNAVAILABLE, 3 OFF. -/
def State.entEmpty (s : State) (f reason : Nat) : State :=
  let x := s.fn f
  s.setFn f { x with entStatus := BitVec.ofNat 32 (2 ^ 31 + reason * 2 ^ 16 + x.entStatus.toNat % 0x10000) }

/-- A read of ENT_WORD (R469); the row that releases 4 bytes is the palette's service of the stalled read. -/
def State.entWordRead (s : State) (f : Nat) : State :=
  let x := s.fn f
  if x.resetting ∨ x.enabled then
    let wait := { s with port := { s.port with waiting := false, stall := some (.entWord f) } }
    if 4 ≤ s.palBytes then wait.entRead
    else if s.ent.state == 0 ∨ s.ent.state == 6 then (s.entEmpty f 3).respond 0 0
    else if s.ent.state == 5 ∨ s.ent.state == 4 then (s.entEmpty f 2).respond 0 0
    else wait
  else (s.entEmpty f 3).respond 0 0

/-- A stalled ENT_WORD read ends empty (R469). -/
def State.entWordEnd (s : State) (reason : Nat) : State :=
  match s.port.stall with
  | some (.entWord f) => (s.entEmpty f reason).endStall 0 0
  | _ => s

-- deep sleep ------------------------------------------------------------------------------------------------------------------------------

/-- A write of 1 to BLK_PM.DEEP (R107 step 1): the block leaves service and drains; every pending interrupt is sent at
once, moderation aside, but for those held under R77. -/
def State.deepRequest (s : State) : State :=
  if s.blk.st ≠ .service ∨ s.blk.pm ≠ 0 then s else
  let s := { s with blk := { s.blk with st := .deepSleep, pm := 1 } }
  (List.range 17).foldl (fun s f =>
    if (s.fn f).pm == .asleep || (s.fn f).pm == .held then s else s.flushCounted f (fun _ _ => true)) s

/-- Entropy is off: no source runs, the palette is zero (R464, R468); the counts of failures stay (R477). -/
def Ent.off (x : Ent) : Ent :=
  { x with state := 0, enable := false, starting := false, raw := false, pal := [], palOff := 0, held := []
           src := x.src.filterMap (fun e =>
             let y := { e.2 with state := SrcState.off, awaited := false, last := none, run := 0 }
             if y = {} then none else some (e.1, y)) }

/-- What is zeroed at the end of deep-sleep entry, in the snowplough state and before scan: keys, contexts, palette, tables'
staging, requests, canvas, banks. -/
def State.wipe (s : State) : State :=
  { s with ctx := { s.ctx with cache := [], keys := [], hmac := [], key := none, pset := [], inval := none }
           lanes := s.lanes.filter (fun e => e.2.test) |>.map (fun e => (e.1, { test := true }))
           digs := s.digs.filter (fun e => e.2.test) |>.map (fun e => (e.1, { test := true }))
           sched := { s.sched with laneRetry := [], digRetry := [], digMove := [], easelMove := [] }
           easels := s.easels.filterMap (fun e => if ({ e.2 with comps := [], running := none } : Easel) = {} then none else some (e.1, { e.2 with comps := [], running := none }))
           ent := s.ent.off
           kl := { s.kl with wait := [] }
           primer := {}
           reqs := [], gal := { s.gal with ext := [] } }

/-- The drain of R107 has ended: no request is admitted and not complete, no interrupt is due that may be sent, no function
is resetting (R137), and nothing is on the fabric. -/
def State.drained (s : State) : Bool :=
  s.reqs.all (fun r => r.stage == .queued || r.stage == .done)
  && (s.fab.rd ++ s.fab.rdQ ++ s.fab.wr ++ s.fab.wrQ) == []
  && (List.range 17).all (fun f => !(s.fn f).resetting && !(s.fn f).haltMsg)
  && s.vpend.all (fun p => bitOf (s.reg .vecCtrl p.1 p.2) 0 || !s.fnRuns p.1)

/-- Steps 3 to 5 of R107: the counters of every cached context are written back, and BLK_PM.STATE reads wiping; once those writes have
their responses the secret storage is zeroed and everything powers off. -/
def State.deepDrained (s : State) : State :=
  if ¬ s.draining ∨ ¬ s.drained then s else
  let s : State := { s.flushLines (fun _ => true) with blk := { s.blk with pm := 2 } }
  if s.fab.wrQ ≠ [] then s
  else (({ s.wipe with blk := { s.blk with phase := 8 } } : State)).allOff

-- the commands ------------------------------------------------------------------------------------------------------------------------------

/-- FUNCTION_RESET_DRAINED (R132). -/
def execFunctionResetDrained (f : Nat) (s : State) : Out := (if f ≤ 16 then s.drainReset f else s).done

/-- DEEP_SLEEP_DRAINED (R107): the counters' write-backs first, then the wipe. -/
def execDeepSleepDrained (s : State) : Out := s.deepDrained.done

end Sys2Proof.Machine
end

