-- ==== Sys2Proof/Machine/Time.lean ====
section
/-! DEFINITION. The time unit (R479-R485) and what one tick of `aon_clk` does. -/
namespace Sys2Proof.Machine

/-- The multiple of 1,000,000 nearest to a count. -/
def nearestMs (c : Nat) : Nat := (c + 500000) / 1000000 * 1000000

/-- Nanoseconds that the count gains while `p` ns pass: the local rate with its carried fraction, the slew's share, what a slowing gives
back at half rate, and what a holding still takes (R480, R481, R484). -/
def TimeU.gain (t : TimeU) (p : Nat) : Nat × Nat × Nat :=
  let base : Int := p + (t.frac + t.rate * p) / 1000000000
  let back := min (p / 2) t.slow
  let pos := min 1000000 (t.slewPos + p)
  let total := (base - back + (t.slew * pos / 1000000 - t.slew * t.slewPos / 1000000)).toNat
  (total - min t.hold total, back, min t.hold total)

/-- `p` ns pass. -/
def TimeU.pass (t : TimeU) (p : Nat) : TimeU :=
  let g := t.gain p
  { t with count := t.count + g.1, slow := t.slow - g.2.1, hold := t.hold - g.2.2, sub := t.sub + p
           frac := (t.frac + t.rate * p) % 1000000000, slewPos := min 1000000 (t.slewPos + p) }

/-- The tick of 1,000 ns ends. -/
def TimeU.advance (t : TimeU) : TimeU := { t.pass (1000 - t.sub) with sub := 0 }

/-- The instant `p` ns after the last tick, where it lies ahead. -/
def TimeU.upTo (t : TimeU) (p : Nat) : TimeU := t.pass (p - t.sub)

/-- One more tick on the moderation timers of the rings with counted completions. -/
def State.tickTimers (s : State) : State :=
  { s with rings := s.rings.map (fun e => (e.1, { e.2 with timer := e.2.timer.map (· + 1) })) }

/-- Counted completions that the values of RING_IRQ call a message for (R148, R179). -/
def State.moderate (s : State) : State :=
  (s.rings.filter (fun e => e.2.counted != 0)).foldl (fun s e =>
    let f := ringF e.1
    let n := ringN e.1
    let timeUp := s.modTime f n != 0 && (match e.2.timer with | some t => decide (s.modTime f n ≤ t) | none => false)
    if (s.fn f).pm = .run ∧ (s.modCount f n ≤ e.2.counted ∨ timeUp = true) then s.ringDue f n else s) s

/-- One tick of `aon_clk` (log entry 1): the count, the ages and running times, the moderation timers. Events that rows of
the table name come by their commands. -/
def aonTick (s : State) : State :=
  if s.blk.porLow then s else
  let t := { s.time.advance with age := s.time.age + 1, edgeAge := s.time.edgeAge + 1 }
  let s := { s with time := t, ticks := s.ticks + 1
                    runLane := s.runLane + (if s.clkOk 4 then 1 else 0)
                    runDig := s.runDig + (if s.clkOk 5 then 1 else 0)
                    runPke := s.runPke + (if s.clkOk 6 then 1 else 0) }
  (s.updateSync.tickTimers.moderate).settle

/-- An edge without an accepted load: TIME_MISS_COUNT and the event (R482, R500). -/
def State.timeMiss (s : State) : State :=
  if s.time.due then ((({ s with time := { s.time with due := false } } : State)).bumpSat .timeMissCount).capture 0xA1 else s

/-- Move the count to `m` as of an instant at which it reads `c`: forward at once, backward by holding still (R483, R484). -/
def State.moveCount (s : State) (c m : Nat) : State :=
  if c ≤ m then { s with time := { s.time with count := s.time.count + (m - c) } }
  else { s with time := { s.time with hold := s.time.hold + (c - m) } }

/-- A value saturated to 32 bits, two's complement. -/
def sat32 (d : Int) : Word := BitVec.ofInt 32 (max (-(2 ^ 31)) (min (2 ^ 31 - 1) d))

/-- An edge of `time_align`, `past` ns after the last tick. With the core island up the count is latched at that instant; the first edge
after a wake corrects it at once by what the edge itself shows of d, its distance to a whole millisecond, and FINE rises (R484). While
the island is down the count is the tick's reading, and it snaps to a whole millisecond within 100,000 ns (R483); the offset of a snap
is m - c (R496). -/
def State.timeAlign (s : State) (past : Nat) : State :=
  let s := s.timeMiss
  if s.islandUp 12 then
    let s : State := { s with time := s.time.upTo (past % 1000) }
    let c := s.time.count
    let s : State := { s with time := { s.time with edge := some c, edgeAge := 0, due := true, wake := none } }
    if s.time.fine then s
    else
      let s := s.moveCount c (nearestMs c)
      { s with time := { s.time with fine := true, wake := some ((nearestMs c : Int) - c) } }
  else
    let c := s.time.count
    let m := nearestMs c
    let s : State := { s with time := { s.time with edge := some c, edgeAge := 0, wake := none } }
    if (if c ≤ m then m - c else c - m) < 100000 then
      let s := (s.setReg .timeOffset 0 0 (sat32 ((m : Int) - c))).moveCount c m
      { s with time := { s.time with age := 0, edge := some m } }
    else s

/-- The offset d = T - C, as the signed difference of two 64-bit counts (R479). -/
def timeOffset (t c : Nat) : Int := (BitVec.ofNat 64 t - BitVec.ofNat 64 c).toInt

/-- The correction of R481 for an accepted offset. -/
def State.correct (s : State) (d : Int) : State :=
  let mx : Int := fld (s.reg .timeCfg) 27 16
  if d.natAbs ≤ mx.toNat then { s with time := { s.time with slew := d, slewPos := 0, slow := 0 } }
  else
    let s := s.bumpSat .timeStepCount
    if 0 < d then { s with time := { s.time with count := s.time.count + d.toNat, slew := 0, slewPos := 1000000, slow := 0 } }
    else { s with time := { s.time with slew := 0, slewPos := 1000000, slow := d.natAbs } }

/-- A load is rejected (R68). -/
def State.loadBad (s : State) (ns : Nat) : Bool :=
  s.time.edge.isNone || decide (500 < s.time.edgeAge) || decide (1000000000 ≤ ns) || ns % 1000000 != 0

/-- The rest of the correction after a wake, whatever its size: forward by a step, backward by holding still; SYNC is not changed by it
(R484). -/
def State.wakeCorrect (s : State) (rest : Int) : State :=
  if 0 ≤ rest then { s with time := { s.time with count := s.time.count + rest.toNat } }
  else { s with time := { s.time with hold := s.time.hold + rest.natAbs } }

/-- A load on the time input (R67, R68, R479, R481, R482). A second load within the 500 us of an edge is as good as the first (R68). -/
def State.timeLoad (s : State) (sec ns : Nat) : State :=
  if s.loadBad ns then (s.bumpSat .timeRejectCount).capture 0xA0
  else
    let d := timeOffset (sec * 1000000000 + ns) (s.time.edge.getD 0)
    let s := (s.setReg .timeOffset 0 0 (sat32 d)).bump .timeLoadCount
    let near := match s.time.wake with | some _ => s.time.near | none => decide (d.natAbs ≤ fld (s.reg .timeCfg) 7 0)
    let s := match s.time.wake with | some x => s.wakeCorrect (d - x) | none => s.correct d
    let t := { s.time with near := near, rate := Config.rateEstimate s.time.rate d, ever := true, age := 0, due := false, wake := none }
    ({ s with time := t } : State).updateSync

/-- TIME_STATUS (R496). -/
def State.timeStatus (s : State) : Word :=
  flag s.time.sync 31 ||| flag s.time.fine 30 ||| flag (s.time.slow != 0) 29 ||| flag s.time.ever 28

/-- A read of TIME_NOW_LO latches the high half (R496). -/
def State.readNow (s : State) : State :=
  (s.setReg .timeNowHi 0 0 (BitVec.ofNat 32 (s.now / 2 ^ 32))).respond 0 (BitVec.ofNat 32 (s.now % 2 ^ 32))

-- the commands -----------------------------------------------------------------------------------------------------------

/-- TIME_ALIGN (R67, R483, R484): watched at all times while `por_n` is high (R41). -/
def execTimeAlign (past : Nat) (s : State) : Out := (if s.blk.porLow then s else s.timeAlign past).done

/-- TIME_LOAD (R481): an input of `time_clk` (R41). -/
def execTimeLoad (sec : BitVec 48) (ns : BitVec 32) (s : State) : Out :=
  (if s.clkOk 10 && s.islandUp 12 then s.timeLoad sec.toNat ns.toNat else s).done

/-- TIME_MISS (R482). -/
def execTimeMiss (s : State) : Out := s.timeMiss.done

/-- TIME_SYNC (R482): HOLDOVER has passed since the last reference event. -/
def execTimeSync (s : State) : Out :=
  (({ s with time := { s.time with age := max s.time.age (s.holdover + 1) } } : State).updateSync).done

/-- SLOWING_END (R481): the count has given back the offset, inside a tick at whose end no more than 500 ns are left; what is left is
taken from the rest of that tick. -/
def State.slowingEnd (s : State) : State :=
  if s.time.slow = 0 ∨ 500 < s.time.slow then s
  else ({ s with time := { s.time with slow := 0, hold := s.time.hold + s.time.slow } } : State).updateSync

/-- SLOWING_END (R481). -/
def execSlowingEnd (s : State) : Out := s.slowingEnd.done

/-- TIME_NOW_READ (R496). -/
def execTimeNowRead (s : State) : Out :=
  (if ¬ s.portTakes then s.present else if s.serves then s.readNow else s.refuse).done

end Sys2Proof.Machine
end

