-- ==== Sys2Proof/Machine/Easel.lean ====
section
/-! DEFINITION. Computations on the easels: grants, failed compares, the built-in operations and CURVE_LOAD (R364-R396),
the start of a library sketch (R445). -/
namespace Sys2Proof.Machine

-- grants (R202, R385, R387) ------------------------------------------------------------------------------------------------

/-- Easel `e` runs nothing and its island and clock are up. -/
def State.easelIdle (s : State) (e : Nat) : Bool := (s.easel e).running.isNone && s.islandUp 10 && s.clkOk 6

/-- Canvas pages in KiB that computations of an easel hold, those of ended ones that are not zeroed yet among them. -/
def Easel.pagesUsed (x : Easel) : Nat := (x.comps.map (·.pages)).foldl (· + ·) 0

/-- Computations held (R385). -/
def Easel.held (x : Easel) : Nat := (x.comps.filter (fun c => !c.dead)).length

/-- Library entry that a request calls. -/
def State.entryOf (s : State) (r : Req) : Option Nat := if dOp r.d = 0x6F then sketchEntry s.tables.library r.f r.d else none

/-- Canvas need of a request in KiB (R385, R446). -/
def State.pagesNeeded (s : State) (r : Req) : Nat :=
  match s.entryOf r with
  | some i => (LibEntry.of (libEntryB s.tables.library i)).pages
  | none => pagesOf r.d (s.curveOf r.d) r.staged

/-- Easel `e` has room for a computation of the request. -/
def State.easelRoom (s : State) (r : Req) (e : Nat) : Bool :=
  decide ((s.easel e).held < 4) && decide ((s.easel e).pagesUsed + s.pagesNeeded r ≤ 64)

/-- The computation of a request is held yielded on easel `e`. -/
def State.yieldedOn (s : State) (r : Req) (e : Nat) : Bool :=
  (s.easel e).comps.any (fun c => c.id == r.id && !c.dead && c.yielded)

/-- A request's computation may start or resume on easel `e`. A computation that yielded on an easel that has been taken out
for a test resumes there and ends (R387, R546). -/
def State.readyEasel (s : State) (r : Req) (e : Nat) : Bool :=
  opEasel (dOp r.d) && s.fnRuns r.f && s.live
  && (if r.started then r.stage == .running && s.yieldedOn r e
      else r.stage == .ready && s.mayStart r && s.easelIn e && s.easelRoom r e)

/-- A computation of request `r` begins on easel `e`, with its attempt. A sketch takes its start state with SKETCH_CALL. -/
def State.placeComp (s : State) (r : Req) (e attempt : Nat) : State :=
  let x := s.easel e
  let c : Comp := { id := r.id, f := r.f, entry := s.entryOf r, attempt := attempt, pages := s.pagesNeeded r }
  s.setEasel e { x with comps := x.comps ++ [c], running := some r.id }

/-- A computation that must restart elsewhere and may do so on easel `e` (R382, R389). -/
def State.easelMover (s : State) (e : Nat) : Option (Req × Nat) :=
  s.sched.easelMove.findSome? (fun m =>
    match s.req m.1 with
    | some r => if s.easelIn e ∧ m.2.2 ≠ e ∧ s.easelRoom r e then some (r, m.2.1) else none
    | none => none)

/-- A grant of the easel arbiter to easel `e`: the restart of a moved computation first (DESIGN CHOICE, log entry 24), else by
R203 to R205 a start or a resumption. -/
def State.grantEasel (s : State) (e : Nat) : State :=
  if ¬ s.live ∨ 4 ≤ e ∨ ¬ s.easelIdle e then s else
  match s.easelMover e with
  | some (r, k) =>
    let s := { s with sched := { s.sched with easelMove := s.sched.easelMove.filter (fun m => m.1 != r.id) } }
    s.placeComp r e k
  | none =>
    match s.arbitrate 2 (s.cands (fun r => s.readyEasel r e)) with
    | (s, none) => s
    | (s, some c) =>
      match s.req c.id with
      | none => s
      | some r =>
        if ¬ r.started then
          let (s, r) := s.firstGrant r []
          s.placeComp r e 1
        else
          let (s, r) := s.laterGrant r
          let x := s.easel e
          s.setEasel e { x with running := some r.id
                                comps := x.comps.map (fun c => if c.id = r.id ∧ ¬ c.dead then { c with yielded := false, run := 0 } else c) }

-- failed compares (R382, R383, R400) ------------------------------------------------------------------------------

/-- The computation starts anew from its inputs on its easel; the answer to an outstanding extension request is discarded when
it comes (R431). -/
def Easel.restart (x : Easel) (c : Comp) : Easel :=
  let fresh : Comp := { id := c.id, f := c.f, entry := c.entry, attempt := c.attempt + 1, pages := c.pages }
  let ghost : List Comp := if c.cx.isSome then [{ c with dead := true, pages := 0 }] else []
  { x with comps := x.comps.map (fun y => if y.id = c.id ∧ ¬ y.dead then fresh else y) ++ ghost }

/-- The computation leaves its easel for another one. -/
def State.moveComp (s : State) (e : Nat) (c : Comp) : State :=
  let s : State := { s with sched := { s.sched with easelMove := s.sched.easelMove ++ [(c.id, c.attempt + 1, e)] } }
  s.setEasel e ((s.easel e).drop c.id)

/-- A compare of the computation that easel `e` runs fails, or a canvas word of it is lost (R382, R383): EASEL_CMP, recovery
mode, and the next attempt. An injected failure retires nothing (R514). -/
def State.failEasel (s : State) (e : Nat) (inj : Bool) (detail : Nat := 0) : State :=
  match (s.easel e).comp with
  | none => s
  | some c =>
    let s := ((s.abandonRun c.id (13 + e)).compareFailed e).capture (0x50 + e) detail 31 inj
    let s := s.markRetried c.id
    if s.blk.frozen then s
    else if c.attempt = 1 then s.setEasel e ((s.easel e).restart c)
    else if c.attempt = 2 then (if inj then s.moveComp e c else (s.setEasel e { s.easel e with running := none }).retireUnit (13 + e) (some c.id))
    else s.capture 0x54

/-- The easel that runs a request's computation. -/
def State.easelRunning (s : State) (id : Nat) : Option Nat := (List.range 4).find? (fun e => (s.easel e).running == some id)

-- ends (R18, R366, R381) -------------------------------------------------------------------------------------------------------

/-- One computation less in recovery mode (R383). -/
def State.recovered (s : State) (e : Nat) : State := s.setEasel e { s.easel e with recover := (s.easel e).recover - 1 }

/-- The final compare of a computation on easel `e` has passed: its outcome is written and committed. -/
def State.endEasel (s : State) (e : Nat) (r : Req) (x : Finish) : State :=
  match s.dstFail r 0 x.dst.length with
  | some a => s.haltReq r 7 a
  | none =>
    let s := (s.setEasel e { s.easel e with running := none }).easelCount e .easelCompCount false
    let s := s.recovered e
    let s := s.writeData r 0 x.dst
    s.commit { r with outBytes := x.dst.length, result := x.result, written := x.dst.length } x.status x.detail

/-- EASEL_CFG.LEGACY_REJECT. -/
def State.legacyReject (s : State) : Bool := bitOf (s.reg .easelCfg) 31

/-- The entry at SRC may stand at position INDEX of the curve table (R392, R393). -/
def State.loadOk (s : State) (r : Req) : Bool :=
  let b := r.param
  let i := dCurve r.d
  let cur := s.curve i
  fieldLE b 0 1 == i && (cur.isNone || s.tables.loaded.contains i)
  && (if fieldLE b 1 1 = 0 then allZero (b.drop 1) && cur.isSome else curveOk b)

/-- CURVE_LOAD writes or deletes the runtime entry (R393). -/
def State.loadCurve (s : State) (r : Req) : State :=
  let b := r.param
  let i := dCurve r.d
  let gone := fieldLE b 1 1 = 0
  { s with tables := { s.tables with
      curves := tset (fun _ => []) s.tables.curves i (if gone then [] else b)
      loaded := if gone then s.tables.loaded.filter (· != i) else if s.tables.loaded.contains i then s.tables.loaded else s.tables.loaded ++ [i] } }

/-- Outcome of a built-in operation. -/
def State.easelFinish (s : State) (r : Req) : Finish :=
  let d := r.d
  let cv := s.curveOf d
  let anchor := (s.anchor (dAuxLen d)).getD []
  match dOp d with
  | 0x60 => runEcdsa d cv anchor r.param r.staged
  | 0x61 => runEddsa d cv anchor r.staged
  | 0x62 => runBatch d r.staged r.got
  | 0x63 => runPss d s.legacyReject r.param r.staged
  | 0x64 => runPkcs1 d s.legacyReject r.param r.staged
  | 0x65 => runRsaPublic d s.legacyReject r.staged
  | 0x66 => runModexp d r.staged
  | 0x67 => runPoint d cv r.staged
  | _ => if s.loadOk r then {} else rejected

/-- The end of a built-in operation, with the counts of rejected inputs and of legacy moduli (R372, R400). -/
def State.endBuiltin (s : State) (e : Nat) (r : Req) (x : Finish) : State :=
  let s := if x.status = stInputReject then s.easelCount e .easelRejectCount true else s
  let s := if rsaLegacy r.d r.staged ∧ x.status ≠ stInputReject then s.bumpSat .easelLegacyCount else s
  s.endEasel e r x

/-- A yield (R387, R432): the computation is held and the easel goes to the arbiter. -/
def State.skYielded (s : State) (e id : Nat) : State :=
  let s := s.easelCount e .easelYieldCount false
  let x := s.easel e
  s.setEasel e { x with running := none, comps := x.comps.map (fun c => if c.id = id ∧ ¬ c.dead then { c with yielded := true } else c) }

/-- The inputs of a built-in operation. -/
def Req.inputs (r : Req) : Bytes := r.staged ++ r.param ++ r.got

/-- The independent check is added to the computations of easel `e` (R383). -/
def State.recovering (s : State) (e : Nat) : Bool := (s.easel e).recover != 0

/-- Easel `e` runs a built-in operation for its next cycles, at most 16,000 up to a yield or the end (R386, R400). -/
def State.builtinRun (s : State) (e : Nat) (r : Req) (c : Comp) : State :=
  s.addBusy (13 + e) (min 16000 (Config.builtinCycles r.d r.inputs (s.recovering e) c.part))

/-- The independent check agrees with an outcome, where it is made (R383, R384). -/
def State.checkAgrees (s : State) (e : Nat) (r : Req) (x : Finish) : Bool :=
  !s.recovering e
  || independent r.d (s.curveOf r.d) ((s.anchor (dAuxLen r.d)).getD []) r.param r.staged r.got x

/-- Digest blocks of the hashes that an outcome rests on (R370): those of a PSS check that got past its check phase. -/
def hashBlocks (d rec_ : Bytes) (x : Finish) : Nat :=
  if dOp d ≠ 0x63 ∨ x.status = stInputReject then 0
  else pssBlocks ((Halg.ofCode (dRsaHalg d)).getD .sha256) (fieldLE rec_ 0 2 - 1) (fieldLE rec_ 2 2)

/-- The hashes of a PSS check run on the first free digest engine, ahead of every grant (R370); none while no engine is free. -/
def State.hashed (s : State) (r : Req) (x : Finish) : Option State :=
  let n := hashBlocks r.d r.staged x
  if n = 0 then some s else s.freeDig.map (fun g => s.digRun g n ((Halg.ofCode (dRsaHalg r.d)).getD .sha256).cycles)

/-- The end of a built-in computation, once its last compare has passed. -/
def State.builtinEnd (s : State) (e : Nat) (r : Req) (x : Finish) : State :=
  let s := s.endBuiltin e r x
  if dOp r.d = 0x68 ∧ x.status = stOk then s.loadCurve r else s

/-- The computation of a built-in operation runs on its easel to its next yield, or to its final compare (R386, R387): how often it
yields is a free value (log entry 8). `agree` tells whether every compare on the way, of the two slices and of the processor and its
shadow, agreed (R381, R382). -/
def State.easelOp (s : State) (op id : Nat) (agree : Bool) : State :=
  match s.req id, s.easelRunning id with
  | some r, some e =>
    (match (s.easel e).comp with
     | none => s
     | some c =>
       if dOp r.d ≠ op ∨ ¬ s.live ∨ ¬ s.clkOk 6 ∨ ¬ s.fnRuns r.f then s
       else if s.armedChecker = some (0x50 + e) then s.injFired.failEasel e true
       else if s.wordStrike 0x57 = some true then s.injFired.failEasel e true
       else if ¬ agree then s.failEasel e false
       else
       let s := s.singleStrike 0x57 0x57 0
       if c.part < Config.builtinYields r.d r.inputs (s.recovering e) then
         let s := s.builtinRun e r c
         (s.setEasel e ((s.easel e).setComp { c with part := c.part + 1 })).skYielded e id
       else
         let x := s.easelFinish r
         if ¬ s.checkAgrees e r x then s.failEasel e false
         else match s.hashed r x with
           | some t => (t.builtinRun e r c).builtinEnd e r x
           | none => (s.setEasel e ((s.easel e).setComp { c with hashing := true })).islWake 9)
  | _, _ => s

/-- A library sketch starts from its inputs on the easel that runs it: at its grant, and at each attempt. -/
def State.sketchStart (s : State) (id : Nat) : State :=
  match s.req id, s.easelRunning id with
  | some r, some e =>
    (match (s.easel e).comp with
     | some c =>
       (match c.entry with
        | some i =>
          if ¬ s.live ∨ ¬ s.clkOk 6 ∨ ¬ s.fnRuns r.f ∨ c.segs ≠ [] then s
          else s.setEasel e ((s.easel e).setComp
            { (Comp.start c.id c.f c.attempt i (libEntryB s.tables.library i) r.param) with pages := c.pages })
        | none => s)
     | none => s)
  | _, _ => s

-- the commands ---------------------------------------------------------------------------------------------------------------------

/-- EASEL_GRANT (R202-R206, R385, R387). -/
def execEaselGrant (e : Nat) (s : State) : Out := (s.grantEasel e).done
/-- ECDSA_VERIFY (R358, R365, R368). -/
def execEcdsaVerify (id : Nat) (agree : Bool) (s : State) : Out := (s.easelOp 0x60 id agree).done
/-- EDDSA_VERIFY (R359, R365, R369). -/
def execEddsaVerify (id : Nat) (agree : Bool) (s : State) : Out := (s.easelOp 0x61 id agree).done
/-- EDDSA_BATCH (R360, R376-R379). -/
def execEddsaBatch (id : Nat) (agree : Bool) (s : State) : Out := (s.easelOp 0x62 id agree).done
/-- RSA_VERIFY_PSS (R361, R365, R370). -/
def execRsaVerifyPss (id : Nat) (agree : Bool) (s : State) : Out := (s.easelOp 0x63 id agree).done
/-- RSA_VERIFY_PKCS1 (R361, R365, R371). -/
def execRsaVerifyPkcs1 (id : Nat) (agree : Bool) (s : State) : Out := (s.easelOp 0x64 id agree).done
/-- RSA_PUBLIC (R373). -/
def execRsaPublic (id : Nat) (agree : Bool) (s : State) : Out := (s.easelOp 0x65 id agree).done
/-- MODEXP_PUBLIC (R374). -/
def execModexpPublic (id : Nat) (agree : Bool) (s : State) : Out := (s.easelOp 0x66 id agree).done
/-- POINT_CHECK (R375). -/
def execPointCheck (id : Nat) (agree : Bool) (s : State) : Out := (s.easelOp 0x67 id agree).done
/-- CURVE_LOAD (R392-R394). -/
def execCurveLoad (id : Nat) (agree : Bool) (s : State) : Out := (s.easelOp 0x68 id agree).done
/-- SKETCH_CALL (R402, R445, R446). -/
def execSketchCall (id : Nat) (s : State) : Out := (s.sketchStart id).done

end Sys2Proof.Machine
end

