-- ==== Sys2Proof/Machine/Entropy.lean ====
section
/-! DEFINITION. Noise sources, conditioner lanes, health tests, the palette's release, raw mode (R449-R478). -/
namespace Sys2Proof.Machine

-- lanes (R450, R451) ---------------------------------------------------------------------------------------------------------

/-- Sources of a kind that are not retired, in rising number: 0 jitter, 4 metastability. -/
def State.kindSources (s : State) (base : Nat) : List Nat := ((List.range 4).map (base + ·)).filter (fun i => !s.retired (19 + i))

/-- The two sources of conditioner lane `k`; none for an idle lane. -/
def State.laneSources (s : State) (k : Nat) : Option (Nat × Nat) :=
  match (s.kindSources 0)[k]?, (s.kindSources 4)[k]? with
  | some a, some b => if k < 4 then some (a, b) else none
  | _, _ => none

/-- Source `i` is HEALTHY. -/
def State.healthy (s : State) (i : Nat) : Bool := (s.source i).state == .healthy

/-- Lane `k` produces (R451). -/
def State.laneProduces (s : State) (k : Nat) : Bool :=
  match s.laneSources k with
  | some (a, b) => s.ent.enable && s.healthy a && s.healthy b
  | none => false

/-- Lanes producing. -/
def State.lanesProducing (s : State) : Nat := ((List.range 4).filter s.laneProduces).length

/-- The producing lane of source `i`. -/
def State.laneOfSource (s : State) (i : Nat) : Option Nat :=
  (List.range 4).find? (fun k => s.laneProduces k && (match s.laneSources k with | some (a, b) => a == i || b == i | none => false))

-- states and release (R463, R468, R476) -----------------------------------------------------------------------------------------

/-- No source of one kind is left unretired. -/
def State.kindGone (s : State) : Bool := s.kindSources 0 == [] || s.kindSources 4 == []

/-- STATE by the number of lanes producing. -/
def State.stateByLanes (s : State) : Nat := if s.lanesProducing = 4 then 2 else if s.lanesProducing = 0 then 4 else 3

/-- STATE follows its conditions (R476). WARMING and STOPPED are left by the first window that passes (R468; DEDUCED, log
entry 25, where STOPPED is entered later). Entering FAILED is ENT_FAILED (R461). -/
def State.entUpdate (s : State) : State :=
  if ¬ s.ent.enable ∨ s.ent.raw then s
  else if s.kindGone then
    (if s.ent.state = 5 then s
     else ({ s with ent := { s.ent with state := 5, starting := false, held := [] } } : State).capture 0x6B)
  else if s.ent.state = 1 ∨ s.ent.state = 4 then s
  else { s with ent := { s.ent with state := s.stateByLanes } }

/-- Windows are released and appended to the palette, which takes 60 of them (R462, R463). -/
def State.releaseWindows (s : State) (ws : List Bytes) : State :=
  let taken := ws.take (60 - s.ent.pal.length)
  let s := { s with ent := { s.ent with pal := s.ent.pal ++ taken, held := [], starting := false } }
  let s := s.setReg .entWindowCount 0 0 (s.reg .entWindowCount + BitVec.ofNat 32 taken.length)
  if s.ent.state = 1 ∨ s.ent.state = 4 then { s with ent := { s.ent with state := s.stateByLanes } } else s

/-- Every source that the start waits for has passed its start-up tests. -/
def State.startPassed (s : State) : Bool := s.ent.src.all (fun e => !e.2.awaited)

/-- Windows held back by the start are released once every source has passed (R468 step 3). -/
def State.tryRelease (s : State) : State :=
  if s.ent.starting ∧ s.startPassed ∧ s.ent.held ≠ [] ∧ ¬ s.ent.raw then s.releaseWindows s.ent.held else s

/-- A window that has passed (R456, R462, R468, R474). -/
def State.windowPass (s : State) (w : Bytes) : State :=
  if s.ent.raw then s
  else if s.ent.starting ∧ ¬ s.startPassed then { s with ent := { s.ent with held := s.ent.held ++ [w] } }
  else s.releaseWindows (s.ent.held ++ [w])

-- failures (R457, R458) ------------------------------------------------------------------------------------------------------------

/-- The source runs. -/
def Src.runs (x : Src) : Bool := x.state == .starting || x.state == .healthy || x.state == .restarting

/-- A window is discarded under R456: it is counted, and ends a stalled ENT_WORD read (R469). -/
def State.discardWindow (s : State) : State := (s.bumpSat .entDiscardCount).entWordEnd 2

/-- Earlier failures of a source within the 2^24 samples that end with sample `n` (R458). -/
def Src.recentFails (x : Src) (n : Nat) : List Nat := x.recent.filter (fun p => decide (n < p + 2 ^ 24))

/-- The source that source `i` shares a lane with (R451). -/
def State.partnerOf (s : State) (i : Nat) : Option Nat :=
  (List.range 4).findSome? (fun k => match s.laneSources k with
    | some (a, b) => if a = i then some b else if b = i then some a else none
    | none => none)

/-- Samples that no window of the source shows lie between its windows: its run of identical samples starts anew with the next one
(R453). -/
def State.seam (s : State) (i : Nat) : State := s.setSource i { s.source i with last := none, run := 0 }

/-- Source `i` is retired and the lanes are regrouped: partial windows of the lanes whose pairing changes are discarded (R451, R458). -/
def State.retireSource (s : State) (i : Nat) : State :=
  let old := (List.range 8).map s.partnerOf
  let s := s.setSource i { s.source i with state := .retired, recent := [], awaited := false }
  let s := s.markRetired (19 + i)
  let s := ((List.range 8).filter (fun j => s.partnerOf j != old.getD j none)).foldl State.seam s
  s.entUpdate.tryRelease

/-- Source `i` fails at its sample number `n` (R457, R458): its lane pauses, and it restarts, or at the third failure within the span it
is retired. -/
def State.sourceFails (s : State) (i n : Nat) : State :=
  let x := s.source i
  if ¬ x.runs ∨ s.retired (19 + i) then s else
  let near := x.recentFails n
  let s := match s.partnerOf i with | some j => s.seam j | none => s
  let s := s.setSource i { x with state := .restarting, fails := min (x.fails + 1) 0xFFFF, recent := near ++ [n], last := none, run := 0
                                  alarm := false }
  if 2 ≤ near.length then s.retireSource i else s.entUpdate

/-- Number of the sample of source `i` at position `pos` of its current period (R459). -/
def State.sampleNo (s : State) (i pos : Nat) : Nat := (s.source i).pos * 65536 + pos

/-- A position in the period where the source of the report names none: a free value. -/
def State.anyPos (s : State) : Nat := Config.freeNat s.free % 65536

/-- A health-test failure of source `i` at its sample number `n`, outside the end of a window: the window in progress on its lane is
discarded, then R457. -/
def State.healthFail (s : State) (i n : Nat) : State :=
  if ¬ s.live ∨ 8 ≤ i ∨ ¬ (s.source i).runs then s else
  match s.laneOfSource i with
  | some _ => (s.discardWindow.capture (0x60 + i)).recover (fun s => s.sourceFails i n)
  | none => s.sourceFails i n

-- windows (R450, R453, R454, R456) -----------------------------------------------------------------------------------------------

/-- ENT_RCT_CUTOFF, values below 32 acting as 32. -/
def State.rctCutoff (s : State) : Nat := max 32 (fld (s.reg .entRct) 9 0)
/-- ENT_APT_CUTOFF, within 513 to 1,025. -/
def State.aptCutoff (s : State) : Nat := max 513 (min 1025 (fld (s.reg .entApt) 10 0))

/-- The repetition count over samples `n - fuel` to `n - 1`: last sample, run, longest run. -/
def rctF (v : BitVec 8192) : Nat → Nat → Option Bool → Nat → Nat → Option Bool × Nat × Nat
  | 0, _, l, r, m => (l, r, m)
  | fuel + 1, i, l, r, m =>
    let b := v.getLsbD i
    let r := if l = some b then r + 1 else 1
    rctF v fuel (i + 1) (some b) r (max m r)

/-- Samples of test window `w` that equal its first one (R454). -/
def aptCount (v : BitVec 8192) (w : Nat) : Nat :=
  let b := v.getLsbD (1024 * w)
  ((List.range 1024).filter (fun i => v.getLsbD (1024 * w + i) == b)).length

/-- The samples of a source in a window: whether every test passed, and its run at the end. -/
def State.windowTests (s : State) (x : Src) (v : BitVec 8192) : Bool × Src :=
  let (l, r, m) := rctF v 8192 0 x.last x.run 0
  (decide (m < s.rctCutoff) && (List.range 8).all (fun w => decide (aptCount v w < s.aptCutoff)), { x with last := l, run := r })

/-- Sample of a window at which the repetition count reaches cutoff `c` (R453). -/
def rctAt (v : BitVec 8192) (c : Nat) : Nat → Nat → Option Bool → Nat → Option Nat
  | 0, _, _, _ => none
  | fuel + 1, i, l, r =>
    let r := if l = some (v.getLsbD i) then r + 1 else 1
    if c ≤ r then some i else rctAt v c fuel (i + 1) (some (v.getLsbD i)) r

/-- Sample of test window `w` at which the adaptive proportion count reaches cutoff `c` (R454). -/
def aptAt (v : BitVec 8192) (c w : Nat) : Option Nat :=
  (((List.range 1024).filter (fun i => v.getLsbD (1024 * w + i) == v.getLsbD (1024 * w)))[c - 1]?).map (1024 * w + ·)

/-- Sample of a window, counted from its first, at which the first of its tests fails (R453, R454). -/
def State.failedAt (s : State) (x : Src) (v : BitVec 8192) : Nat :=
  ((rctAt v s.rctCutoff 8192 0 x.last x.run).toList ++ (List.range 8).filterMap (aptAt v s.aptCutoff)).foldl min 8191

/-- The output bits of a window (R450): bit j is the XOR of samples 8j to 8j + 7 of both sources. -/
def windowBytes (a b : BitVec 8192) : Bytes :=
  let bit := fun (j : Nat) => ((List.range 8).filter (fun i => a.getLsbD (8 * j + i) != b.getLsbD (8 * j + i))).length % 2
  (List.range 128).map (fun n => BitVec.ofNat 8 ((List.range 8).foldl (fun t i => t + bit (8 * n + i) * 2 ^ i) 0))

/-- The window of lane `k` ends with its samples (R456); `pj` and `pm` are the positions of its last samples in the sources' periods,
which date a failure (R458, R459). -/
def State.windowEnd (s : State) (k : Nat) (jit met : BitVec 8192) (pj pm : Nat) : State :=
  if ¬ s.live ∨ ¬ s.laneProduces k ∨ ¬ s.islandUp 11 ∨ ¬ s.clkOk 7 then s else
  match s.laneSources k with
  | none => s
  | some (a, b) =>
    let (okA, xa) := s.windowTests (s.source a) jit
    let (okB, xb) := s.windowTests (s.source b) met
    let t := s
    let s := (s.setSource a xa).setSource b xb
    if okA ∧ okB then s.windowPass (windowBytes jit met)
    else
      let na := s.sampleNo a pj - (8191 - t.failedAt (t.source a) jit)
      let nb := s.sampleNo b pm - (8191 - t.failedAt (t.source b) met)
      let s := s.discardWindow
      let s := if okA then s else (s.capture (0x60 + a)).recover (fun s => s.sourceFails a na)
      if okB then s else (s.capture (0x60 + b)).recover (fun s => s.sourceFails b nb)

/-- Source `i` passes its start-up tests (R455, R457). -/
def State.startupPass (s : State) (i : Nat) : State :=
  let x := s.source i
  if ¬ s.live ∨ ¬ s.ent.enable ∨ 8 ≤ i ∨ ¬ (x.state = .starting ∨ x.state = .restarting) then s
  else (s.setSource i { x with state := .healthy, awaited := false, last := none, run := 0 }).entUpdate.tryRelease

/-- A Q1.15 estimate from a count of a period of 2^16 samples (R459). -/
def q15 (n : Nat) : Int := min ((n : Int) - 32768) 32767

/-- The end of an estimate period of source `i` (R459, R460). -/
def State.periodEnd (s : State) (i n1 neq maxrun aptmax : Nat) : State :=
  let x := s.source i
  if ¬ s.live ∨ 8 ≤ i ∨ ¬ x.runs then s else
  let put := fun (s : State) (r : RegName) (v : Int) => s.setReg r i 0 (BitVec.ofNat 32 (BitVec.ofInt 16 v).toNat)
  let s := put (put s .entSrcBias (q15 n1)) .entSrcCorr (q15 neq)
  let s := (s.setReg .entSrcMaxrun i 0 (BitVec.ofNat 32 (min maxrun 0xFFFF))).setReg .entSrcAptmax i 0 (BitVec.ofNat 32 (aptmax % 2048))
  let pos := x.pos + 1
  let s := s.setSource i { x with pos := pos, recent := x.recentFails (65536 * pos) }
  let limit := fld (s.reg .entEst) 15 0
  if limit ≠ 0 ∧ (limit ≤ (q15 n1).natAbs ∨ limit ≤ (q15 neq).natAbs) then
    let s := s.healthFail i (65536 * pos - 1)
    s.setSource i { s.source i with alarm := true }
  else s

/-- 120 µs have passed since entropy was enabled (R468 step 4): the sources that have not passed are taken out of the start. -/
def State.startTimeout (s : State) : State :=
  if ¬ s.live ∨ ¬ s.ent.starting ∨ s.ent.raw then s else
  let late := (List.range 8).filter (fun i => (s.source i).awaited)
  let s := late.foldl (fun (s : State) i => ({ s with free := s.free + 1 } : State).sourceFails i (s.sampleNo i s.anyPos)) s
  let s := late.foldl (fun (s : State) i => s.setSource i { s.source i with awaited := false }) s
  let s := s.tryRelease
  if ¬ s.ent.starting then s
  else ({ s with ent := { s.ent with starting := false, state := 4 } } : State).entUpdate

-- waiting requests and reads ---------------------------------------------------------------------------------------------------------

/-- A request has waited for WAIT ticks without a byte (R466). -/
def State.waitTimeout (s : State) (id : Nat) : State :=
  match s.req id with
  | some r => if s.live ∧ r.entWaits ∧ (s.palBytes = 0 ∨ s.ent.raw) then s.fail r stEntropyUnavailable 0 else s
  | none => s

/-- A capture write that has not been issued (R475); one that is to be issued again has been. -/
def Txn.rawWaits (t : Txn) : Bool := (match t.use with | .raw _ _ => true | _ => false) && !t.sent && !t.again

-- enable (R468) ----------------------------------------------------------------------------------------------------------------------

/-- A write to ENT_CTRL; SRC_EN is RWL. A write of 0 to ENABLE ends raw mode as well (R475). -/
def State.writeEntCtrl (s : State) (v : Word) : Option State :=
  if bitOf v 31 then (if s.ent.enable then some s else some s.entropyStart)
  else if ¬ s.ent.enable then some s
  else some { s with ent := s.ent.off, fab := { s.fab with wrQ := s.fab.wrQ.filter (fun t => !t.rawWaits) } }

-- raw mode (R473-R475, R478) -------------------------------------------------------------------------------------------------------------

/-- Capture address. -/
def State.rawAddr (s : State) : Nat := (s.reg .entRawAddrLo).toNat + (s.reg .entRawAddrHi).toNat * 2 ^ 32

/-- ENTER with selection `sel` is accepted (R473). -/
def State.rawOk (s : State) (sel : Nat) : Bool :=
  let len := fld (s.reg .entRawLen) 24 0
  s.ent.enable && !s.ent.raw && decide (sel ≤ 11) && len % 32 == 0 && decide (32 ≤ len) && decide (len ≤ 16777216)
  && s.rawAddr % 32 == 0 && (s.winFail 16 s.rawAddr len true).isNone

/-- Raw mode starts (R474): STATE RAW, the palette zeroed, GAL[31] extended. -/
def State.rawStart (s : State) (sel : Nat) : State :=
  let len := fld (s.reg .entRawLen) 24 0
  let x := natLE 8 sel ++ natLE 8 len ++ natLE 8 s.now ++ zeros 40
  let s := s.setReg .entRawCtrl 0 0 (BitVec.ofNat 32 sel)
  let s := { s with
    ent := { s.ent with state := 6, pal := [], palOff := 0, held := [], starting := false, raw := true, rawDone := false, rawErr := false
                        rawLen := len, rawIssued := 0, rawBytes := 0, rawCap := s.ent.rawCap + 1 }
    gal := { s.gal with ext := s.gal.ext ++ [(31, x)] } }
  s.islWake 9

/-- Raw mode ends (R475): no further capture write, every enabled source restarts. -/
def State.rawStop (s : State) : State :=
  let s := { s with ent := { s.ent with raw := false, state := 1, starting := true }
                    fab := { s.fab with wrQ := s.fab.wrQ.filter (fun t => !t.rawWaits) } }
  ((List.range 8).foldl State.startSource s).entUpdate

/-- A write to ENT_RAW_CTRL. While raw mode lasts, a write that names another SEL, or ENTER, receives ERROR (R473, R478). -/
def State.writeRawCtrl (s : State) (v : Word) : Option State :=
  let sel := fld v 3 0
  if s.ent.raw then
    (if sel ≠ fld (s.reg .entRawCtrl) 3 0 ∨ bitOf v 31 then none
     else if bitOf v 30 then some s.rawStop else some s)
  else if bitOf v 31 then (if s.rawOk sel then some (s.rawStart sel) else none)
  else some (s.setReg .entRawCtrl 0 0 (BitVec.ofNat 32 sel))

/-- 32 more bytes are captured (R474): the next capture write, once GAL[31] has been extended. While M is Resetting, and from the end of
its reset to its next doorbell, none is issued under its tag (R132, R135). -/
def State.rawBeat (s : State) (data : BitVec 256) : State :=
  if ¬ s.live ∨ ¬ s.ent.raw ∨ s.ent.rawErr ∨ s.ent.rawLen ≤ s.ent.rawIssued ∨ s.gal.ext.any (fun e => e.1 == 31)
    ∨ (s.fn 16).resetting ∨ (s.fn 16).quiet then s else
  let a := s.rawAddr + s.ent.rawIssued
  match s.winFail 16 a 32 true with
  | some bad => ({ s with ent := { s.ent with rawErr := true } } : State).halt 16 7 0 0 true bad
  | none => ({ s with ent := { s.ent with rawIssued := s.ent.rawIssued + 32 } } : State).queueWrite a (natLE 32 data.toNat) 16 (.raw s.ent.rawCap 32)

/-- ENT_STATUS (R476). -/
def State.entStatusWord (s : State) : Word :=
  at_ s.ent.state 24 ||| at_ s.lanesProducing 16
  ||| at_ (s.flt.retired.toNat / 2 ^ 19 % 256) 8 ||| BitVec.ofNat 32 (((List.range 8).filter s.healthy).foldl (fun t i => t + 2 ^ i) 0)

/-- ENT_SRC_STATUS (R477). -/
def State.srcStatusWord (s : State) (i : Nat) : Word :=
  let x := s.source i
  let st := if s.retired (19 + i) then 4 else match x.state with
    | .off => 0 | .starting => 1 | .healthy => 2 | .restarting => 3 | .retired => 4
  at_ st 29 ||| flag x.alarm 28 ||| at_ x.recent.length 16 ||| at_ x.fails 0

-- the commands -----------------------------------------------------------------------------------------------------------------------------

/-- ENTROPY_WINDOW_END (R450, R453, R454, R456, R462, R463). -/
def execEntropyWindowEnd (lane : Nat) (jit met : SourceWindow) (s : State) : Out :=
  (s.windowEnd lane jit.bits met.bits jit.pos.toNat met.pos.toNat).done
/-- SOURCE_HEALTH_FAIL (R457, R458), with the position of the failing sample in the source's period. -/
def execSourceHealthFail (x : SourceSample) (s : State) : Out := (s.healthFail x.src (s.sampleNo x.src x.pos.toNat)).done
/-- SOURCE_STARTUP_PASS (R455, R457, R468). -/
def execSourceStartupPass (i : Nat) (s : State) : Out := (s.startupPass i).done
/-- ESTIMATE_PERIOD_END (R459, R460). -/
def execEstimatePeriodEnd (i n1 neq maxrun aptmax : Nat) (s : State) : Out := (s.periodEnd i n1 neq maxrun aptmax).done
/-- ENTROPY_START_TIMEOUT (R468). -/
def execEntropyStartTimeout (s : State) : Out := s.startTimeout.done
/-- ENTROPY_WAIT_TIMEOUT (R466). -/
def execEntropyWaitTimeout (id : Nat) (s : State) : Out := (s.waitTimeout id).done
/-- ENT_WORD_TIMEOUT (R469). -/
def execEntWordTimeout (s : State) : Out := (s.entWordEnd 1).done
/-- ENTROPY_ENABLE (R468): a write of 1 to ENABLE. -/
def execEntropyEnable (s : State) : Out := (s.mgmt (s.writeEntCtrl 0x80000000)).done
/-- ENTROPY_DISABLE (R468): a write of 0 to ENABLE. -/
def execEntropyDisable (s : State) : Out := (s.mgmt (s.writeEntCtrl 0)).done
/-- RAW_MODE_ENTER (R473, R474). -/
def execRawModeEnter (sel : BitVec 4) (s : State) : Out := (s.mgmt (s.writeRawCtrl (0x80000000 ||| BitVec.ofNat 32 sel.toNat))).done
/-- RAW_MODE_EXIT (R475). -/
def execRawModeExit (sel : BitVec 4) (s : State) : Out := (s.mgmt (s.writeRawCtrl (0x40000000 ||| BitVec.ofNat 32 sel.toNat))).done
/-- RAW_CAPTURE_BEAT (R474). -/
def execRawCaptureBeat (data : BitVec 256) (s : State) : Out := (s.rawBeat data).done

end Sys2Proof.Machine
end

