-- ==== Sys2Proof/Machine/Start.lean ====
section
/-! DEFINITION. Resets, cold start, the primer image (R79, R80, R83-R99, R518, R537). -/
namespace Sys2Proof.Machine

-- the gallery (R320) -----------------------------------------------------------------------------------------------------

/-- GAL[i]. -/
def State.galVal (s : State) (i : Nat) : Bytes := tget (fun _ => zeros 64) s.gal.val i
/-- GAL_COUNT[i]. -/
def State.galCount (s : State) (i : Nat) : Nat := tget (fun _ => 0) s.gal.count i

/-- Extend GAL[i] with X (R320). -/
def State.galExtend (s : State) (i : Nat) (x : Bytes) : State :=
  { s with gal := { s.gal with
      val := tset (fun _ => zeros 64) s.gal.val i (sha512 (s.galVal i ++ x))
      count := tset (fun _ => 0) s.gal.count i (satSucc 16 (s.galCount i)) } }

-- resets -------------------------------------------------------------------------------------------------------------------

/-- A register that a low `blk_rst_n` leaves intact (R79): the collector's, and the tally store's count of repairs. -/
def keptReg (k : Nat) : Bool :=
  match regRows[k / 0x100000]? with
  | some r => [RegName.fltCtrl, .fltPermCfg, .fltIrqEn, .fltInj, .fltCount, .fltReact, .tlyRepairCount].contains r.name
  | none => false

/-- A tally write in progress when a reset or a power loss strikes ends or leaves the old value: a free choice (R88, R521). -/
def State.tlyCut (s : State) : State :=
  match s.tly.cur with
  | none => s
  | some w =>
    let done := Config.freeNat s.free % 2 == 1
    { s with free := s.free + 1
             tly := { s.tly with
               cur := none
               cells := if done then tset (fun _ => ({}, {})) s.tly.cells w.idx (tlyProgram (s.tlyCells w.idx) w.val) else s.tly.cells
               writes := if done then s.tly.writes + 1 else s.tly.writes } }

/-- A low `blk_rst_n` (R79, R88, R110): everything but the tally store, the collector, the always-on count with its rate
estimate and EVER returns to its reset value. -/
def State.blkReset (s : State) : State :=
  let t := s.tlyCut
  let off := t.allOff
  { pending := s.pending
    blk := { porLow := s.blk.porLow, rstLow := true, tst := s.blk.tst }
    pwr := { clkAck := s.pwr.clkAck, isl := off.pwr.isl, vack := s.pwr.vack }
    regs := s.regs.filter (fun e => keptReg e.1)
    time := { count := s.time.count, sub := s.time.sub, rate := s.time.rate, frac := s.time.frac, ever := s.time.ever, age := s.time.age }
    flt := s.flt
    tly := { t.tly with queue := t.tly.queue.map (fun w => { w with who := [] }), wait := [] }
    ent := { src := s.ent.src.filterMap (fun e => if e.2.fails = 0 then none else some (e.1, { fails := e.2.fails })) }
    ticks := s.ticks, runLane := s.runLane, runDig := s.runDig, runPke := s.runPke
    free := t.free, nextId := s.nextId }

/-- A low `por_n` (R79, R521): everything but the cells of the tally store. -/
def State.porReset (s : State) : State :=
  let t := s.tlyCut
  let off := t.allOff
  { pending := s.pending
    blk := { porLow := true, rstLow := true, tst := s.blk.tst }
    pwr := { clkAck := s.pwr.clkAck, isl := off.pwr.isl, vack := s.pwr.vack }
    tly := { cells := t.tly.cells }
    free := t.free, nextId := s.nextId }

-- image checks (R91, R92, R96) ------------------------------------------------------------------------------------------------

/-- Image base address. -/
def imageBase (img : Nat) : Nat := if img = 1 then 0 else 0x100000

/-- IMAGE_LEN of a header. -/
def imgLen (h : Bytes) : Nat := fieldLE h 8 4
/-- SECTION_COUNT of a header. -/
def imgCount (h : Bytes) : Nat := fieldLE h 0x14 2

/-- The failure cause of a header, if any (R91), in the order of its fields. -/
def headerCause (h : Bytes) : Option Nat :=
  if h.take 4 ≠ [0x56, 0x5A, 0x50, 0x52] ∨ fieldLE h 4 2 ≠ 1 then some 2
  else if 1 < fieldLE h 6 2 ∨ imgLen h % 16 ≠ 0 ∨ imgLen h < 0x100 ∨ 0x100000 < imgLen h ∨ fieldLE h 0x0C 4 < fieldLE h 0x10 4
      ∨ imgCount h = 0 ∨ 32 < imgCount h then some 3
  else if fieldLE h 0x16 1 ≠ 3 then some 2
  else if ¬ allZero (slice h 0x17 41) then some 3
  else none

/-- The sections of an image: type, offset, length. -/
def imgSections (b : Bytes) : List (Nat × Nat × Nat) :=
  (List.range (imgCount b)).map (fun i => (fieldLE b (0x80 + 16 * i) 1, fieldLE b (0x84 + 16 * i) 4, fieldLE b (0x88 + 16 * i) 4))

/-- The failure cause of the section table, if any (R92). Which cause a table gets that breaks a BAD_LENGTH rule and a TABLE_CHECK rule
the spec does not say: BAD_LENGTH is judged first (DESIGN CHOICE, log entry 50). -/
def tableCause (b : Bytes) : Option Nat :=
  let n := imgCount b
  let ss := imgSections b
  let first := 0x80 + 16 * n
  let bad := (List.range n).any (fun i =>
    let (_, o, l) := ss.getD i (0, 0, 0)
    fieldLE b (0x81 + 16 * i) 3 != 0 || fieldLE b (0x8C + 16 * i) 4 != 0 || o % 16 != 0 || decide (o < first) || l == 0
    || l % 16 != 0 || decide (imgLen b < o + l)
    || (List.range i).any (fun j => let (_, p, m) := ss.getD j (0, 0, 0); decide (p < o + l) && decide (o < p + m)))
  let count := fun (t : Nat) => (ss.filter (fun x => x.1 == t)).length
  if bad ∨ imgLen b < first then some 3
  else if (List.range 6).any (fun t => decide (1 < count (t + 1))) then some 3
  else if ss.any (fun x => x.1 == 0 || decide (6 < x.1)) then some 7
  else if count 1 = 0 ∨ count 2 = 0 ∨ count 3 = 0 ∨ count 5 = 0 then some 7
  else none

/-- Bytes of the section of a type, empty where the image has none. -/
def imgSection (b : Bytes) (t : Nat) : Bytes :=
  match (imgSections b).find? (fun x => x.1 == t) with
  | some (_, o, l) => slice b o l
  | none => []

/-- Mask of the RWL fields of a register (R99, R113, R114). -/
def rwlMask (r : Reg) : Word :=
  let row := r.name.row
  if row.rwl ≠ 0 then row.rwl
  else if r.i ≠ 16 then 0
  else match r.name with
    | .fnCfg => 1
    | .fnCtxBase | .fnCtxLimit | .winBaseLo | .winBaseHi | .winLimitLo | .winLimitHi => row.rw
    | _ => 0

/-- The register and value of a pair of the register settings, where the pair is legal (R96). -/
def settingOf (b : Bytes) : Option (Reg × Word) :=
  let a := fieldLE b 0 4
  let v := BitVec.ofNat 32 (fieldLE b 4 4)
  if a % 4 ≠ 0 ∨ 0xE0000 ≤ a then none else
  match regAt a with
  | none => none
  | some r => if rwlMask r = 0 ∨ v &&& ~~~(rwlMask r) ≠ 0 then none else some (r, v)

/-- Every pair of the register settings is legal. -/
def settingsOk (b : Bytes) : Bool := (chunks 8 b).all (fun p => (settingOf p).isSome)

/-- Apply one pair; ENABLE of M and CLASS of a source without a reaction entry ignore writes (R113, R519). -/
def State.applySetting (s : State) (b : Bytes) : State :=
  match settingOf b with
  | none => s
  | some (r, v) =>
    if r.name = .fnCfg then s
    else if r.name = .fltReact ∧ ((faultFloor r.j).isNone ∨ r.j ≤ 1) then s
    else s.setReg r.name r.i r.j (merge (s.reg r.name r.i r.j) v (rwlMask r))

/-- The eleven pairs of target and test that the self-test signatures hold (R543). -/
def sigPairs : List (Nat × Nat) := [(0, 0), (1, 0), (2, 0), (3, 0), (4, 0), (0, 1), (1, 1), (2, 1), (0, 2), (1, 2), (2, 2)]

/-- The self-test signature section (R543). -/
def sigsOk (b : Bytes) : Bool :=
  let es := (List.range 11).map (fun i => slice b (16 + 32 * i) 32)
  b.length == 368 && fieldLE b 0 2 == 1 && fieldLE b 2 2 == 11 && fieldLE b 4 12 == 0
  && es.all (fun e => fieldLE e 2 2 == 0 && fieldLE e 8 8 == 0
      && (if fieldLE e 1 1 = 0 then decide (4096 ≤ fieldLE e 4 4) && decide (fieldLE e 4 4 ≤ 262144) else fieldLE e 4 4 == 0))
  && sigPairs.all (fun p => (es.filter (fun e => fieldLE e 0 1 == p.1 && fieldLE e 1 1 == p.2)).length == 1)

/-- Expected signature of a target and test (R543). -/
def sigOf (b : Bytes) (target test : Nat) : Nat :=
  match ((List.range 11).map (fun i => slice b (16 + 32 * i) 32)).find? (fun e => fieldLE e 0 1 == target && fieldLE e 1 1 == test) with
  | some e => fieldLE e 16 16
  | none => 0

/-- The hash that the signature of an image binds (R93). -/
def imageK (key b : Bytes) : Nat := leNat (sha512 (slice b 0x40 32 ++ key ++ b.take 0x40 ++ b.drop 0x80))

/-- The Ed25519 signature over the image verifies under the root key (R93, R94). -/
def imageSigned (key b : Bytes) : Bool :=
  let r := slice b 0x40 32
  let sg := fieldLE b 0x60 32
  match edKey ed25519 key, edDecode ed25519 r with
  | some a, some p => decide (sg < ed25519.n) && edVerify ed25519 a p sg (imageK key b)
  | _, _ => false

/-- The independent check of start-up agrees with that verdict (R94, R383, R384). -/
def imageAgrees (key b : Bytes) : Bool :=
  match edKey ed25519 key, edDecode ed25519 (slice b 0x40 32) with
  | some a, some p => edCheck ed25519 a p (fieldLE b 0x60 32) (imageK key b) == edVerify ed25519 a p (fieldLE b 0x60 32) (imageK key b)
  | _, _ => true

/-- The failure cause of VERIFY, if any, under a floor (R94-R96). -/
def verifyCause (key b : Bytes) (floor : Nat) : Option Nat :=
  if ¬ imageSigned key b then some 5
  else if fieldLE b 0x0C 4 < floor then some 6
  else
    let anchors := imgSection b 6
    if stencilTableOk (imgSection b 1) && libraryOk (imgSection b 2) && curveSectionOk (imgSection b 3) && settingsOk (imgSection b 4)
       && sigsOk (imgSection b 5) && (anchors == [] || anchorSectionOk anchors (imgSection b 3)) then none
    else some 7

-- the start sequence ----------------------------------------------------------------------------------------------------------

/-- LOAD of an image (R84, R85, R89): staged contents are zero, both keys are requested afresh, the header is read. Answers
still owed to the image before are discarded. The digest island is woken to hash the bytes (R83). -/
def State.loadImage (s : State) (img : Nat) : State :=
  let boot := fun (k : KlReq) => k.use == 4 || k.use == 5
  let s := { s with
    blk := { s.blk with phase := 2 }
    primer := { img := img, due := 128, addr := imageBase img }
    kl := { s.kl with out := s.kl.out.map (fun k => if boot k then { k with timedOut := true } else k)
                      wait := s.kl.wait.filter (fun k => !boot k) } }
  ((s.klNeed 0xFFF 31 5).klNeed 0 16 4).islWake 9

/-- The image being tried fails (R89): image B is next, or the block stops with IMAGE_BOTH. -/
def State.imageFail (s : State) (cause : Nat) : State :=
  if s.primer.img = 1 then (({ s with blk := { s.blk with causeA := cause } } : State)).loadImage 2
  else (({ s with blk := { s.blk with causeB := cause }, primer := {} } : State)).capture 0xB1

/-- LOAD becomes VERIFY once every byte and both keys are there; the signature check needs an easel (R94). -/
def State.toVerify (s : State) : State :=
  let p := s.primer
  if s.blk.phase = 2 ∧ p.due = 0 ∧ p.img ≠ 0 ∧ p.rootKey.isSome ∧ p.ctxKey.isSome then ({ s with blk := { s.blk with phase := 3 } } : State).islWake 10 else s

/-- Entries of a section keyed by their first byte. -/
def tableEntries (t : Bytes) (n : Nat) : Tbl Bytes :=
  (sectionEntries t n).foldl (fun m e => tset (fun _ => []) m (fieldLE e 0 1) e) []

/-- RELEASE (R97): settings, measurements, the floor where it rises, and once that is durable the tables. -/
def State.release (s : State) (b : Bytes) : State :=
  let s := { s with blk := { s.blk with phase := 4, image := s.primer.img, version := fieldLE b 0x0C 4
                                        lbistAsked := nbit (fieldLE b 6 2) 0 } }
  let s := if s.primer.img = 2 then s.capture 0xB0 else s
  let s := (chunks 8 (imgSection b 4)).foldl State.applySetting s
  let s := s.galExtend 0 (sha512 b)
  let s := s.galExtend 1 (sha512 (imgSection b 2))
  let s := s.galExtend 2 (sha512 (imgSection b 1))
  let s := s.galExtend 3 (sha512 (imgSection b 3))
  let t : Tables := { stencils := imgSection b 1, library := imgSection b 2, sigs := imgSection b 5
                      curves := tableEntries (imgSection b 3) 448
                      anchors := if imgSection b 6 = [] then [] else tableEntries (imgSection b 6) 160 }
  let s : State := { s with primer := { staged := some (t, s.primer.ctxKey) } }
  let floor := fieldLE b 0x10 4
  if (s.tlyVal 0).toNat < floor then s.tlyWrite 0 (BitVec.ofNat 32 floor) 2 [.floor]
  else s.usable.enterWarmup

/-- INIT goes on: one more step of the climb to the recorded V, or LOAD (R73, R537). -/
def State.initStep (s : State) : State :=
  let goal := fld (s.tlyVal 160) 1 0
  if goal ≤ s.pwr.v then (({ s with pwr := { s.pwr with vwait := none } } : State)).loadImage 1
  else if s.pwr.vack = s.pwr.vreq ∧ s.pwr.vreq = s.pwr.v then
    { s with pwr := { s.pwr with vreq := s.pwr.vreq + 1, vwait := some none } }
  else { s with pwr := { s.pwr with vwait := some none } }

/-- The class found short of units at INIT (R518). -/
def State.unitsShort (s : State) : Option Nat :=
  (List.range 4).find? (fun c => decide (2 ≤ s.classRetired (if c = 0 then 0 else if c = 1 then 9 else if c = 2 then 13 else 17)))

/-- INIT (R83) begins: its clocks and the core island are asked for. -/
def State.init (s : State) : State := ({ s with blk := { s.blk with st := .starting, phase := 1 } } : State).islWake 12

/-- INIT with `tally_clk` and the core island up (R83, R518, R523, R537): the tally store is read, the recorded plan applied. -/
def State.initRead (s : State) : State :=
  let s := { s with blk := { s.blk with tlyRead := true } }
  let s := (s.tly.cells.map (·.1)).foldl State.tlyScanOne s
  let s := { s with flt := { s.flt with retired := BitVec.ofNat 27 (s.tlyVal 48).toNat } }
  let s := (List.range 19).foldl (fun (s : State) u =>
    let p := s.tlyVal (128 + u)
    s.setAgeU u { step := fld p 1 0, mret := bitOf p 2 }) s
  let s := { s with pwr := { s.pwr with vref := bitOf (s.tlyVal 160) 2 } }
  if s.blk.frozen then s
  else match s.unitsShort with
    | some c => s.capture 0x95 c
    | none => s.initStep

/-- INIT goes on once `tally_clk` is acknowledged and the core island is up (R70, R83). -/
def State.initAdvance (s : State) : State :=
  if s.live ∧ s.blk.st = .starting ∧ s.blk.phase = 1 ∧ s.blk.tlyRead = false ∧ s.clkOk 12 = true ∧ s.islandUp 12 = true then s.initRead else s

/-- The release of `blk_rst_n` (R80, R83). -/
def State.coldStart (s : State) (tst : Bool) : State :=
  if s.blk.porLow ∨ ¬ s.blk.rstLow then s else
  let s := { s with blk := { s.blk with rstLow := false, tst := tst } }
  if tst then { s.wipe with blk := { s.blk with scan := true } } else s.init

/-- The primer port takes its input (R41, R65, R85): Starting, a read outstanding, both keys already requested. -/
def State.primerOpen (s : State) : Bool :=
  s.live && s.blk.st == .starting && s.blk.phase == 2 && s.primer.due != 0 && s.clkOk 9
  && s.kl.wait.all (fun k => k.use != 4 && k.use != 5)

/-- Two bytes of the primer read (R64, R91, R92). -/
def State.primerBytes (s : State) (lo hi : Byte) : State :=
  if ¬ s.primerOpen then s else
  let p := s.primer
  let rev := if p.due = 1 then lo :: p.rev else hi :: lo :: p.rev
  let s := { s with primer := { p with rev := rev, due := p.due - 2 } }
  let n := rev.length
  if n < 128 then s else
  let b := rev.reverse
  if n = 128 then
    (match headerCause b with
     | some c => s.imageFail c
     | none => { s with primer := { s.primer with due := imgLen b - 128, addr := imageBase p.img + 128 } })
  else
    match (if n = min (0x80 + 16 * imgCount b) (imgLen b) then tableCause b else none) with
    | some c => s.imageFail c
    | none => s.toVerify

/-- The easel and the digest engines that check the image run (R25, R70, R94). -/
def State.verifyOn (s : State) : Bool := s.clkOk 5 && s.islandUp 9 && s.clkOk 6 && s.islandUp 10

/-- The signature check's slices and its independent check agree or not (R94, R382, R383): a failed compare puts the easel into
recovery mode and is retried on the same easel once, then on another one after the first is retired. -/
def State.imageVerified (s : State) (agree : Bool) : State :=
  if ¬ s.live ∨ s.blk.st ≠ .starting ∨ s.blk.phase ≠ 3 ∨ ¬ s.verifyOn then s else
  let b := s.primer.rev.reverse
  if agree ∧ imageAgrees (s.primer.rootKey.getD []) b then
    match verifyCause (s.primer.rootKey.getD []) b (s.tlyVal 0).toNat with
    | some c => s.imageFail c
    | none => s.release b
  else
    match (List.range 4).find? s.easelIn with
    | none => s
    | some e =>
      let k := s.primer.tries + 1
      let s := ({ s with primer := { s.primer with tries := k } } : State)
      let s := (s.compareFailed e).capture (0x50 + e)
      if k = 1 then s else if k = 2 then s.retireUnit (13 + e) else s.capture 0x54

/-- A ROOT or CONTEXT key of the start arrives: its size must be 256 bits (R85). -/
def State.bootKey (s : State) (use : Nat) (key : Bytes) : State :=
  if s.blk.st ≠ .starting ∨ s.primer.img = 0 then s
  else if key.length ≠ 32 then s.imageFail 4
  else
    let s : State := { s with primer := if use = 5 then { s.primer with rootKey := some key } else { s.primer with ctxKey := some key } }
    s.toVerify

-- the commands -----------------------------------------------------------------------------------------------------------------------

/-- POR_ASSERT (R40, R79). -/
def execPorAssert (s : State) : Out := .next s.porReset

/-- POR_RELEASE: the count starts at 0 and the always-on logic runs (R480). -/
def execPorRelease (s : State) : Out := .next { s with blk := { s.blk with porLow := false } }

/-- BLK_RST_ASSERT (R79, R88, R110). -/
def execBlkRstAssert (s : State) : Out := .next s.blkReset

/-- COLD_START (R80, R83). -/
def execColdStart (tst : Bool) (s : State) : Out := (s.coldStart tst).done

/-- TST_MODE_CHANGE (R80): only the level while `blk_rst_n` is low; else TST_MODE. -/
def execTstModeChange (v : Bool) (s : State) : Out :=
  (if s.blk.tst = v then s
   else
     let t : State := { s with blk := { s.blk with tst := v } }
     if s.blk.rstLow then t else t.capture 0x03).done

/-- PRIMER_DATA (R64, R91, R92). -/
def execPrimerData (lo hi : Byte) (s : State) : Out := (s.primerBytes lo hi).done

/-- NVM_ERROR (R66, R89). -/
def execNvmError (s : State) : Out := (if s.primerOpen then s.imageFail 1 else s).done

/-- IMAGE_VERIFIED (R94-R97). -/
def execImageVerified (agree : Bool) (s : State) : Out := (s.imageVerified agree).done

end Sys2Proof.Machine
end

