-- ==== Sys2Proof/Machine/Fabric.lean ====
section
/-! DEFINITION. What arrives at the block's boundary: fabric responses (R51-R57), key-lift answers (R59-R63), clock,
power, retention and voltage acknowledges (R69-R73). -/
namespace Sys2Proof.Machine

-- fabric -------------------------------------------------------------------------------------------------------------------

/-- The block takes the responses of port `p` (R41, R57): its clock is requested and acknowledged, and it is in service. -/
def State.portInput (s : State) (p : Fin 2) : Bool := s.clkOk (1 + p.val) && s.portUp p

/-- Remove an outstanding read. -/
def State.dropRead (s : State) (p : Fin 2) (n : Nat) : State :=
  { s with fab := { s.fab with rd := s.fab.rd.filter (fun t => t.port != p || t.num != n) } }

/-- Remove an outstanding write. -/
def State.dropWrite (s : State) (p : Fin 2) (n : Nat) : State :=
  { s with fab := { s.fab with wr := s.fab.wr.filter (fun t => t.port != p || t.num != n) } }

/-- First byte that an errored read burst reads: its line's (R48, R143). -/
def Txn.readAddr (t : Txn) : Nat := t.addr / 32 * 32

/-- A halt on a twice-errored access of request `id`, or of an abandoned one (R56, R124): a cause that the walk of its lists has found
before goes first (R156). -/
def State.haltAccess (s : State) (id : Nat) (t : Txn) (addr : Nat) : State :=
  match s.req id with
  | some r => (match r.found with
    | some c => s.haltReq r c
    | none => s.haltReq r 8 addr)
  | none => s.halt t.tag 8 0 0 true addr

/-- A reissued access is errored again (R56, R124, R128, R474). -/
def State.errorAgain (s : State) (t : Txn) : State :=
  if t.tag = 31 then s.capture (0x14 + t.port.val) else
  match t.use with
  | .req id => s.haltAccess id t t.readAddr
  | .data id | .scrub id | .compl id => s.haltAccess id t t.addr
  | .fetch g pos _ => s.halt (ringF g) 8 (ringN g) (pos % s.ringSize (ringF g) (ringN g)) false t.readAddr
  | .haltMsg f => s.capture 0x89 0 f
  | .raw cap _ => (if cap = s.ent.rawCap then { s with ent := { s.ent with rawErr := true } } else s).halt t.tag 8 0 0 true t.addr
  | _ => s.halt t.tag 8 0 0 true t.addr

/-- An errored access (R54-R56): FAB_ERR, then the reissue, or what a second error brings. -/
def State.accessError (s : State) (t : Txn) (write inj : Bool) : State :=
  let s := s.capture (0x12 + t.port.val) 0 t.tag inj
  if s.blk.frozen then s
  else if t.again then s.errorAgain t
  else
    let u := { t with again := true, fixed := some (otherPort t.port) }
    { s with fab := if write then { s.fab with wrQ := u :: s.fab.wrQ } else { s.fab with rdQ := u :: s.fab.rdQ } }

/-- A request takes the lines of a burst. -/
def Req.takeLines (r : Req) (addr : Nat) (b : Bytes) : Req :=
  { r with rbuf := ((chunks 32 b).zipIdx).foldl (fun m x => tset (fun _ => []) m (addr / 32 + x.2) x.1) r.rbuf }

/-- Deliver the bytes of a good burst to its consumer. -/
def State.deliver (s : State) (t : Txn) (b : Bytes) : State :=
  match t.use with
  | .fetch g pos n => s.fetchIn g pos n b
  | .req id => (match s.req id with
    | some r => if r.inFlight then s.setReq (r.takeLines t.addr b) else s
    | none => s)
  | _ => s

/-- An armed injection strikes the low half of the first beat received on port `p` (R514). -/
def State.struckBeats (s : State) (p : Fin 2) (bs : List ReadBeat) : List ReadBeat × Bool :=
  if s.armedChecker = some (0x10 + p.val) then
    match bs with
    | b :: t =>
      let lo := injectCode (bitOf (s.reg .fltInj) 8) (b.chk.extractLsb' 0 9)
      ({ b with chk := b.chk.extractLsb' 9 9 ++ lo } :: t, true)
    | [] => (bs, false)
  else (bs, false)

/-- A read return (R51, R53-R57, R514). After the capture of a fatal event the data are discarded (R516). -/
def State.readReturn (s : State) (p : Fin 2) (n : Nat) (bs : List ReadBeat) : State :=
  if ¬ s.live then s.dropRead p n
  else if ¬ s.portInput p then s
  else match s.fab.rd.find? (fun t => t.port == p && t.num == n) with
    | none => s.portFault p
    | some t =>
      if ¬ beatsInOrder t.beats bs then s.portFault p
      else
        let s := s.dropRead p n
        let (bs, inj) := s.struckBeats p bs
        let s := if inj then s.injFired else s
        let x := readBurst t.addr bs
        let struck := inj && !bitOf (s.reg .fltInj) 8
        let s := (List.range x.corr).foldl (fun (s : State) i => s.capture (0x10 + p.val) 0 t.tag (struck && i == 0)) s
        match x.bytes with
        | some b => s.deliver t b
        | none => s.accessError t false (inj && !struck)

/-- What an acknowledged write releases (R149, R241, R474). -/
def State.written (s : State) (t : Txn) : State :=
  match t.use with
  | .compl id => s.completionAck id
  | .resv h lim => s.reservationDurable h lim
  | .raw cap len =>
    if cap ≠ s.ent.rawCap then s else
    let n := s.ent.rawBytes + len
    { s with ent := { s.ent with rawBytes := n, rawDone := s.ent.rawDone || n == s.ent.rawLen } }
  | _ => s

/-- A write acknowledgement (R52, R55-R57). -/
def State.writeReturn (s : State) (p : Fin 2) (n : Nat) (stat : BitVec 2) : State :=
  if ¬ s.live then s.dropWrite p n
  else if ¬ s.portInput p then s
  else match s.fab.wr.find? (fun t => t.port == p && t.num == n) with
    | none => s.portFault p
    | some t =>
      let s := s.dropWrite p n
      if stat = 0 then s.written t else s.accessError t true false

/-- A transaction has not completed within BLK_FAB_TIMEOUT (R57). -/
def State.fabTimeout (s : State) (p : Fin 2) (write : Bool) (n : Nat) : State :=
  if s.live && (if write then s.fab.wr else s.fab.rd).any (fun t => t.port == p && t.num == n) then s.portFault p else s

-- key lift -----------------------------------------------------------------------------------------------------------------

/-- The forms of an answer (R59): a key, a refusal, or anything else, which is taken as a refusal and reported. -/
inductive KlForm where
  | key (a b c d : KlBeat)
  | refused
  | reported
deriving DecidableEq, Repr

/-- The form of an answer. -/
def klForm : List KlBeat → KlForm
  | [b] => if b.status = 1 ∧ b.last then .refused else .reported
  | [a, b, c, d] =>
    if a.status = 0 ∧ b.status = 0 ∧ c.status = 0 ∧ d.status = 0 ∧ d.last ∧ ¬ a.last ∧ ¬ b.last ∧ ¬ c.last then .key a b c d else .reported
  | _ => .reported

/-- A refusal reaches the requests that wait for the key, or the image being tried (R85, R258). -/
def State.klRefuse (s : State) (k : KlReq) : State :=
  if k.use = 4 ∨ k.use = 5 then
    let s := s.klRefused k
    if s.blk.st = .starting ∧ s.primer.img ≠ 0 then s.imageFail 4 else s
  else s.keyRefused k

/-- A request of some admitted use still waits for this key. -/
def State.klWanted (s : State) (k : KlReq) : Bool := s.reqs.any (fun r => r.kneed.contains (k.slot, k.tag, k.use))

/-- The request for which a key was asked: of those that wait for it, the one admitted first. -/
def State.klAsker (s : State) (k : KlReq) : Option Req :=
  let ws := s.reqs.filter (fun r => r.stage == .checking && r.kneed.contains (k.slot, k.tag, k.use))
  ws.find? (fun r => ws.all (fun q => decide (r.adm ≤ q.adm)))

/-- A key arrives (R61, R230, R257). One of a size that the request which needed it cannot use is taken as a refusal, for every request
that waits for it (R230, R258). -/
def State.klKey (s : State) (k : KlReq) (key : Bytes) (attr : Nat) : State :=
  if k.use = 4 ∨ k.use = 5 then s.bootKey k.use key
  else if (match s.klAsker k with | some r => !keyFits r k.use key.length | none => false) then s.keyRefused k
  else if s.klWanted k then s.addKey { lifted := true, a := k.tag, b := k.slot, use := k.use, key := key, attr := attr } else s

/-- Word `i` of a key, under the word number slot x 2 + i (R60, R498): the word where it can be read, and the state with its event. -/
def State.klWord (s : State) (k : KlReq) (i : Nat) (lo hi : KlBeat) (strike : Bool) : State × Option (BitVec 128) :=
  let inj := strike && s.armedChecker == some 0x79
  let code := if inj then injectCode (bitOf (s.reg .fltInj) 8) hi.code else hi.code
  let s := if inj then s.injFired else s
  match readWord (2 * k.slot + i) (hi.data ++ lo.data) code with
  | .good d => (s, some d)
  | .corrected d => (s.capture 0x79 k.slot k.tag inj, some d)
  | .bad => (s.capture (if k.again then 0x75 else 0x74) k.slot k.tag inj, none)

/-- The request of an uncorrectable answer is repeated once, ahead of the waiting ones (R60). -/
def State.klRepeat (s : State) (k : KlReq) : State :=
  { s with kl := { s.kl with wait := { k with again := true, since := s.nextId } :: s.kl.wait }, nextId := s.nextId + 1 }

/-- An answer of four key beats (R60, R61): both words are checked, whatever becomes of the other. Bits that a key of 128 or 192 bits
leaves unused, which R59 has carry zeros, are ignored whatever they are (DESIGN CHOICE, log entry 12). -/
def State.klBeats (s : State) (k : KlReq) (a b c d : KlBeat) : State :=
  let (s, w0) := s.klWord k 0 a b true
  let (s, w1) := s.klWord k 1 c d false
  match w0, w1 with
  | some w0, some w1 =>
    (match attrBytes a.attr.toNat with
     | none => s.klRefuse k
     | some n => s.klKey k ((natLE 16 w0.toNat ++ natLE 16 w1.toNat).take n) a.attr.toNat)
  | _, _ => s.recover (fun s => if k.again then s.klRefuse k else s.klRepeat k)

/-- A key-lift answer (R59-R63): matched to the oldest request owed one; for a timed-out request, after the capture of a
fatal event and in the snowplough state it is discarded. -/
def State.klAnswer (s : State) (bs : List KlBeat) : State :=
  if ¬ s.clkOk 8 ∧ s.live then s else
  match s.kl.out with
  | [] => s
  | k :: t =>
    let s := { s with kl := { s.kl with out := t } }
    if k.timedOut ∨ ¬ s.live then s
    else match klForm bs with
      | .key a b c d => s.klBeats k a b c d
      | .refused => s.klRefuse k
      | .reported => (s.capture 0x77 0 k.tag).recover (fun s => s.klRefuse k)

/-- The need or the outstanding request whose 10 µs pass first: outstanding requests that have not timed out, and with four owed the
needs that cannot be issued (R63). -/
def State.klOldest (s : State) : Option KlReq :=
  let ks := s.kl.out.filter (fun k => !k.timedOut) ++ (if s.kl.out.length < 4 then [] else s.kl.wait)
  ks.find? (fun k => ks.all (fun q => decide (k.since ≤ q.since)))

/-- 10 µs have passed for the oldest request without an answer, or for the oldest need that could not be issued with four owed
(R63): an outstanding request stays owed an answer, a need is taken from the queue. -/
def State.klTimeout (s : State) : State :=
  if ¬ s.live then s else
  match s.klOldest with
  | none => s
  | some k =>
    let s := { s with kl := { s.kl with
      out := s.kl.out.map (fun q => if q = k then { q with timedOut := true } else q)
      wait := s.kl.wait.filter (· != k) } }
    ((s.bumpSat .klTimeoutCount).capture 0x76 0 k.tag).recover (fun s => s.klRefuse k)

-- clocks, power, retention, voltage ---------------------------------------------------------------------------------------------

/-- The hold time of an idle island has passed (R103): it goes to retention or off. Before the core island goes off without
retention the counters of every cached context are written back, and it goes down once those writes have their responses. -/
def State.idleTimeout (s : State) (i : Nat) : State :=
  if ¬ s.live ∨ s.blk.st ≠ .service ∨ ¬ s.islandIdle i then s
  else if i = 12 ∧ ¬ s.keeps 12 then
    let s := s.flushLines (fun _ => true)
    if s.fab.wrQ ≠ [] then s else s.islDown 12
  else s.islDown i

/-- `ret_ack_i` has not moved within 10 µs (R500): RET_ACK, and the island is treated as off. -/
def State.retLate (s : State) (i : Nat) : State :=
  let x := s.isl i
  match x.step with
  | .downRet => (s.capture 0x06).recover (fun s =>
      (s.setIsl i { x with req := false, retReq := false, kept := false, step := .downPower }).islLose i false)
  | .upRet => (s.capture 0x06).recover (fun s => (s.setIsl i { x with kept := false }).islLose i false |>.islReady i)
  | _ => s

/-- `vstep_ack` takes a value (R73, R535, R537). -/
def State.vstepEcho (s : State) (v : Nat) : State :=
  let s := { s with pwr := { s.pwr with vack := v } }
  if v ≠ s.pwr.vreq then s else
  match s.pwr.vwait with
  | none => s
  | some (some u) => if s.pwr.v < s.pwr.vreq then s.vstepTaken u else { s with pwr := { s.pwr with vreq := s.pwr.vreq + 1 } }
  | some none => (({ s with pwr := { s.pwr with v := v, vwait := none } } : State)).initStep

/-- A voltage step is not echoed within 1 ms (R73, R500, R536, R537). -/
def State.vstepLate (s : State) : State :=
  match s.pwr.vwait with
  | none => s
  | some w =>
    (s.capture 0x07).recover fun s =>
    let s := ({ s with pwr := { s.pwr with vwait := none, vref := true } } : State).vplanWrite
    match w with
    | some u => s.marginRetire u
    | none => ({ s with blk := { s.blk with toMeasure := (List.range 19).filter (fun u => !s.retired u) } } : State).loadImage 1

-- the commands -----------------------------------------------------------------------------------------------------------------------

/-- FABRIC_READ_COMPLETE (R51, R53-R57). -/
def execFabricReadComplete (port : Fin 2) (txn : Nat) (beats : List ReadBeat) (s : State) : Out := (s.readReturn port txn beats).done
/-- FABRIC_WRITE_ACK (R52, R55-R57). -/
def execFabricWriteAck (port : Fin 2) (txn : Nat) (stat : BitVec 2) (s : State) : Out := (s.writeReturn port txn stat).done
/-- FABRIC_TIMEOUT (R57). -/
def execFabricTimeout (port : Fin 2) (write : Bool) (txn : Nat) (s : State) : Out := (s.fabTimeout port write txn).done
/-- KEY_LIFT_RESPONSE (R59-R63, R85, R258). -/
def execKeyLiftResponse (beats : List KlBeat) (s : State) : Out := (s.klAnswer beats).done
/-- KL_TIMEOUT (R63). -/
def execKlTimeout (s : State) : Out := s.klTimeout.done
/-- REGISTER_PORT_WAKE (R46): a request waits for the register clock. -/
def execRegisterPortWake (s : State) : Out :=
  s.present.done
/-- CLOCK_ACK (R25, R69, R70). -/
def execClockAck (d : ClkDomain) (v : Bool) (s : State) : Out := ((s.clockAck (clkIdx d) v).initAdvance).done
/-- CLOCK_ACK_LOSS (R70, R500): the acknowledge falls while the request is high. -/
def execClockAckLoss (d : ClkDomain) (s : State) : Out := (s.clockAck (clkIdx d) false).done
/-- POWER_ACK (R69, R71). -/
def execPowerAck (i : Island) (v : Bool) (s : State) : Out := ((s.powerAck (islIdx i) v).initAdvance).done
/-- POWER_ACK_LOSS (R69, R500). -/
def execPowerAckLoss (i : Island) (s : State) : Out := (s.powerAck (islIdx i) false).done
/-- RET_ACK (R500). -/
def execRetAck (i : Island) (s : State) : Out := (s.retLate (islIdx i)).done
/-- ISLAND_IDLE_TIMEOUT (R26, R27, R103). -/
def execIslandIdleTimeout (i : Island) (s : State) : Out := (s.idleTimeout (islIdx i)).done
/-- ISLAND_WAKE (R71, R105). -/
def execIslandWake (i : Island) (s : State) : Out := (if s.live then s.islWake (islIdx i) else s).done
/-- VSTEP_ECHO (R73, R535, R537). -/
def execVstepEcho (v : BitVec 2) (s : State) : Out := (s.vstepEcho v.toNat).done
/-- VSTEP (R73, R500, R536, R537). -/
def execVstep (s : State) : Out := s.vstepLate.done

end Sys2Proof.Machine
end

