-- ==== Sys2Proof/Machine/SelfTest.lean ====
section
/-! DEFINITION. Self-test, the end of the start sequence, rotation, ageing measurements, telemetry, tally upkeep
(R36, R83, R523, R530-R553). -/
namespace Sys2Proof.Machine

-- the end of the start sequence (R83, R542) -------------------------------------------------------------------------------

/-- The code of a test (R543). -/
def testCode : TestKind → Nat
  | .lbist => 0
  | .mbist => 1
  | .kat => 2

/-- TARGET of a unit (R543): lane, digest engine, easel, core (31), fabric port. -/
def testTarget (u : Nat) : Nat := if u < 9 then 0 else if u < 13 then 1 else if u < 17 then 2 else if u = 31 then 3 else 4

/-- The signature of a test equals its entry (R544). -/
def State.sigGood (s : State) (u k : Nat) (sig : BitVec 128) : Bool := sig.toNat == sigOf s.tables.sigs (testTarget u) k

/-- The block enters service (R83, R36): with no lane retired, lane 8 holds the reserve role. -/
def State.serviceEntry (s : State) : State :=
  { s with blk := { s.blk with st := .service, phase := 7 }
           reserve := if (List.range 9).any s.retired then none else some 8 }

/-- WARMUP, and LBIST where the image asks for it, end with their last test and measurement. -/
def State.startAdvance (s : State) : State :=
  let left := s.blk.toTest.filter (fun x => x.1 == 31 || (!s.retired x.1 && !(s.ageU x.1).mret))
  let s : State := { s with blk := { s.blk with toTest := left } }
  if ¬ s.live ∨ s.blk.st ≠ .starting ∨ left ≠ [] ∨ s.blk.toMeasure ≠ [] then s
  else if s.blk.phase = 5 ∧ s.blk.lbistAsked then
    { s with blk := { s.blk with phase := 6, lbistRun := true
                                 toTest := ([31] ++ (List.range 19).filter (fun u => !s.retired u)).map (fun u => (u, 0)) } }
  else if s.blk.phase = 5 ∨ s.blk.phase = 6 then s.serviceEntry
  else s

/-- A unit fails a test (R544): SELFTEST, and the unit is retired; a failing core is BLOCK_FATAL. -/
def State.testFails (s : State) (u : Nat) : State :=
  if u = 31 then s.capture 0x94 0x1F 31 false 4 else (s.capture 0x94 u).recover (fun s => s.retireUnit u)

/-- A test of the start sequence ends. -/
def State.startTestEnd (s : State) (u k : Nat) (sig : BitVec 128) : State :=
  let good := s.sigGood u k sig
  let s : State := { s with blk := { s.blk with toTest := s.blk.toTest.filter (· != (u, k)), stFail := s.blk.stFail || !good }
                            bist := { s.bist with sig := sig } }
  (if good then s else s.testFails u).startAdvance

-- tests in service (R545-R547) -------------------------------------------------------------------------------------------------

/-- Clock domain of a unit (R25). -/
def unitClock (u : Nat) : Nat := if u < 9 then 4 else if u < 13 then 5 else if u < 17 then 6 else u - 16

/-- Island of a unit. -/
def unitIsland (u : Nat) : Nat := if u < 9 then u else if u < 13 then 9 else if u < 17 then 10 else 12

/-- The unit that is to be tested has come to rest: no stroke, no computation held (R546). -/
def State.testRest (s : State) (u : Nat) : Bool :=
  if u < 9 then (s.lane u).run.isNone
  else if u < 13 then (s.dig (u - 9)).run.isNone
  else (s.easel (u - 13)).comps == []

/-- A unit whose last test has ended returns to service. -/
def State.testReturn (s : State) (u : Nat) : State :=
  if (s.bist.busy ∧ s.bist.unit = u) ∨ s.bist.field.any (fun x => x.1 == u) then s else s.setTest u false

/-- A test ends in service: the commanded one, or the next one of a unit's field test, which waits for the measurement that comes before
a lane's tests (R545). -/
def State.serviceTestEnd (s : State) (u k : Nat) (sig : BitVec 128) : State :=
  if ¬ s.testRest u then s
  else
    let good := s.sigGood u k sig
    let b := s.bist
    let next : Option Bist :=
      if b.busy ∧ b.unit = u ∧ b.kind = k then some { b with busy := false, done := true, pass := good, sig := sig }
      else match b.field.find? (fun x => x.1 == u) with
        | some (_, j :: t) =>
          if j ≠ k ∨ s.blk.toMeasure.contains u then none
          else some { b with sig := sig, field := if t = [] then b.field.filter (fun x => x.1 != u)
                                                   else b.field.map (fun x => if x.1 = u then (u, t) else x) }
        | _ => none
    match next with
    | none => s
    | some b =>
      let s : State := { s with bist := b }
      if good then s.testReturn u else s.testFails u

/-- A self-test or known-answer test of unit `u` ends with a signature (R544), while `bist_clk` runs and the unit's island
is up (R70). -/
def State.testDone (s : State) (u k : Nat) (sig : BitVec 128) : State :=
  if ¬ s.live ∨ ¬ s.clkOk 11 ∨ (u < 17 ∧ ¬ s.islandUp (unitIsland u)) then s
  else if s.blk.st = .starting then (if s.blk.toTest.contains (u, k) then s.startTestEnd u k sig else s)
  else if u < 17 then s.serviceTestEnd u k sig
  else s

/-- ROTATION (R36, R545). -/
def State.rotation (s : State) : State := if ¬ s.live ∨ s.blk.st ≠ .service then s else s.rotateNow

/-- Units that field tests cover, in rising order (R546). -/
def State.fieldUnits (s : State) : List Nat :=
  let c := s.reg .bistFieldCfg
  ((List.range 17).filter (fun u => decide (9 ≤ u) && !s.retired u && (if u < 13 then bitOf c 30 else bitOf c 29)))

/-- FIELD_SELF_TEST (R546): the next digest engine or easel is taken out. -/
def State.fieldTest (s : State) : State :=
  if ¬ s.live ∨ s.blk.st ≠ .service ∨ s.bist.field.any (fun x => decide (9 ≤ x.1)) then s else
  let us := s.fieldUnits
  match (match us.find? (fun u => decide (s.bist.lastField < u)) with | some u => some u | none => us.head?) with
  | none => s
  | some u =>
    ({ s with bist := { s.bist with field := s.bist.field ++ [(u, fieldTests)], lastField := u } } : State).setTest u true

/-- A write to BIST_CMD (R547). -/
def State.writeBistCmd (s : State) (v : Word) : Option State :=
  let k := fld v 5 4
  let u := fld (s.reg .bistUnit) 4 0
  let keep := s.setReg .bistCmd 0 0 (at_ k 4)
  if ¬ bitOf v 31 then some keep
  else if s.bist.busy ∨ k = 3 ∨ 16 < u ∨ s.retired u ∨ (u < 9 ∧ s.reserve ≠ some u) then none
  else some (({ keep with bist := { keep.bist with busy := true, done := false, pass := false, abandoned := false, kind := k, unit := u } } : State).setTest u true)

/-- BIST_STATUS (R552). -/
def State.bistStatusWord (s : State) : Word :=
  let b := s.bist
  flag b.busy 31 ||| flag b.done 30 ||| flag b.pass 29 ||| flag b.abandoned 28 ||| at_ b.kind 26 ||| at_ b.unit 0

-- ageing (R532-R541) -----------------------------------------------------------------------------------------------------------------

/-- A lane is measured while it holds the reserve role, during WARMUP, and once no reserve remains (R532). -/
def State.laneTurn (s : State) (u : Nat) : Bool := decide (9 ≤ u) || s.reserve.isNone || s.reserve == some u

/-- A path-delay measurement of unit `u`, whose island is up (R532, R534), once the clock of its domain runs (R25, log entry 49). -/
def State.ageMeasure (s : State) (u slack : Nat) : State :=
  if ¬ s.live ∨ 18 < u ∨ s.retired u ∨ (u < 17 ∧ ¬ s.unitIdle u) ∨ ¬ s.laneTurn u ∨ ¬ (s.blk.st = .service ∨ 5 ≤ s.blk.phase) ∨ ¬ s.islandUp (unitIsland u) then s
  else if ¬ s.clkOk (unitClock u) then s.bgAsk (unitClock u)
  else
    let s := s.bgDone (unitClock u)
    let s := s.measure u slack
    ({ s with blk := { s.blk with toMeasure := s.blk.toMeasure.filter (· != u) } } : State).startAdvance

/-- A write to AGE_CTRL (R536, R553). MEASURE_ALL asks for measurements, which come as their own commands. -/
def State.writeAgeCtrl (s : State) (v : Word) : State :=
  if bitOf v 31 ∧ s.pwr.vref then ({ s with pwr := { s.pwr with vref := false } } : State).vplanWrite else s

/-- A full powered hour (R530). -/
def State.lifeHour (s : State) : State :=
  if s.blk.porLow ∨ s.blk.snow ≠ 0 then s
  else s.tlyWrite 161 (BitVec.ofNat 32 (min ((s.tlyNext 161).toNat % 0x100000 + 1) 0xFFFFF)) 4 [.plan]

-- the tally store in the background (R523) -----------------------------------------------------------------------------------------------

/-- An armed injection of the tally's checker strikes the first register read (R514). -/
def State.tlyStrike (s : State) (i : Nat) : State :=
  if s.armedChecker ≠ some 0x90 then s else
  let inj := s.reg .fltInj
  let s := s.injFired
  if ¬ bitOf inj 8 then s.capture 0x90 i 31 true
  else if fld inj 7 0 = 0x91 then s.capture 0x91 i 31 true
  else
    (s.capture 0x90 i 31 true).recover (fun s => (s.bumpSat .tlyRepairCount).tlyRepair i (s.tlyVal i))

/-- Cells whose check fails in a scan. -/
def State.tlySpoil (s : State) (p : Nat × Bool) : State :=
  let c := s.tlyCells p.1
  let c := if p.2 then (c.1, { c.2 with good := false }) else ({ c.1 with good := false }, c.2)
  { s with tly := { s.tly with cells := tset (fun _ => ({}, {})) s.tly.cells p.1 c } }

/-- TALLY_SCAN (R523): the whole store is read; `bad` names the cells that fail their check, cell 1 as true. -/
def State.tlyScan (s : State) (bad : List (Nat × Bool)) : State :=
  if ¬ s.blk.tlyRead ∨ s.blk.snow ≠ 0 then s
  else if ¬ s.clkOk 12 then s.bgAsk 12
  else
  let s := s.bgDone 12
  let s := s.tlyStrike 0
  let s := (bad.filter (fun p => decide (p.1 < 1024))).foldl State.tlySpoil s
  (s.tly.cells.map (·.1)).foldl State.tlyScanOne s

-- telemetry (R549) --------------------------------------------------------------------------------------------------------------------------

/-- The counters of the page and their place among the live ones. -/
def telRegs : List (RegName × Nat) :=
  [(.telDone, 0), (.telRetried, 1), (.telAuthFail, 2), (.telRefused, 3), (.telDenied, 4), (.telLate, 5), (.telEntropy, 6), (.telOther, 7)]

/-- TELEMETRY_SNAPSHOT of a function. -/
def State.telemetry (s : State) (f : Nat) : State :=
  let x := s.fn f
  if ¬ s.live ∨ s.blk.st ≠ .service ∨ 16 < f ∨ ¬ x.enabled ∨ x.halted ∨ x.resetting ∨ fld (s.reg .bgCfg) 31 16 = 0 then s else
  let put := fun (s : State) (r : RegName) (v : Nat) => s.setReg r f 0 (BitVec.ofNat 32 v)
  let s := put s .telSeq ((s.reg .telSeq f).toNat + 1)
  let s := put (put s .telTimeLo s.now) .telTimeHi (s.now / 2 ^ 32)
  let s := telRegs.foldl (fun s r => put s r.1 (x.live.getD r.2 0)) s
  let s := put (put s .telBytesLo x.liveBytes) .telBytesHi (x.liveBytes / 2 ^ 32)
  (s.rings.filter (fun e => ringF e.1 == f)).foldl (fun (s : State) e => s.setReg .telRingDone f (ringN e.1) (BitVec.ofNat 32 e.2.telDone)) s

-- the commands -----------------------------------------------------------------------------------------------------------------------------

/-- SELF_TEST_DONE (R83, R542-R547). -/
def execSelfTestDone (unit : Nat) (kind : TestKind) (sig : BitVec 128) (s : State) : Out := (s.testDone unit (testCode kind) sig).done
/-- ROTATION (R36, R545). -/
def execRotation (s : State) : Out := s.rotation.done
/-- FIELD_SELF_TEST (R546). -/
def execFieldSelfTest (s : State) : Out := s.fieldTest.done
/-- BIST_COMMAND (R547): a write of GO with KIND. -/
def execBistCommand (kind : BitVec 2) (s : State) : Out := (s.mgmt (s.writeBistCmd (0x80000000 ||| at_ kind.toNat 4))).done
/-- AGE_MEASUREMENT (R532-R541). -/
def execAgeMeasurement (u : Nat) (slack : BitVec 10) (s : State) : Out := (s.ageMeasure u slack.toNat).done
/-- LIFE_HOURS (R530). -/
def execLifeHours (s : State) : Out := s.lifeHour.done
/-- TALLY_SCAN (R523, R514). -/
def execTallyScan (bad : List (Nat × Bool)) (s : State) : Out := (s.tlyScan bad).done
/-- TELEMETRY_SNAPSHOT (R549). -/
def execTelemetrySnapshot (f : Nat) (s : State) : Out := (s.telemetry f).done
/-- VRETRY (R536). -/
def execVretry (s : State) : Out := (s.mgmt (some (s.writeAgeCtrl 0x80000000))).done
/-- MEASURE_ALL (R553). -/
def execMeasureAll (s : State) : Out := (s.mgmt (some (s.writeAgeCtrl 0x40000000))).done

end Sys2Proof.Machine
end

