-- ==== Sys2Proof/WellFormed.lean ====
section
/-! DEFINITION. Which commands are well formed: index operands inside the ranges that the table's rows give. -/
namespace Sys2Proof

/-- Function numbers: 0 to 15 tenants, 16 is M (R7). -/
def fnOk (f : Nat) : Bool := decide (f ≤ 16)

/-- Tenant numbers. -/
def tenantOk (f : Nat) : Bool := decide (f ≤ 15)

/-- Ring numbers of a function: 64, or 16 for M (R145). -/
def ringOk (f n : Nat) : Bool := fnOk f && decide (n < if f = 16 then 16 else 64)

/-- Engine numbers: nine lanes, four digest engines. -/
def Engine.ok : Engine → Bool
  | .lane n => decide (n < 9)
  | .dig e => decide (e < 4)

/-- Memories under the scrubber: index in the class. -/
def ScrubMem.ok : ScrubMem → Bool
  | .lane n => decide (n < 9)
  | .dig e => decide (e < 4)
  | .canvas e => decide (e < 4)
  | _ => true

/-- Four easels. -/
def easelOk (e : Nat) : Bool := decide (e < 4)

/-- Index operands of a command lie in their ranges. -/
def Instr.wf : Instr → Bool
  | .fabricReadComplete _ txn _ => decide (txn < 256)
  | .fabricWriteAck _ txn _ => decide (txn < 256)
  | .fabricTimeout _ _ txn => decide (txn < 256)
  | .cxResponse e _ _ => easelOk e
  | .cxTimeout e => easelOk e
  | .selfTestDone u _ _ => decide (u ≤ 18) || u == 31
  | .doorbell f n _ => ringOk f n
  | .strokeGrant e => e.ok
  | .strokeCommit e => e.ok
  | .duplicateMismatch e => e.ok
  | .moderationTimeout f n => ringOk f n
  | .easelGrant e => easelOk e
  | .scrub m _ _ => m.ok
  | .ageMeasurement u _ => decide (u ≤ 18)
  | .telemetrySnapshot f => fnOk f
  | .tallyScan bad => bad.all (fun p => decide (p.1 < 1024))
  | .sourceHealthFail i => decide (i.src < 8)
  | .sourceStartupPass i => decide (i < 8)
  | .estimatePeriodEnd i n1 neq mr am =>
    decide (i < 8) && decide (n1 ≤ 65536) && decide (neq ≤ 65536) && decide (mr ≤ 65536) && decide (am ≤ 1024)
  | .functionResetDrained f => fnOk f
  | .functionEnable f => fnOk f
  | .functionDisable f => fnOk f
  | .epochBump f => fnOk f
  | .functionReset f _ => fnOk f
  | .fnPmSleep f => fnOk f
  | .fnPmRun f => fnOk f
  | .fnFence f => fnOk f
  | .entWord f => fnOk f
  | .ringEnable f n _ => ringOk f n
  | .ringIrqWrite f n _ => ringOk f n
  | .vectorUnmask f v => fnOk f && decide (v < 64)
  | .meterConfigWrite f n viaAlias _ _ => ringOk f n && (!viaAlias || tenantOk f)
  | .laneCounterClear n _ => decide (n < 9)
  | .digestCounterClear e _ => decide (e < 4)
  | .easelCounterClear e _ => easelOk e
  | .tallyRegisterWrite i _ => decide (512 ≤ i) && decide (i < 1024)
  | .skNop e _ | .skEnd e _ _ | .skYield e _ _ | .skJmp e _ _ | .skCall e _ _ | .skRet e _ | .skDbnz e _ _
  | .skPushi e _ _ | .skPushs e _ _ | .skPushx e _ _ | .skDup e _ | .skDrop e _ | .skSwap e _ | .skOver e _
  | .skRot e _ | .skPick e _ _ | .skDepth e _ | .skAdd e _ | .skAdc e _ | .skSub e _ | .skSbc e _ | .skCmp e _
  | .skAddi e _ _ | .skAnd e _ | .skOr e _ | .skXor e _ | .skNot e _ | .skShl e _ _ | .skShr e _ _ | .skSar e _ _
  | .skRol e _ _ | .skClz e _ | .skCtz e _ | .skBfx e _ _ _ | .skBfi e _ _ _ | .skPerm e _ | .skBswap e _
  | .skLd e _ _ _ | .skSt e _ _ _ | .skLdx e _ _ _ | .skStx e _ _ _ | .skSeglen e _ _ | .skCopy e _ | .skMul e _
  | .skRdml e _ _ | .skRdmh e _ _ | .skRdsr e _ _ | .skWrfl e _ | .gzCurve e _ _ _
  | .gzSelm e _ _ | .gzIn e _ _ _ | .gzOut e _ _ _ _ | .gzSeti e _ _ _ _ | .gzMov e _ _ _ _ | .gzAdd e _ _ _ _ _
  | .gzSub e _ _ _ _ _ | .gzNeg e _ _ _ _ | .gzMmul e _ _ _ _ _ | .gzMsqr e _ _ _ _
  | .gzCmp e _ _ _ _ _ | .customerExtension e _ _ _ => easelOk e
  | .gzSetmod x _ _ | .gzInv x _ _ _ _ => easelOk x.e
  | _ => true

end Sys2Proof
end

