-- ==== Sys2Proof/Machine/Faults.lean ====
section
/-! DEFINITION. The fault collector: capture, classification, permanent faults, history, injection, scrubbing and the
snowplough state (R499-R519, R548). -/
namespace Sys2Proof.Machine

-- capture (R500, R506, R514) ------------------------------------------------------------------------------------------------

/-- Sources whose events name a function (R506): fabric, key lift, CTX_TAG, halts. -/
def tagged (src : Nat) : Bool :=
  (decide (0x10 ≤ src) && decide (src ≤ 0x17)) || (decide (0x74 ≤ src) && decide (src ≤ 0x79)) || (decide (0x81 ≤ src) && decide (src ≤ 0x89))

/-- Sources whose DETAIL is always 0 (R506). -/
def detailZero (src : Nat) : Bool :=
  src ≤ 1 || (decide (3 ≤ src) && decide (src ≤ 7)) || (decide (0x10 ≤ src) && decide (src ≤ 0x15)) || (decide (0x20 ≤ src) && decide (src ≤ 0x29))
  || src == 0x44 || src == 0x54 || (decide (0x60 ≤ src) && decide (src ≤ 0x67)) || src == 0x6B || (decide (0x76 ≤ src) && decide (src ≤ 0x78))
  || src == 0x89 || src == 0x8A || (decide (0xA0 ≤ src) && decide (src ≤ 0xA3)) || src == 0xB0 || src == 0xB1

/-- An armed injection of the checker of `src` fires with this event. -/
def State.strikes (s : State) (src : Nat) : Bool := s.armedChecker == some (faultChecker src)

/-- The state once the injection, if it strikes, has fired. -/
def State.struck (s : State) (src : Nat) : State := if s.strikes src then s.injFired else s

/-- A word of lane `n`'s banks or write buffer is lost: its stroke is retried (R500). -/
def State.laneMem (s : State) (n src detail : Nat) (inj : Bool) : State :=
  if (s.lane (s.mainLane n)).run.isSome then s.failLane n src inj detail else s.capture src detail 31 inj

/-- A duplicate mismatch or a lost word on digest engine `e`. -/
def State.digMem (s : State) (e detail : Nat) (inj : Bool) : State :=
  if (s.dig e).run.isSome ∨ (s.combinedOn e).isSome then s.failDig e inj detail else s.capture (0x40 + e) detail 31 inj

/-- A failed compare or a lost canvas word on easel `e`: the running computation, else the first one held, is run again. -/
def State.easelMem (s : State) (e detail : Nat) (inj : Bool) : State :=
  let x := s.easel e
  if x.comp.isSome then s.failEasel e inj detail
  else match x.comps.find? (fun c => !c.dead) with
    | some c => (s.setEasel e { x with running := some c.id }).failEasel e inj detail
    | none => s.capture (0x50 + e) detail 31 inj

/-- A key or HMAC state cache entry is lost (R500): it is dropped. -/
def State.keyLost (s : State) (idx : Nat) : State :=
  let n := s.ctx.keys.length
  { s with ctx := { s.ctx with keys := s.ctx.keys.eraseIdx idx
                               hmac := if idx < n then s.ctx.hmac else s.ctx.hmac.eraseIdx (idx - n) } }

/-- A tally cell is found bad (R523): the event, and the cell rewritten. -/
def State.tlyCorr (s : State) (i : Nat) (inj : Bool) : State :=
  (s.capture 0x90 i 31 inj).recover (fun s => (s.bumpSat .tlyRepairCount).tlyRepair i (s.tlyVal i))

/-- The unit that a retirement event names. -/
def retiredUnit (src detail : Nat) : Option Nat :=
  if src = 0x2A then (if detail < 9 then some detail else none)
  else if src = 0x45 then (if 9 ≤ detail ∧ detail < 13 then some detail else none)
  else if src = 0x55 then (if 13 ≤ detail ∧ detail < 17 then some detail else none)
  else none

/-- The collector's own copies disagree (R512): recorded at once, without the reaction table. -/
def State.collectorEvent (s : State) (src : Nat) (inj : Bool) : State :=
  let e : Event := { src := src, time := s.now, coarse := !s.islandUp 12, inj := inj, cycle := s.flt.cycle }
  let c := s.reg .fltCount 0 src
  let s := s.setReg .fltCount 0 src (BitVec.ofNat 32 (min (c.toNat + 1) 0xFFFF))
  { s with flt := { s.flt with
      first := s.flt.first.or (some (e, 4))
      overflow := s.flt.overflow || s.flt.first.isSome
      pend := s.flt.pend ||| bit32 25 } }

-- the snowplough state (R515-R517) ---------------------------------------------------------------------------------------------------

/-- The tally's writes of R503 and R508 stay; whoever waited on another write is gone (R516 step 3). -/
def State.tallyOnlyHistory (s : State) : State :=
  let keep := fun (l : List TlyW) => l.filter (fun w => w.cls == 1)
  { s with tly := { s.tly with cur := s.tly.cur.map (fun (w : TlyW) => { w with who := [] }), queue := keep s.tly.queue, wait := keep s.tly.wait } }

/-- The steps of R516 are done once the tally store has no write left: every clock and power request falls. -/
def State.snowDone (s : State) : State :=
  if s.blk.snow = 1 ∧ s.tly.cur.isNone ∧ s.tly.queue = [] then ({ s with blk := { s.blk with snow := 2 } } : State).allOff else s

/-- Entry into the snowplough state (R515, R516): traffic stops, what is secret is zeroed, and once the tally
store has written its history everything powers down. It is not
entered twice (R517), and not from reset. -/
def State.snowEnter (s : State) : State :=
  if s.blk.snow ≠ 0 ∨ ¬ s.awake then s else
  let s := (s.endStall 1 0).wipe
  let s := s.tallyOnlyHistory.tlyStart
  let s := { s with
    blk := { s.blk with st := .snowplough, phase := 9, pm := 0, frozen := true, snow := 1, toTest := [], toMeasure := [] }
    pwr := { s.pwr with vwait := none, bg := 0 }
    fab := { rd := s.fab.rd.map (fun (t : Txn) => { t with use := .discard }), wr := s.fab.wr.map (fun (t : Txn) => { t with use := .discard }) }
    vpend := []
    fns := s.fns.filterMap (fun (e : Nat × Fn) => let x := { e.2 with resetting := false }; if x = fnInit e.1 then none else some (e.1, x))
    gate := { s.gate with elig := [] }
    bist := { s.bist with busy := false, field := [] }
    time := { s.time with fine := false, edge := none, due := false, wake := none } }
  s.snowDone

-- classification (R501-R508, R517) ------------------------------------------------------------------------------------------------------

/-- Effective class of a captured event. -/
def State.eventClass (s : State) (e : Event) : Nat := max (s.faultClass e.src) e.least

/-- One more event of its source (R507). -/
def State.countEvent (s : State) (e : Event) : State :=
  s.setReg .fltCount 0 e.src (BitVec.ofNat 32 (min ((s.reg .fltCount 0 e.src).toNat + 1) 0xFFFF))

/-- Pending bit of an event (R501, R509). -/
def State.pendBit (s : State) (e : Event) : Word :=
  let c := s.eventClass e
  if c = 4 then bit32 25
  else if c = 3 then (if e.tag ≤ 16 then bit32 e.tag else 0)
  else if c = 2 then bit32 24
  else if bitOf (s.reg .fltReact 0 e.src) 3 then bit32 26 else 0

/-- Retirement IDs (R508). -/
def isRetirement (src : Nat) : Bool := src == 0x2A || src == 0x45 || src == 0x55 || src == 0x16 || src == 0x17 || src == 0x6A

/-- The unit whose permanent faults a source counts towards, and the running time of its clock in microseconds (R503). -/
def State.permUnit (s : State) (src : Nat) : Option (Nat × Nat) :=
  if 0x20 ≤ src ∧ src ≤ 0x28 then some (src - 0x20, s.runLane)
  else if 0x30 ≤ src ∧ src ≤ 0x38 then some (src - 0x30, s.runLane)
  else if 0x40 ≤ src ∧ src ≤ 0x43 then some (9 + (src - 0x40), s.runDig)
  else if 0x50 ≤ src ∧ src ≤ 0x53 then some (13 + (src - 0x50), s.runPke)
  else none

/-- COUNT events of one source within WINDOW of its clock's running time are a permanent fault; injected events do not count
(R503, R514). -/
def State.countPermanent (s : State) (e : Event) : State :=
  match s.permUnit e.src with
  | none => s
  | some (u, t) =>
    if e.inj then s else
    let window := 1000 * max 1 (fld (s.reg .fltPermCfg) 15 0)
    let perm := (s.flt.perm ++ [(e.src, t)]).filter (fun p => p.1 != e.src || decide (t ≤ p.2 + window))
    let s : State := { s with flt := { s.flt with perm := perm } }
    if max 2 (fld (s.reg .fltPermCfg) 19 16) ≤ (perm.filter (fun p => p.1 == e.src)).length then s.retireUnit u else s

/-- The latch takes the first event of class REPORTED or above; another one sets OVERFLOW (R505). -/
def State.latch (s : State) (e : Event) : State :=
  let c := s.eventClass e
  if c < 2 then { s with flt := { s.flt with lastMinor := some (e, c) } }
  else match s.flt.first with
    | none => { s with flt := { s.flt with first := some (e, c) } }
    | some _ => { s with flt := { s.flt with overflow := true } }

/-- One event is classified; in the snowplough state it sets its pending bit and OVERFLOW and nothing else (R517). -/
def State.classifyOne (s : State) (e : Event) : State :=
  let s' : State := { s with flt := { s.flt with pend := s.flt.pend ||| s.pendBit e } }
  if s.blk.snow ≠ 0 then
    (if 2 ≤ s.eventClass e then { s' with flt := { s'.flt with overflow := true } } else s')
  else
    let s := (s'.countEvent e).latch e
    let s := if isRetirement e.src ∨ s.eventClass e = 4 then s.history e.src (s.eventClass e) e.detail else s
    s.countPermanent e

/-- Does event `a` come before `b` in the collector's order: earlier capture, then the higher class, then the lower ID (R505)? -/
def State.eventBefore (s : State) (a b : Event) : Bool :=
  decide (a.cycle < b.cycle) || (a.cycle == b.cycle
    && (decide (s.eventClass b < s.eventClass a) || (s.eventClass a == s.eventClass b && decide (a.src ≤ b.src))))

/-- The captured events are classified at an aon tick; a BLOCK_FATAL one ends in the snowplough state (R501, R515). -/
def State.classify (s : State) : State :=
  let es := sortBy s.eventBefore s.flt.captured
  let fatal := es.any (fun e => s.eventClass e == 4)
  let s : State := { s with flt := { s.flt with captured := [] } }
  let s := es.foldl State.classifyOne s
  if fatal then s.snowEnter else s

/-- The collector's part of an aon tick; a capture that the classification itself makes waits for the next one. -/
def State.faultClassify (s : State) : State := if s.blk.porLow then s else s.classify

/-- The collector's copies disagree (R512, R515). -/
def State.collectorMismatch (s : State) (src : Nat) (inj : Bool) : State :=
  if s.blk.porLow then s
  else if s.blk.snow ≠ 0 then
    { s with flt := { s.flt with pend := s.flt.pend ||| bit32 25, overflow := true } }
  else ((s.collectorEvent src inj).history src 4 0).snowEnter

-- FAULT_CAPTURE -----------------------------------------------------------------------------------------------------------------------------

/-- The access number `n` of port `p` under a tag, a read before a write, is found errored (R54-R56, R500): it is issued again. -/
def State.accessLost (s : State) (p : Fin 2) (tag n : Nat) (inj : Bool) : State :=
  let at_ := fun (t : Txn) => t.port == p && t.num == n && t.tag == tag
  match s.fab.rd.find? at_, s.fab.wr.find? at_ with
  | some t, _ => (s.dropRead p n).accessError t false inj
  | none, some t => (s.dropWrite p n).accessError t true inj
  | none, none => s.capture (0x12 + p.val) 0 tag inj

/-- An event of the key lift names the oldest outstanding request of a slot and a tag (R60, R63, R500): it is repeated, or taken as
refused; the answer that a timed-out request is still owed will be discarded. -/
def State.klEvent (s : State) (src tag slot : Nat) (inj : Bool) : State :=
  let s := s.capture src (if src ≤ 0x75 then slot else 0) tag inj
  match s.kl.out.find? (fun k => k.slot == slot && k.tag == tag && !k.timedOut) with
  | none => s
  | some k => s.recover (fun s =>
    let s : State := { s with kl := { s.kl with out := if src = 0x76 then s.kl.out.map (fun q => if q = k then { q with timedOut := true } else q)
                                                        else s.kl.out.erase k } }
    if src = 0x74 then s.klRepeat k
    else (if src = 0x76 then s.bumpSat .klTimeoutCount else s).klRefuse k)

/-- A checker's signal reaches the capture stage, and the unit makes its own recovery (R500, R506); `at_` is the operand's DETAIL, which names
the island, the access or the slot concerned also where the event's own DETAIL is 0. -/
def State.checker (s : State) (src tag detail : Nat) (inj : Bool) (at_ : Nat := detail) : State :=
  if src ≤ 1 then s.collectorMismatch src inj
  else if ¬ s.live then s.capture src detail tag inj
  else if 0x16 ≤ src ∧ src ≤ 0x17 then (if src = 0x16 then s.portFault 0 else s.portFault 1)
  else if 0x20 ≤ src ∧ src ≤ 0x28 then s.laneMem (src - 0x20) src detail inj
  else if 0x30 ≤ src ∧ src ≤ 0x38 then s.laneMem (src - 0x30) src detail inj
  else if 0x40 ≤ src ∧ src ≤ 0x43 then s.digMem (src - 0x40) detail inj
  else if 0x50 ≤ src ∧ src ≤ 0x53 then s.easelMem (src - 0x50) detail inj
  else if 0x06 ≤ src ∧ src ≤ 0x07 then (if src = 0x06 then s.retLate at_ else s.vstepLate)
  else if 0x12 ≤ src ∧ src ≤ 0x13 then s.accessLost (if src = 0x12 then 0 else 1) tag at_ inj
  else if 0x60 ≤ src ∧ src ≤ 0x67 then ({ s with free := s.free + 1 } : State).healthFail (src - 0x60) (s.sampleNo (src - 0x60) s.anyPos)
  else if src = 0x68 then (s.capture src detail tag inj).recover (fun s => s.palLost detail)
  else if src = 0x6A then (if detail < 8 then s.retireSource detail else s)
  else if 0x74 ≤ src ∧ src ≤ 0x77 then s.klEvent src tag at_ inj
  else if src = 0x71 ∨ src = 0x72 then s.ctxLost src detail inj
  else if src = 0x73 then (s.capture src detail tag inj).recover (fun s => s.keyLost detail)
  else if 0x81 ≤ src ∧ src ≤ 0x88 then (if tag ≤ 16 then s.halt tag (src - 0x80) 0 detail false 0 else s)
  else if src = 0x8A then (s.capture src detail tag inj).recover (fun s => s.bumpSat .stnHeadRetryCount)
  else if src = 0x90 then s.tlyCorr detail inj
  else if src = 0x94 then (if detail ≤ 18 ∨ detail = 31 then s.testFails detail else s)
  else match retiredUnit src detail with
    | some u => s.retireUnit u
    | none => s.capture src detail tag inj

/-- FAULT_CAPTURE of a source; reserved IDs are never raised (R500). -/
def State.faultCapture (s : State) (src tag detail : Nat) : State :=
  if s.blk.porLow ∨ (faultFloor src).isNone then s else
  let inj := s.strikes src
  (s.struck src).checker src (if tagged src then tag else 31) (if detailZero src then 0 else detail) inj detail

-- scrubbing (R499, R514, R548) ----------------------------------------------------------------------------------------------------------------

/-- Sources of a memory: correctable, where one is named, and uncorrectable (R500). -/
def scrubSrc : ScrubMem → Option Nat × Nat
  | .lane n => (some 0x39, 0x30 + n)
  | .dig e => (some 0x47, 0x40 + e)
  | .canvas e => (some 0x57, 0x50 + e)
  | .table => (some 0x57, 0x58)
  | .palette => (some 0x69, 0x68)
  | .ctxCache => (some 0x70, 0x71)
  | .keyCache => (some 0x70, 0x73)
  | .dispatcher => (some 0x8B, 0x80)
  | .config => (some 0xB3, 0xB2)
  | .gallery => (none, 0x02)

/-- The island that powers a memory. -/
def scrubIsland : ScrubMem → Nat
  | .lane n => n
  | .dig _ => 9
  | .canvas _ => 10
  | .table => 10
  | .palette => 11
  | _ => 12

/-- The checker of a memory's word code, as an armed injection names it: for digest engines and canvas the correctable ID. -/
def scrubChecker (m : ScrubMem) : Nat := faultChecker ((scrubSrc m).1.getD (scrubSrc m).2)

/-- Clock domain of a memory (R25). -/
def scrubClock : ScrubMem → Nat
  | .lane _ => 4
  | .dig _ => 5
  | .canvas _ => 6
  | .table => 6
  | .palette => 7
  | .gallery => 0
  | _ => 3

/-- A word of a memory is read through the word code, with the outcome of its check (R28, R499, R514). -/
def State.checkWord (s : State) (m : ScrubMem) (idx : Nat) (o : CheckOutcome) : State :=
  let inj := s.armedChecker == some (scrubChecker m)
  let double := bitOf (s.reg .fltInj) 8
  let s := if inj then s.injFired else s
  let o := if inj ∧ o ≠ .uncorrectable then (if double then .uncorrectable else .correctable) else o
  match o with
  | .good => s
  | .correctable => (match (scrubSrc m).1 with
    | some c => s.capture c idx 31 inj
    | none => s)
  | .uncorrectable => s.checker (scrubSrc m).2 31 (idx % 0x10000) inj

/-- The scrubber reads one word of a powered memory (R548), once the clock of its domain runs (R25, log entry 49); whether the pass
over all memories ends with it is a free choice. -/
def State.scrubWord (s : State) (m : ScrubMem) (idx : Nat) (o : CheckOutcome) : State :=
  if ¬ s.live ∨ m.ok = false ∨ ¬ s.islandUp (scrubIsland m) then s
  else if ¬ s.clkOk (scrubClock m) then s.bgAsk (scrubClock m)
  else
    let s := s.bgDone (scrubClock m)
    let ends := Config.freeNat s.free % 2 == 1
    let s : State := { s with free := s.free + 1 }
    let s := if ends then s.bump .scrubCount else s
    s.checkWord m idx o

/-- The memory that an island keeps through retention (R27). -/
def keptMem (i : Nat) : ScrubMem := if i < 9 then .lane i else if i = 10 then .canvas 0 else .ctxCache

/-- Step 4 of R71: the retained contents are read through the word code and count as checked (R28). A word that an injection makes fail
is corrected, or is a memory fault of the island; a word that fails otherwise comes by FAULT_CAPTURE or SCRUB. -/
def State.checkKept (s : State) (i : Nat) : State :=
  if ¬ (s.isl i).kept ∨ ¬ s.islandUp i then s
  else (s.setIsl i { s.isl i with kept := false }).checkWord (keptMem i) 0 .good

-- the collector's registers (R510, R514, R519) --------------------------------------------------------------------------------------------------

/-- IDs that FLT_INJ may name (R514). -/
def injectable (src : Nat) : Bool :=
  src ≤ 2 || src == 8 || (decide (0x10 ≤ src) && decide (src ≤ 0x13)) || (decide (0x20 ≤ src) && decide (src ≤ 0x28))
  || (decide (0x30 ≤ src) && decide (src ≤ 0x39)) || (decide (0x40 ≤ src) && decide (src ≤ 0x43)) || src == 0x47
  || (decide (0x50 ≤ src) && decide (src ≤ 0x53)) || src == 0x57 || src == 0x58 || src == 0x68 || src == 0x69
  || (decide (0x70 ≤ src) && decide (src ≤ 0x75)) || src == 0x79 || src == 0x80 || src == 0x8A || src == 0x8B || src == 0x90 || src == 0x91
  || src == 0xA3 || src == 0xB2 || src == 0xB3

/-- The comparators of the nanosecond count and of the collector compare at every tick: their injection fires at once. -/
def State.fireAtOnce (s : State) : State :=
  let c := fld (s.reg .fltInj) 7 0
  if ¬ s.flt.armed then s
  else if c = 0xA3 then s.injFired.capture 0xA3 0 31 true
  else if c ≤ 1 then s.injFired.collectorMismatch c true
  else s

/-- A write to FLT_INJ: `none` is ERROR. -/
def State.writeFltInj (s : State) (v : Word) : Option State :=
  if ¬ bitOf (s.reg .fltCtrl) 30 ∨ s.flt.armed ∨ ¬ injectable (fld v 7 0) then none else
  let s := s.setReg .fltInj 0 0 (v &&& 0x1FF)
  if bitOf v 31 then some (({ s with flt := { s.flt with armed := true, injDone := false } } : State)).fireAtOnce else some s

/-- A write to FLT_CTRL: REARM empties the latch; INJ_EN is RWL. -/
def State.writeFltCtrl (s : State) (v : Word) : State :=
  if bitOf v 31 then { s with flt := { s.flt with first := none, overflow := false } } else s

/-- A write to FLT_PEND clears the bits written 1. -/
def State.writeFltPend (s : State) (v : Word) : State := { s with flt := { s.flt with pend := s.flt.pend &&& ~~~v } }

/-- FLT_FIRST and FLT_LAST_MINOR. -/
def eventWord (x : Option (Event × Nat)) (overflow : Bool) : Word :=
  match x with
  | none => 0
  | some (e, c) => flag true 31 ||| flag overflow 30 ||| flag e.coarse 29 ||| flag e.inj 28 ||| at_ c 24 ||| at_ e.tag 16 ||| at_ e.src 0

-- the commands --------------------------------------------------------------------------------------------------------------------------------

/-- SCRUB (R37, R499, R548). -/
def execScrub (m : ScrubMem) (idx : Nat) (o : CheckOutcome) (s : State) : Out := (s.scrubWord m idx o).done
/-- RETENTION_ACK (R28, R69, R71). -/
def execRetentionAck (i : Island) (v : Bool) (s : State) : Out := (((s.retAck (islIdx i) v).checkKept (islIdx i)).initAdvance).done
/-- TALLY_WRITE_DURABLE (R521, R524, R516). -/
def execTallyWriteDurable (s : State) : Out := (s.tlyDurable.snowDone).done
/-- FAULT_CAPTURE (R500, R506). -/
def execFaultCapture (src : BitVec 8) (tag : BitVec 5) (detail : BitVec 16) (s : State) : Out :=
  (s.faultCapture src.toNat tag.toNat detail.toNat).done
/-- FAULT_CLASSIFY (R501-R508, R515-R517). -/
def execFaultClassify (s : State) : Out := s.faultClassify.done
/-- COLLECTOR_MISMATCH (R512). -/
def execCollectorMismatch (logic : Bool) (s : State) : Out :=
  let src := if logic then 1 else 0
  ((s.struck src).collectorMismatch src (s.strikes src)).done
/-- FAULT_PENDING_CLEAR (R510). -/
def execFaultPendingClear (v : Word) (s : State) : Out := (s.mgmt (some (s.writeFltPend v))).done
/-- REARM (R510). -/
def execRearm (s : State) : Out := (s.mgmt (some (s.writeFltCtrl 0x80000000))).done
/-- FAULT_INJECT_ARM (R514): a write of FLT_INJ with ARM. -/
def execFaultInjectArm (v : Word) (s : State) : Out := (s.mgmt (s.writeFltInj (0x80000000 ||| v))).done

end Sys2Proof.Machine
end

