-- ==== Sys2Proof/Machine/Grant.lean ====
section
/-! DEFINITION. The scheduler's commands: grants, commits and mismatches of strokes, rotation, the gate list's events. -/
namespace Sys2Proof.Machine

/-- What a swap does to a gate-locked request that waits or runs (R214, R215). -/
def State.rebind (s : State) (r : Req) : Req :=
  if r.cls ≠ 2 ∨ ¬ opGranted (dOp r.d) ∨ ¬ r.inFlight then r
  else if r.started then { r with fallen := true }
  else
    let r := { r with bound := none }
    let g := s.gateOf r.f r.n
    if ¬ s.gateOpens g then { r with fallen := true, late := true }
    else match s.gate.elig.find? (fun e => e.g == g) with
      | some e => { r with bound := some e.opens }
      | none => r

/-- A time of two register words. -/
def timeOf2 (lo hi : Word) : Nat := lo.toNat + hi.toNat * 2 ^ 32

/-- The administrative list may take effect at an instant of the count (R208): from GATE_CHANGE on, at a start of one of its cycles and
not inside a cycle of the list in operation. -/
def State.swapAt (s : State) (t : Nat) : Bool :=
  let base := timeOf2 (s.reg .gateAdminBaseLo) (s.reg .gateAdminBaseHi)
  let start := fun (b c : Nat) => decide (b ≤ t) && (t - b) % c == 0
  decide (timeOf2 (s.reg .gateChangeLo) (s.reg .gateChangeHi) ≤ t) && start base (s.reg .gateAdminCycle).toNat
  && (!s.gate.oper || decide (t < s.operBase) || start s.operBase (s.reg .gateOperCycle).toNat)

/-- The first instant of the microsecond that has begun with the count's present value which a condition accepts: between two aon ticks
the count of the state stands while the time unit's runs on (log entry 37). -/
def State.thisMicro (s : State) (p : Nat → Bool) : Option Nat := ((List.range 1000).map (s.now + ·)).find? p

/-- A swap takes effect (R208, R214, R215), at the first instant that may take it. -/
def State.swapEffect (s : State) : State :=
  if ¬ s.gate.pending then s else
  match s.thisMicro s.swapAt with
  | none => s
  | some at_ =>
    let s := ((s.setReg .gateOperBaseLo 0 0 (s.reg .gateAdminBaseLo)).setReg .gateOperBaseHi 0 0 (s.reg .gateAdminBaseHi))
    let s := ((s.setReg .gateOperCycle 0 0 (s.reg .gateAdminCycle)).setReg .gateOperLen 0 0 (s.reg .gateAdminLen))
    let s := (List.range 64).foldl (fun (s : State) i =>
      (s.setReg .gateOperIvl 0 i (s.reg .gateAdminIvl 0 i)).setReg .gateOperGates 0 i (s.reg .gateAdminGates 0 i)) s
    let s : State := { s with gate := { oper := true, since := at_ } }
    let lead := fld (s.reg .gateLead) 19 0
    let el := (List.range 8).filterMap (fun g => (s.windowAt g (at_ + lead)).map (fun t => ({ g := g, opens := t, lead := lead } : Elig)))
    let s : State := { s with gate := { s.gate with elig := el } }
    { s with reqs := s.reqs.map s.rebind }

/-- An eligibility interval of a gate begins (R210, R213): requests without an interval are bound to it. -/
def State.eligStart (s : State) (g : Nat) : State :=
  let lead := fld (s.reg .gateLead) 19 0
  if ¬ s.gate.oper ∨ s.gate.elig.any (fun e => e.g == g) then s else
  match (s.thisMicro (fun t => (s.windowAt g (t + lead)).isSome)).bind (fun t => s.windowAt g (t + lead)) with
  | none => s
  | some t =>
    { s with gate := { s.gate with elig := s.gate.elig ++ [{ g := g, opens := t, lead := lead }] }
             reqs := s.reqs.map (fun r =>
               if r.cls = 2 ∧ opGranted (dOp r.d) ∧ r.inFlight ∧ ¬ r.started ∧ ¬ r.fallen ∧ r.bound.isNone ∧ s.gateOf r.f r.n = g
               then { r with bound := some t } else r) }

/-- What the end of an interval of gate `g` does to a request (R211, R213): a started one falls to the priority class; one that was
bound to the interval and has had no grant waits for a later one, and is LATE. -/
def State.unbind (s : State) (g : Nat) (r : Req) : Req :=
  if r.cls ≠ 2 ∨ ¬ opGranted (dOp r.d) ∨ ¬ r.inFlight ∨ s.gateOf r.f r.n ≠ g then r
  else if r.started then { r with fallen := true }
  else if r.bound.isSome then { r with bound := none, late := true } else r

/-- An eligibility interval of a gate ends (R210, R211) where t_close - LEAD, under the LEAD it began with, has come: the window that
contains the instant LEAD ahead is no longer its own. -/
def State.eligEnd (s : State) (g : Nat) : State :=
  match s.gate.elig.find? (fun e => e.g == g) with
  | none => s
  | some e =>
    if (s.thisMicro (fun t => s.windowAt g (t + e.lead) != some e.opens)).isNone then s else
    { s with gate := { s.gate with elig := s.gate.elig.filter (fun e => e.g != g) }
             reqs := s.reqs.map (s.unbind g) }

/-- PREWAKE (R217): the core island and the lowest lane islands in service. -/
def State.prewake (s : State) (g : Nat) : State :=
  let c := s.reg .gateCtrl
  if ¬ s.gate.oper ∨ ¬ bitOf c (8 + g) ∨ ¬ s.live then s else
  let lanes := ((List.range 9).filter s.laneIn).take (fld c 7 4)
  lanes.foldl State.islWake (s.islWake 12)

-- the commands --------------------------------------------------------------------------------------------------------------------

/-- STROKE_GRANT (R201-R206, R219-R221, R279, R349). -/
def execStrokeGrant (e : Engine) (s : State) : Out :=
  (match e with | .lane n => s.grantLane n | .dig n => s.grantDig n).done

/-- STROKE_COMMIT (R18-R20, R34, R293). -/
def execStrokeCommit (e : Engine) (s : State) : Out :=
  (match e with | .lane n => s.commitLane n | .dig n => s.commitDig n).done

/-- DUPLICATE_MISMATCH (R30-R33, R291, R292, R564). -/
def execDuplicateMismatch (e : Engine) (s : State) : Out :=
  (match e with
   | .lane n => if n < 9 then s.failLane n (0x20 + n) false else s
   | .dig n => if n < 4 then s.failDig n false else s).done

/-- GATE_SWAP_EFFECT (R208, R214, R215). -/
def execGateSwapEffect (s : State) : Out := s.swapEffect.done
/-- ELIGIBILITY_START (R210, R211, R213). -/
def execEligibilityStart (gate : Fin 8) (s : State) : Out := (s.eligStart gate.val).done
/-- ELIGIBILITY_END (R210, R211). -/
def execEligibilityEnd (gate : Fin 8) (s : State) : Out := (s.eligEnd gate.val).done
/-- PREWAKE (R217). -/
def execPrewake (gate : Fin 8) (s : State) : Out := (s.prewake gate.val).done

end Sys2Proof.Machine
end

