-- ==== Sys2Proof/Machine/LaneOps.lean ====
section
/-! DEFINITION. The lane and digest operations. Their checks run before the first stroke (`State.prep`), their strokes read
and commit under the scheduler; each command computes the output of the strokes of its operation that are on engines with
their source read. The outcome is fixed at the commit point (`State.outcome`). -/
namespace Sys2Proof.Machine

/-- ECB_ENCRYPT (R272). -/
def execEcbEncrypt (id : Nat) (s : State) : Out := (s.compute 0x10 id).done
/-- ECB_DECRYPT (R272). -/
def execEcbDecrypt (id : Nat) (s : State) : Out := (s.compute 0x11 id).done
/-- CBC_ENCRYPT (R272, R273). -/
def execCbcEncrypt (id : Nat) (s : State) : Out := (s.compute 0x12 id).done
/-- CBC_DECRYPT (R272, R273). -/
def execCbcDecrypt (id : Nat) (s : State) : Out := (s.compute 0x13 id).done
/-- CTR (R274). -/
def execCtr (id : Nat) (s : State) : Out := (s.compute 0x14 id).done
/-- XTS_ENCRYPT (R276). -/
def execXtsEncrypt (id : Nat) (s : State) : Out := (s.compute 0x15 id).done
/-- XTS_DECRYPT (R276). -/
def execXtsDecrypt (id : Nat) (s : State) : Out := (s.compute 0x16 id).done
/-- GCM_ENCRYPT (R277, R269, R271). -/
def execGcmEncrypt (id : Nat) (s : State) : Out := (s.compute 0x18 id).done
/-- GCM_DECRYPT (R277, R282, R283). -/
def execGcmDecrypt (id : Nat) (s : State) : Out := (s.compute 0x19 id).done
/-- CCM_ENCRYPT (R278). -/
def execCcmEncrypt (id : Nat) (s : State) : Out := (s.compute 0x1A id).done
/-- CCM_DECRYPT (R278, R282, R283). -/
def execCcmDecrypt (id : Nat) (s : State) : Out := (s.compute 0x1B id).done
/-- GMAC_GENERATE (R277). -/
def execGmacGenerate (id : Nat) (s : State) : Out := (s.compute 0x1C id).done
/-- GMAC_VERIFY (R277, R285). -/
def execGmacVerify (id : Nat) (s : State) : Out := (s.compute 0x1D id).done
/-- CMAC_GENERATE (R280). -/
def execCmacGenerate (id : Nat) (s : State) : Out := (s.compute 0x1E id).done
/-- CMAC_VERIFY (R280, R285). -/
def execCmacVerify (id : Nat) (s : State) : Out := (s.compute 0x1F id).done
/-- CHACHA20 (R275). -/
def execChacha20 (id : Nat) (s : State) : Out := (s.compute 0x20 id).done
/-- CHACHA20_POLY1305_ENCRYPT (R275, R271). -/
def execChachaPolyEncrypt (id : Nat) (s : State) : Out := (s.compute 0x21 id).done
/-- CHACHA20_POLY1305_DECRYPT (R275, R282, R283). -/
def execChachaPolyDecrypt (id : Nat) (s : State) : Out := (s.compute 0x22 id).done
/-- KEY_WRAP (R281). -/
def execKeyWrap (id : Nat) (s : State) : Out := (s.compute 0x23 id).done
/-- KEY_UNWRAP (R281, R285). -/
def execKeyUnwrap (id : Nat) (s : State) : Out := (s.compute 0x24 id).done
/-- CBC_HMAC_ENCRYPT (R286, R287). -/
def execCbcHmacEncrypt (id : Nat) (s : State) : Out := (s.compute 0x40 id).done
/-- CBC_HMAC_VERIFY_DECRYPT (R286-R288). -/
def execCbcHmacVerifyDecrypt (id : Nat) (s : State) : Out := (s.compute 0x41 id).done
/-- CTR_HMAC (R286-R288). -/
def execCtrHmac (id : Nat) (s : State) : Out := (s.compute 0x42 id).done
/-- HASH (R300-R308, R311). -/
def execHash (id : Nat) (s : State) : Out := (s.compute 0x30 id).done
/-- HASH_PARTIAL (R310, R311). -/
def execHashPartial (id : Nat) (s : State) : Out := (s.compute 0x31 id).done
/-- HMAC (R309, R313, R314, R316). -/
def execHmac (id : Nat) (s : State) : Out := (s.compute 0x32 id).done
/-- HMAC_VERIFY (R309, R314, R316). -/
def execHmacVerify (id : Nat) (s : State) : Out := (s.compute 0x33 id).done
/-- HMAC_PARTIAL (R315, R316). -/
def execHmacPartial (id : Nat) (s : State) : Out := (s.compute 0x34 id).done
/-- STENCIL_OUT (R337-R344). -/
def execStencilOut (id : Nat) (s : State) : Out := (s.compute 0x50 id).done
/-- STENCIL_IN (R337-R344). -/
def execStencilIn (id : Nat) (s : State) : Out := (s.compute 0x51 id).done
/-- SEAL (R349, R350, R344). -/
def execSealRecord (id : Nat) (s : State) : Out := (s.compute 0x52 id).done
/-- SEAL_CHECK (R351, R343, R344). -/
def execSealCheck (id : Nat) (s : State) : Out := (s.compute 0x53 id).done

end Sys2Proof.Machine
end

