-- ==== Sys2Proof/Machine/Regs.lean ====
section
/-! DEFINITION. Reads and writes of every register (R12-R17, R43-R45, R111-R118, R129, R130, R554-R563). -/
namespace Sys2Proof.Machine

-- what a register reads ------------------------------------------------------------------------------------------------------

/-- Word `j` of a byte string: bytes 4j to 4j + 3, byte 4j in bits 7:0. -/
def wordAt (b : Bytes) (j : Nat) : Word := BitVec.ofNat 32 (fieldLE b (4 * j) 4)

/-- A mask of the numbers below `n` that satisfy `p`. -/
def maskOf (n : Nat) (p : Nat → Bool) : Word := BitVec.ofNat 32 (((List.range n).filter p).foldl (fun t i => t + 2 ^ i) 0)

/-- BLK_START_STATUS (R100). -/
def State.startStatusWord (s : State) : Word :=
  let b := s.blk
  flag b.lbistRun 19 ||| flag b.stFail 18 ||| at_ b.image 16 ||| at_ b.causeB 12 ||| at_ b.causeA 8 ||| at_ b.phase 0

/-- BLK_ISLAND_STATUS (R101). -/
def State.islandWord (s : State) : Word :=
  maskOf 13 s.islandUp ||| (maskOf 13 (fun i => (s.isl i).kept && (s.isl i).step != .up) <<< 16)

/-- BLK_FN_CFG[f] (R114). -/
def State.fnCfgWord (s : State) (f : Nat) : Word :=
  let x := s.fn f
  at_ (s.epoch f) 16 ||| flag x.halted 5 ||| flag (!x.resetting) 4 ||| flag x.epochFail 3 ||| flag x.epochBusy 2 ||| flag x.enabled 0

/-- FN_STATUS (R143). -/
def State.fnStatusWord (s : State) (f : Nat) : Word :=
  let x := s.fn f
  flag x.halted 31 ||| flag (!x.resetting) 30 ||| flag x.enabled 29 ||| at_ x.cause 24 ||| flag x.noEntry 23 ||| at_ x.ring 16
  ||| at_ (x.entry % 0x10000) 0

/-- FN_PM (R143). -/
def State.fnPmWord (s : State) (f : Nat) : Word := flag (s.fnAck f) 8 ||| flag ((s.fn f).pm != .run) 0

/-- M's last RWP write is not yet durable (R551). -/
def State.mBusy (s : State) : Bool :=
  (s.tly.cur.toList ++ s.tly.queue ++ s.tly.wait).any (fun w => w.who.any (fun x => match x with | .m => true | _ => false))

/-- TLY_STATUS (R551). -/
def State.tlyStatusWord (s : State) : Word := flag s.mBusy 31 ||| flag s.tly.cur.isSome 30 ||| at_ s.tly.queue.length 0

/-- ROLE of a unit (R297, R319, R400). -/
def roleCode (retired test reserve : Bool) : Nat := if retired then 2 else if test then 3 else if reserve then 1 else 0

/-- LANE_STATUS[n] (R297). Banks fill from bank 0 (DESIGN CHOICE, log entry 28). -/
def State.laneStatusWord (s : State) (n : Nat) : Word :=
  at_ (roleCode (s.retired n) (s.lane n).test (s.reserve == some n)) 30 ||| at_ (s.ageU n).step 28
  ||| (maskOf 4 (fun b => decide (b < (s.lane n).banks.length)) <<< 20) ||| flag (s.islandUp n) 0

/-- Digest engine `e` runs a stroke, a state computation, a gallery extension or the hashes of a PSS check (R319, R370). -/
def State.digBusy (s : State) (e : Nat) : Bool :=
  (s.dig e).run.isSome
  || (List.range 9).any (fun n => match (s.lane n).run with | some w => w.digest == some e | none => false)
  || ((s.gal.ext != [] || s.pssWaits) && s.freeDig == some e)

/-- DIG_STATUS[e] (R319). -/
def State.digStatusWord (s : State) (e : Nat) : Word :=
  at_ (roleCode (s.retired (9 + e)) (s.dig e).test false) 30 ||| flag (s.digBusy e) 1 ||| flag (s.islandUp 9) 0

/-- EASEL_STATUS[e] (R400); an easel taken out for a test is under test once it holds no computation. -/
def State.easelStatusWord (s : State) (e : Nat) : Word :=
  let x := s.easel e
  at_ (roleCode (s.retired (13 + e)) (x.test && x.held == 0) false) 30 ||| at_ x.recover 16 ||| at_ (64 - x.pagesUsed) 8 ||| at_ x.held 4
  ||| flag x.running.isSome 1 ||| flag (s.islandUp 10) 0

/-- SCHED_DEFER[k] (R197). -/
def State.deferWord (s : State) (k : Nat) : Word :=
  maskOf 32 (fun j => s.reqs.any (fun r => r.deferred && ringG r.f r.n == 32 * k + j))

/-- Dirty cache entries of a cached context, its extension lines counted by themselves (R237, R263). -/
def CLine.dirtyEntries (l : CLine) : Nat :=
  (if l.res && l.work != l.memCtr then 1 else 0)
  + ((List.range l.xmem.length).filter (fun i => slice l.pay (40 * i) 40 != slice l.mpay (40 * i) 40)).length

/-- CTX_CACHE_STATUS (R263). -/
def State.cacheStatusWord (s : State) : Word :=
  at_ ((s.ctx.cache.map CLine.dirtyEntries).foldl (· + ·) 0) 16 ||| at_ ((s.ctx.cache.map (fun l => 1 + l.xmem.length)).foldl (· + ·) 0) 0

/-- CTX_TABLE_CTRL (R263). -/
def State.tableCtrlWord (s : State) : Word :=
  flag s.ctx.enable 31 ||| flag (s.ctx.disabling || s.ctx.genBusy) 30 ||| flag s.ctx.genFail 29 ||| at_ s.gen 0

/-- KL_LAST_REFUSE (R263). -/
def State.lastRefuseWord (s : State) : Word :=
  match s.kl.last with
  | some k => at_ k.tag 24 ||| at_ k.use 20 ||| at_ k.slot 0
  | none => 0

/-- GAL_LAST_INFO (R326). -/
def State.galInfoWord (s : State) : Word :=
  match s.gal.latch with
  | some (h, u, _) => flag true 31 ||| at_ h 27 ||| at_ u 0
  | none => 0

/-- The latched digest (R326). -/
def State.galLatched (s : State) : Bytes := match s.gal.latch with | some (_, _, b) => b | none => zeros 64

/-- ENT_RAW_STATUS (R478). -/
def State.rawStatusWord (s : State) : Word :=
  flag s.ent.raw 31 ||| flag s.ent.rawDone 30 ||| flag s.ent.rawErr 29 ||| at_ s.ent.rawBytes 0

/-- AGE_END (R541, R553). -/
def State.ageEndWord (s : State) : Word :=
  let (h, u) := s.blk.ageEnd.getD (0xFFFFF, 0)
  flag (s.age.any (fun a => a.2.projValid)) 31 ||| at_ (fld (s.tlyVal 160) 1 0) 29 ||| flag (bitOf (s.tlyVal 160) 2) 28 ||| at_ u 20 ||| at_ h 0

/-- AGE_UNIT[u] (R553). -/
def State.ageUnitWord (s : State) (u : Nat) : Word :=
  let x := s.ageU u
  flag x.valid 31 ||| flag x.mret 30 ||| at_ x.step 28 ||| at_ x.slack 0

/-- AGE_PROJ[u] (R553). -/
def State.ageProjWord (s : State) (u : Nat) : Word := flag (s.ageU u).projValid 31 ||| at_ (s.ageU u).e 0

/-- The event that the latch holds. -/
def State.firstEvent (s : State) : Event := (s.flt.first.map (·.1)).getD { src := 0, tag := 0 }

/-- The tenant ring that an entry of the meter overview names (R188). -/
def aliasRing (g : Nat) : Nat × Nat := (g / 64, g % 64)

/-- The value that a register shows, without the side effects of a read. Registers kept by the units show their state; the
others show what is stored. -/
def State.readVal (s : State) (r : Reg) : Word :=
  let i := r.i
  let j := r.j
  match r.name with
  | .startStatus => s.startStatusWord
  | .primerVersion => BitVec.ofNat 32 s.blk.version
  | .primerFloor => if s.blk.tlyRead then s.tlyVal 0 else 0
  | .blkPm => at_ s.blk.pm 4 ||| flag (s.blk.pm != 0) 0
  | .islandStatus => s.islandWord
  | .fnCfg => s.fnCfgWord i
  | .fnResetM | .fnReset => 0
  | .fltPend => s.flt.pend
  | .fltFirst => eventWord s.flt.first s.flt.overflow
  | .fltFirstDetail => at_ s.firstEvent.detail 0
  | .fltFirstTimeLo => BitVec.ofNat 32 s.firstEvent.time
  | .fltFirstTimeHi => BitVec.ofNat 32 (s.firstEvent.time / 2 ^ 32)
  | .fltLastMinor => eventWord s.flt.lastMinor false
  | .fltInj => s.reg .fltInj ||| flag s.flt.armed 30 ||| flag s.flt.injDone 29
  | .fltState => at_ s.blk.snow 0
  | .tly => s.tlyVal j
  | .tlyWear => at_ (s.tlyWearOf j) 0
  | .tlyStatus => s.tlyStatusWord
  | .tlyRefuseLast => (match s.tly.refused with | some k => flag true 31 ||| at_ k 0 | none => 0)
  | .tlyWriteCount => BitVec.ofNat 32 s.tly.writes
  | .gal | .galView => wordAt (s.galVal (j / 16)) (j % 16)
  | .galCount | .galCountView => at_ (s.galCount j) 0
  | .galExtCtrl => s.reg .galExtCtrl ||| flag (s.gal.ext != []) 30
  | .galLastInfo => s.galInfoWord
  | .galLast => wordAt s.galLatched j
  | .entCtrl => s.reg .entCtrl ||| flag s.ent.enable 31
  | .entStatus => s.entStatusWord
  | .entLevel => at_ s.palBytes 0
  | .entSrcStatus => s.srcStatusWord i
  | .entRawStatus => s.rawStatusWord
  | .laneStatus => s.laneStatusWord i
  | .digStatus => s.digStatusWord i
  | .easelStatus => s.easelStatusWord i
  | .easelCurveValid => maskOf 32 (fun k => (s.curve k).isSome)
  | .easelCurveLoaded => maskOf 32 (fun k => s.tables.loaded.contains k)
  | .easelAnchorValid => maskOf 16 (fun k => (s.anchor k).isSome)
  | .easelCurve => wordAt ((s.curve (j / 128)).getD []) (j % 128)
  | .easelAnchor => wordAt ((s.anchor (j / 64)).getD []) (j % 64)
  | .gateCtrl => s.reg .gateCtrl ||| flag s.gate.oper 31 ||| flag s.gate.pending 30
  | .schedDefer => s.deferWord j
  | .aMeterCfg => s.reg .meterCfg (aliasRing j).1 (aliasRing j).2
  | .aMeterRate => s.reg .meterRate (aliasRing j).1 (aliasRing j).2
  | .aMeterBurst => s.reg .meterBurst (aliasRing j).1 (aliasRing j).2
  | .aMeterLevel => levelWord (s.ring j).level
  | .aRingSched => s.reg .ringSched (aliasRing j).1 (aliasRing j).2
  | .ctxTableCtrl => s.tableCtrlWord
  | .ctxCacheStatus => s.cacheStatusWord
  | .klStatus => flag s.ctx.inval.isSome 31 ||| at_ s.kl.out.length 0
  | .klLastRefuse => s.lastRefuseWord
  | .timeNowLo => BitVec.ofNat 32 s.now
  | .timeStatus => s.timeStatus
  | .bistStatus => s.bistStatusWord
  | .bistSig => BitVec.ofNat 32 (s.bist.sig.toNat / 2 ^ (32 * j))
  | .ageCtrl => 0
  | .agePlan => at_ s.lifeHours 0
  | .ageEnd => s.ageEndWord
  | .ageUnit => s.ageUnitWord i
  | .ageLast => at_ (s.ageU i).hour4 0
  | .ageProj => s.ageProjWord i
  | .stnInfo => at_ (stnSteps s.tables.stencils) 16 ||| at_ (stnCount s.tables.stencils) 0
  | .stnDir => if j / 4 < stnCount s.tables.stencils then wordAt (stnDir s.tables.stencils (j / 4)) (j % 4) else 0
  | .stnStep => if j / 2 < stnSteps s.tables.stencils then wordAt (stnStep s.tables.stencils (j / 2)) (j % 2) else 0
  | .libInfo => at_ 3 24 ||| at_ (libCount s.tables.library) 0
  | .libCode => at_ (fieldLE s.tables.library 4 4) 0
  | .libEntry => if j % 32 < 24 then wordAt (libEntryB s.tables.library (j / 32)) (j % 32) else 0
  | .ringHead => s.posWord i j (s.ring (ringG i j)).head
  | .ringTail => s.posWord i j (s.ring (ringG i j)).tail
  | .ringFetch => s.posWord i j (s.ring (ringG i j)).fetch
  | .ringStatus => s.ringStatus i j
  | .ringDoneCount => BitVec.ofNat 32 (s.ring (ringG i j)).done
  | .meterLevel => levelWord (s.ring (ringG i j)).level
  | .ringDb => 0
  | .fnStatus => s.fnStatusWord i
  | .fnPm => s.fnPmWord i
  | .fnCtxBaseV => s.reg .fnCtxBase i
  | .fnCtxLimitV => s.reg .fnCtxLimit i
  | .fnEpoch => at_ (s.epoch i) 0
  | .fnHaltLo => BitVec.ofNat 32 (s.fn i).haltAddr
  | .fnHaltHi => BitVec.ofNat 32 ((s.fn i).haltAddr / 2 ^ 32)
  | .entWordStatus => (s.fn i).entStatus
  | .fnWinBaseLo => s.reg .winBaseLo i j
  | .fnWinBaseHi => s.reg .winBaseHi i j
  | .fnWinLimitLo => s.reg .winLimitLo i j
  | .fnWinLimitHi => s.reg .winLimitHi i j
  | .vecCtrl => s.reg .vecCtrl i j ||| flag (s.pendOn i j) 1
  | n => s.reg n i j

-- counters (R297, R319, R400) -------------------------------------------------------------------------------------------

/-- Counters of a lane, a digest engine or an easel, the busy counter first. -/
def unitCounters : RegName → List RegName
  | .laneCntCtrl => [.laneBusyCount, .laneStrokeCount, .laneRetryCount, .laneCoverCount, .laneAuthFailCount]
  | .digCntCtrl => [.digBusyCount, .digBlockCount, .digRetryCount, .digCoverCount]
  | .easelCntCtrl => [.easelBusyCount, .easelCompCount, .easelRetryCount, .easelRejectCount, .easelYieldCount]
  | _ => []

/-- A write to a counter control: FREEZE takes its value, CLEAR zeroes every counter of the unit. -/
def State.cntCtrl (s : State) (c : RegName) (i : Nat) (v : Word) : State :=
  let s := s.setReg c i 0 (v &&& 1)
  if bitOf v 1 then
    let s := (unitCounters c).foldl (fun (s : State) n => s.setReg n i 0 0) s
    { s with busyRest := tset (fun _ => 0) s.busyRest (if c = .laneCntCtrl then i else if c = .digCntCtrl then 9 + i else 13 + i) 0 }
  else s

-- lane groups (R298) ---------------------------------------------------------------------------------------------------------------

/-- Registers of a lane page in the order of their offsets. -/
def laneRegs : List RegName :=
  [.laneStatus, .laneCntCtrl, .laneStrokeCount, .laneRetryCount, .laneCoverCount, .laneBusyCount, .laneAuthFailCount]

/-- Members of a group, 4 being the broadcast window. -/
def State.members (s : State) (g : Nat) : List Nat :=
  if g = 4 then List.range 9 else (List.range 9).filter (fun n => bitOf (s.reg .laneGroup 0 g) n)

/-- A read through a group or broadcast window. -/
def State.groupRead (s : State) (g j : Nat) : State × Word :=
  let name := laneRegs.getD j .laneStatus
  let ms := s.members g
  match ms.map (fun n => s.readVal ⟨name, n, 0⟩) with
  | [] => (s, 0)
  | x :: t => (if t.all (· == x) then s else s.setReg .laneBcastDiff 0 0 (s.reg .laneBcastDiff ||| bit32 g), x)

/-- A write through a group or broadcast window: only the counter control takes it. -/
def State.groupWrite (s : State) (g j : Nat) (v : Word) : State :=
  if j = 1 then (s.members g).foldl (fun (s : State) n => s.cntCtrl .laneCntCtrl n v) s else s

-- reads -----------------------------------------------------------------------------------------------------------------------------

/-- Registers of the fault collector. -/
def collectorReg (n : RegName) : Bool := decide (RegName.fltCtrl.ctorIdx ≤ n.ctorIdx) && decide (n.ctorIdx ≤ RegName.fltReact.ctorIdx)

/-- The word-code checker of a register's storage (R500): RWL fields, the ring and meter registers, other block control registers and the
gallery. The collector keeps two copies instead (R512). -/
def wordChecker (n : RegName) : Option Nat :=
  if collectorReg n then none
  else if n.row.rwl ≠ 0 then some 0xB3
  else if n.row.win ∧ n.row.rw ≠ 0 then some 0x8B
  else if n = .gal ∨ n = .galView ∨ n.row.rw ≠ 0 then some 0x02
  else none

/-- An armed injection strikes the word of a register that is read (R514); a corrected word of CTRL_REG has no event of its own. -/
def State.regStrike (s : State) (n : RegName) : State :=
  match wordChecker n with
  | none => s
  | some c => match s.wordStrike c with
    | none => s
    | some true => s.injFired.capture (if c = 0xB3 then 0xB2 else if c = 0x8B then 0x80 else 0x02) 0 31 true
    | some false => if c = 0x02 then s.injFired else s.injFired.capture c 0 31 true

/-- A read of a register that does not stall, with what the read itself changes (R16, R298, R496, R514). -/
def State.readReg (s : State) (r : Reg) : State × Word :=
  match r.name with
  | .groupWin => s.groupRead r.i r.j
  | .bcastWin => s.groupRead 4 r.j
  | .timeNowLo => (s.setReg .timeNowHi 0 0 (BitVec.ofNat 32 (s.now / 2 ^ 32)), BitVec.ofNat 32 s.now)
  | .tly => (s.tlyStrike r.j, s.tlyVal r.j)
  | n =>
    let v := s.readVal r
    let s := s.regStrike n
    (if n.row.rc then s.setReg n r.i r.j 0 else s, v)

/-- The identity and status set (R557). -/
def identity (n : RegName) : Bool :=
  n == .blkId || n == .blkCaps || n == .startStatus || n == .primerVersion || n == .primerFloor || n == .islandStatus

/-- The block's state answers a read of this register (R82, R109, R557). -/
def State.readable (s : State) (n : RegName) : Bool :=
  s.serves
  || (if s.blk.frozen ∨ s.blk.st = .snowplough then identity n || collectorReg n
      else if s.blk.st = .starting then identity n
      else n == .blkId || n == .startStatus || collectorReg n)

/-- A read of register `r`, answered now or stalled. A fatal event captured by the read itself turns its answer to ERROR. -/
def State.doRead (s : State) (r : Reg) : State :=
  if ¬ s.readable r.name then s.refuse
  else match r.name with
    | .fnFence => s.fenceRead r.i
    | .entWord => s.entWordRead r.i
    | _ =>
      let (t, v) := s.readReg r
      if t.blk.frozen ∧ ¬ s.blk.frozen then t.refuse else t.respond 0 v

/-- A legal access size and address (R555). -/
def accessOk (addr size : Nat) : Bool := size == 2 && addr % 4 == 0

/-- A read access (R43, R45, R555-R557). -/
def State.regRead (s : State) (addr size : Nat) : State :=
  if ¬ s.portTakes then s.present
  else if ¬ accessOk addr size then s.refuse
  else match regAt addr with
    | none => s.refuse
    | some r => s.doRead r

-- writes with effects ------------------------------------------------------------------------------------------------------------------

/-- Store the writable bits of a register. -/
def State.store (s : State) (r : Reg) (v : Word) : State := s.setReg r.name r.i r.j (merge (s.reg r.name r.i r.j) v r.name.row.rw)

/-- A stored register that is locked in some states: `none` is ERROR. -/
def State.locked (s : State) (r : Reg) (v : Word) (lock : Bool) : Option State := if lock then none else some (s.store r v)

/-- A tenant's handle range and windows may be written only while it is Disabled; M's are RWL (R113, R115). -/
def State.writeConfig (s : State) (r : Reg) (v : Word) : Option State :=
  if r.i = 16 then some s else s.locked r v (!s.fnDisabled r.i)

/-- A write to RING_CFG (R145-R147). -/
def State.writeRingCfg (s : State) (f n : Nat) (v : Word) : Option State :=
  let old := s.reg .ringCfg f n
  let size := fld v 4 0
  if size < 4 ∨ 16 < size then none
  else if bitOf old 31 then (if size = fld old 4 0 ∧ bitOf v 8 = bitOf old 8 then some s else none)
  else
    let s := s.store ⟨.ringCfg, f, n⟩ v
    if bitOf v 31 then
      some (s.setRing (ringG f n) { s.ring (ringG f n) with head := 0, tail := 0, fetch := 0, metered := 0, next := 0 })
    else some s

/-- The level after a write of M to a meter's configuration (R198). -/
def State.meterReset (s : State) (f n : Nat) : State :=
  let lv : Int := if bitOf (s.reg .meterCfg f n) 4 then ((fld (s.reg .meterBurst f n) 23 0 * 256 : Nat) : Int) else 0
  s.setRing (ringG f n) { s.ring (ringG f n) with level := lv }

/-- A write of M to a meter or scheduling register of a ring (R187, R198). -/
def State.writeMeter (s : State) (f n : Nat) (r : MeterReg) (v : Word) : Option State :=
  match r with
  | .cfg => if fld v 1 0 = 3 then none else some ((s.store ⟨.meterCfg, f, n⟩ v).meterReset f n)
  | .rate => some ((s.store ⟨.meterRate, f, n⟩ v).meterReset f n)
  | .burst => if fld v 23 0 = 0 then none else some ((s.store ⟨.meterBurst, f, n⟩ v).meterReset f n)
  | .level => some s
  | .sched => if fld v 15 8 = 0 then none else some (s.store ⟨.ringSched, f, n⟩ v)

/-- The list that SWAP would put in operation is legal (R208). -/
def State.swapOk (s : State) : Bool :=
  let cycle := (s.reg .gateAdminCycle).toNat
  let len := (s.reg .gateAdminLen).toNat
  let base : Nat := (s.reg .gateAdminBaseLo).toNat + (s.reg .gateAdminBaseHi).toNat * 2 ^ 32
  decide (1 ≤ cycle) && decide (cycle ≤ 1000000000) && decide (1 ≤ len) && decide (len ≤ 64)
  && (List.range len).all (fun i => s.reg .gateAdminIvl 0 i != 0)
  && (!s.gate.oper || ((base : Int) - (s.operBase : Int)) % (Nat.gcd cycle (s.reg .gateOperCycle).toNat : Nat) == 0)

/-- A write to GATE_CTRL (R207, R208). While PENDING is 1 a write with SWAP = 0, which only sets the other fields, is accepted: R208
refuses writes to SWAP, and the model takes a 0 there as no write to it (DESIGN CHOICE, log entry 54). -/
def State.writeGateCtrl (s : State) (v : Word) : Option State :=
  if 8 < fld v 7 4 then none
  else if ¬ bitOf v 0 then some (s.store ⟨.gateCtrl, 0, 0⟩ v)
  else if s.gate.pending ∨ ¬ s.swapOk then none
  else some ({ (s.store ⟨.gateCtrl, 0, 0⟩ v) with gate := { s.gate with pending := true } })

/-- A disable of the context table begins (R227): requests that have not obtained their line are denied. -/
def State.tableDisable (s : State) : State :=
  let s : State := { s with ctx := { s.ctx with enable := false, disabling := true } }
  let late := s.reqs.filter (fun r => r.stage == .checking &&
    ((dUsesCtx r.d && dOp r.d != 0x80 && dOp r.d != 0x84 && decide (r.step ≤ 3))
     || ((dOp r.d == 0x80 || dOp r.d == 0x84) && decide (r.step ≤ 7))))
  late.foldl (fun (s : State) r => s.deny r) s

/-- A GEN advance (R226). -/
def State.genAdvance (s : State) : State :=
  let g := s.gen
  let s : State := { s with ctx := { s.ctx with genBusy := g ≠ 0xFFFF, genFail := g = 0xFFFF } }
  if g = 0xFFFF then s.capture 0x96 33 else s.tlyWrite 33 (BitVec.ofNat 32 (g + 1)) 2 [.gen]

/-- A write to CTX_TABLE_CTRL (R226, R227). -/
def State.writeTableCtrl (s : State) (v : Word) : Option State :=
  let busy := s.ctx.disabling || s.ctx.genBusy
  if bitOf v 16 then (if s.ctx.enable ∨ busy ∨ bitOf v 31 then none else some s.genAdvance)
  else if bitOf v 31 then (if busy then none else some { s with ctx := { s.ctx with enable := true } })
  else if s.ctx.enable then some s.tableDisable else some s

/-- A write to KL_CTRL (R261, R263): refused while INVAL_BUSY is 1, which lasts until `State.invalidate` has dropped the entries. -/
def State.writeKlCtrl (s : State) (v : Word) : Option State :=
  let tag := fld v 28 24
  if 16 < tag ∨ s.ctx.inval.isSome then none else
  let s := s.store ⟨.klCtrl, 0, 0⟩ v
  if ¬ bitOf v 31 then some s else
  some { s with ctx := { s.ctx with inval := some (tag, if bitOf v 30 then none else some (fld v 11 0)) } }

/-- A write to GAL_EXT_CTRL (R324). -/
def State.writeGalExt (s : State) (v : Word) : Option State :=
  if s.gal.ext ≠ [] then none
  else if ¬ bitOf v 31 then some (s.store ⟨.galExtCtrl, 0, 0⟩ v)
  else
    let i := fld v 20 16
    let staged := (List.range 16).flatMap (fun j => natLE 4 (s.reg .galExtData 0 j).toNat)
    let x : Option Bytes :=
      if ¬ bitOf v 28 then some staged
      else match s.gal.latch with
        | some (_, u, b) => if u = fld v 15 0 then some b else none
        | none => none
    match x with
    | none => none
    | some x =>
      if i < 4 ∨ 30 < i then none
      else some (({ (s.store ⟨.galExtCtrl, 0, 0⟩ v) with gal := { s.gal with ext := [(i, x)] } } : State).islWake 9)

/-- A write of M to a provisioning register of the tally store (R551). -/
def State.writeTly (s : State) (i : Nat) (v : Word) : Option State :=
  if i < 512 then some s
  else if s.mBusy ∨ tlyLimit ≤ s.tlyWearOf i then none
  else some (s.tlyWrite i v 3 [.m])

/-- A write of 1 to GO of a function. -/
def State.writeReset (s : State) (f : Nat) (v : Word) : State := if bitOf v 0 then s.startReset f false else s

/-- A write to a register of the management window by M: `none` is ERROR (R558). -/
def State.writeMgmt (s : State) (r : Reg) (v : Word) : Option State :=
  match r.name with
  | .blkPm => some (if bitOf v 0 then s.deepRequest else s)
  | .fnCfg => s.writeFnCfg r.i v
  | .fnCtxBase | .fnCtxLimit | .winBaseLo | .winBaseHi | .winLimitLo | .winLimitHi => s.writeConfig r v
  | .fnResetM => some (s.writeReset r.i v)
  | .fltCtrl => some (s.writeFltCtrl v)
  | .fltPend => some (s.writeFltPend v)
  | .fltInj => s.writeFltInj v
  | .fltReact => some (if r.j ≤ 1 ∨ (faultFloor r.j).isNone then s else s.store r v)
  | .tly => s.writeTly r.j v
  | .gal | .galCount => none
  | .galExtData => s.locked r v (s.gal.ext != [])
  | .galExtCtrl => s.writeGalExt v
  | .entCtrl => s.writeEntCtrl v
  | .entRawCtrl => s.writeRawCtrl v
  | .entRawAddrLo | .entRawAddrHi | .entRawLen => s.locked r v s.ent.raw
  | .laneCntCtrl => some (s.cntCtrl .laneCntCtrl r.i v)
  | .digCntCtrl => some (s.cntCtrl .digCntCtrl r.i v)
  | .easelCntCtrl => some (s.cntCtrl .easelCntCtrl r.i v)
  | .laneBcastDiff => some (s.setReg .laneBcastDiff 0 0 (s.reg .laneBcastDiff &&& ~~~v))
  | .groupWin => some (s.groupWrite r.i r.j v)
  | .bcastWin => some (s.groupWrite 4 r.j v)
  | .easelCurve | .easelAnchor | .libInfo | .libCode | .skLastFault | .skLastPc | .libEntry => none
  | .schedCfg => s.locked r v (fld v 3 0 == 0 || decide (8 < fld v 3 0))
  | .gateCtrl => s.writeGateCtrl v
  | .gateAdminBaseLo | .gateAdminBaseHi | .gateAdminCycle | .gateAdminLen | .gateChangeLo | .gateChangeHi | .gateAdminIvl | .gateAdminGates =>
    s.locked r v s.gate.pending
  | .aMeterCfg => s.writeMeter (aliasRing r.j).1 (aliasRing r.j).2 .cfg v
  | .aMeterRate => s.writeMeter (aliasRing r.j).1 (aliasRing r.j).2 .rate v
  | .aMeterBurst => s.writeMeter (aliasRing r.j).1 (aliasRing r.j).2 .burst v
  | .aMeterLevel => some s
  | .aRingSched => s.writeMeter (aliasRing r.j).1 (aliasRing r.j).2 .sched v
  | .ctxTableCtrl => s.writeTableCtrl v
  | .ctxTableSize => s.locked r v (s.ctx.enable || s.ctx.disabling || s.ctx.genBusy || decide (fld v 4 0 < 10) || decide (25 < fld v 4 0))
  | .ctxTableBaseLo | .ctxTableBaseHi => s.locked r v (s.ctx.enable || s.ctx.disabling || s.ctx.genBusy)
  | .klCtrl => s.writeKlCtrl v
  | .bistCmd => s.writeBistCmd v
  | .ageCtrl => some (s.writeAgeCtrl v)
  | _ => some (s.store r v)

/-- The meter or scheduling register that a register of a ring page is. -/
def meterName : RegName → Option MeterReg
  | .meterCfg => some .cfg
  | .meterRate => some .rate
  | .meterBurst => some .burst
  | .meterLevel => some .level
  | .ringSched => some .sched
  | _ => none

/-- Registers of the telemetry page (R549). -/
def telemetryReg (n : RegName) : Bool := decide (RegName.telSeq.ctorIdx ≤ n.ctorIdx) && decide (n.ctorIdx ≤ RegName.telRingDone.ctorIdx)

/-- A write to this register receives ERROR in every function state (R188, R325, R549). -/
def winRefused (r : Reg) : Bool := (r.i != 16 && (meterName r.name).isSome) || telemetryReg r.name || r.name == .galView || r.name == .galCountView

/-- A write to a register of an Enabled function's window. -/
def State.writeRunning (s : State) (r : Reg) (v : Word) : Option State :=
  match r.name with
  | .ringBaseLo | .ringBaseHi => s.locked r v (s.ringOn r.i r.j)
  | .ringCfg => s.writeRingCfg r.i r.j v
  | .ringDb => some (s.bell r.i r.j v)
  | .fnReset => some (s.writeReset r.i v)
  | .fnPm => some (s.writePm r.i (fld v 1 0))
  | n => match meterName n with
    | some m => s.writeMeter r.i r.j m v
    | none => some (s.store r v)

/-- A write to a function window in the function's state (R118, R129, R130): `none` is ERROR. -/
def State.writeWin (s : State) (r : Reg) (v : Word) : Option State :=
  let x := s.fn r.i
  if x.resetting then (if r.name = .ringDb ∨ (r.name = .fnReset ∧ bitOf v 0 = true) then some s else none)
  else if ¬ x.enabled then (if r.name = .fnReset then some (s.writeReset r.i v) else none)
  else if winRefused r then none
  else if x.halted then (if r.name = .fnReset ∨ r.name = .fnCtrl ∨ r.name = .fnPm then s.writeRunning r v else some s)
  else s.writeRunning r v

/-- A write to register `r`: `none` is ERROR. -/
def State.writeReg (s : State) (r : Reg) (v : Word) : Option State :=
  if r.name.row.win then s.writeWin r v else s.writeMgmt r v

/-- M's write of a tally register at its limit is refused: it receives ERROR, and the refusal is recorded and reported
(R522, R551; log entry 33). -/
def State.tlyTurnedAway (s : State) (r : Reg) : Bool :=
  r.name == .tly && decide (512 ≤ r.j) && decide (r.j < 1024) && !s.mBusy && decide (tlyLimit ≤ s.tlyWearOf r.j)

/-- A write of `v` to register `r` of the right size. -/
def State.put (s : State) (r : Reg) (v : Word) : State :=
  if s.portTakes = true ∧ s.serves = true ∧ s.tlyTurnedAway r = true then
    (({ s with tly := { s.tly with refused := some r.j } } : State).capture 0x92 r.j).refuse
  else s.mgmt (s.writeReg r v)

/-- A write access (R43, R45, R555-R558). -/
def State.regWrite (s : State) (addr size : Nat) (v : Word) : State :=
  if accessOk addr size then
    (match regAt addr with
     | some r => s.put r v
     | none => s.mgmt none)
  else s.mgmt none

end Sys2Proof.Machine
end

