-- ==== Sys2Proof/Machine/RegCmds.lean ====
section
/-! DEFINITION. The commands that are register accesses (R43-R46, R554-R559): each is one access by its requester. -/
namespace Sys2Proof.Machine

/-- A read of register `r` of the right size. -/
def State.get (s : State) (r : Reg) : State := if ¬ s.portTakes then s.present else s.doRead r

/-- DOORBELL (R118, R129, R130, R151, R152). -/
def execDoorbell (f n : Nat) (v : Word) (s : State) : Out := (s.put ⟨.ringDb, f, n⟩ v).done
/-- FUNCTION_ENABLE (R113, R116). -/
def execFunctionEnable (f : Nat) (s : State) : Out := (s.put ⟨.fnCfg, f, 0⟩ 1).done
/-- FUNCTION_DISABLE (R113, R117). -/
def execFunctionDisable (f : Nat) (s : State) : Out := (s.put ⟨.fnCfg, f, 0⟩ 0).done
/-- EPOCH_BUMP (R139). -/
def execEpochBump (f : Nat) (s : State) : Out := (s.put ⟨.fnCfg, f, 0⟩ 2).done
/-- FUNCTION_RESET (R131, R132): through the function's window, or by M. -/
def execFunctionReset (f : Nat) (byM : Bool) (s : State) : Out :=
  (s.put (if byM then ⟨.fnResetM, f, 0⟩ else ⟨.fnReset, f, 0⟩) 1).done
/-- FN_PM_SLEEP (R142, R181). -/
def execFnPmSleep (f : Nat) (s : State) : Out := (s.put ⟨.fnPm, f, 0⟩ 1).done
/-- FN_PM_RUN (R142, R181). -/
def execFnPmRun (f : Nat) (s : State) : Out := (s.put ⟨.fnPm, f, 0⟩ 0).done
/-- FN_FENCE (R494, R495). -/
def execFnFence (f : Nat) (s : State) : Out := (s.get ⟨.fnFence, f, 0⟩).done
/-- ENT_WORD (R469). -/
def execEntWord (f : Nat) (s : State) : Out := (s.get ⟨.entWord, f, 0⟩).done
/-- RING_ENABLE (R145-R147): a write of RING_CFG with ENABLE. -/
def execRingEnable (f n : Nat) (v : Word) (s : State) : Out := (s.put ⟨.ringCfg, f, n⟩ (0x80000000 ||| v)).done
/-- RING_IRQ_WRITE (R148). -/
def execRingIrqWrite (f n : Nat) (v : Word) (s : State) : Out := (s.put ⟨.ringIrq, f, n⟩ v).done
/-- VECTOR_UNMASK (R178). -/
def execVectorUnmask (f v : Nat) (s : State) : Out := (s.put ⟨.vecCtrl, f, v⟩ 0).done

/-- The register that a meter command writes: in the ring's page, or through M's view of tenant rings (R188). -/
def meterReg (f n : Nat) (viaView : Bool) : MeterReg → Reg
  | .cfg => if viaView then ⟨.aMeterCfg, 0, ringG f n⟩ else ⟨.meterCfg, f, n⟩
  | .rate => if viaView then ⟨.aMeterRate, 0, ringG f n⟩ else ⟨.meterRate, f, n⟩
  | .burst => if viaView then ⟨.aMeterBurst, 0, ringG f n⟩ else ⟨.meterBurst, f, n⟩
  | .level => if viaView then ⟨.aMeterLevel, 0, ringG f n⟩ else ⟨.meterLevel, f, n⟩
  | .sched => if viaView then ⟨.aRingSched, 0, ringG f n⟩ else ⟨.ringSched, f, n⟩

/-- METER_CONFIG_WRITE (R187, R188, R198). -/
def execMeterConfigWrite (f n : Nat) (viaAlias : Bool) (r : MeterReg) (v : Word) (s : State) : Out :=
  (s.put (meterReg f n viaAlias r) v).done
/-- DEEP_SLEEP_REQUEST (R107). -/
def execDeepSleepRequest (s : State) : Out := (s.put ⟨.blkPm, 0, 0⟩ 1).done
/-- GATE_SWAP (R207, R208): a write of GATE_CTRL with SWAP. -/
def execGateSwap (v : Word) (s : State) : Out := (s.put ⟨.gateCtrl, 0, 0⟩ (1 ||| v)).done
/-- CTX_TABLE_ENABLE (R227). -/
def execCtxTableEnable (s : State) : Out := (s.put ⟨.ctxTableCtrl, 0, 0⟩ 0x80000000).done
/-- CTX_TABLE_DISABLE (R227). -/
def execCtxTableDisable (s : State) : Out := (s.put ⟨.ctxTableCtrl, 0, 0⟩ 0).done
/-- GEN_BUMP (R226). -/
def execGenBump (s : State) : Out := (s.put ⟨.ctxTableCtrl, 0, 0⟩ 0x10000).done
/-- KEY_INVALIDATE (R261): a write of KL_CTRL with INVAL. -/
def execKeyInvalidate (v : Word) (s : State) : Out := (s.put ⟨.klCtrl, 0, 0⟩ (0x80000000 ||| v)).done
/-- GALLERY_EXTEND (R324): a write of GAL_EXT_CTRL with GO. -/
def execGalleryExtend (v : Word) (s : State) : Out := (s.put ⟨.galExtCtrl, 0, 0⟩ (0x80000000 ||| v)).done
/-- READ_CLEAR_COUNTER (R16, R43-R45, R557): a read of the register at an address (log entry 30). -/
def execReadClearCounter (addr : BitVec 24) (s : State) : Out := (s.regRead addr.toNat 2).done
/-- LANE_COUNTER_CLEAR (R297). -/
def execLaneCounterClear (n : Nat) (freeze : Bool) (s : State) : Out := (s.put ⟨.laneCntCtrl, n, 0⟩ (2 ||| flag freeze 0)).done
/-- DIGEST_COUNTER_CLEAR (R319). -/
def execDigestCounterClear (e : Nat) (freeze : Bool) (s : State) : Out := (s.put ⟨.digCntCtrl, e, 0⟩ (2 ||| flag freeze 0)).done
/-- EASEL_COUNTER_CLEAR (R400). -/
def execEaselCounterClear (e : Nat) (freeze : Bool) (s : State) : Out := (s.put ⟨.easelCntCtrl, e, 0⟩ (2 ||| flag freeze 0)).done

/-- Byte address of an offset of a group or broadcast window (R298). -/
def groupAddr (w : GroupWin) (off : Nat) : Nat :=
  match w with
  | .group g => 0x4C000 + g.val * 0x400 + off
  | .broadcast => 0x4F000 + off

/-- LANE_GROUP_WRITE (R298). -/
def execLaneGroupWrite (w : GroupWin) (off : BitVec 10) (v : Word) (s : State) : Out := (s.regWrite (groupAddr w off.toNat) 2 v).done
/-- LANE_GROUP_READ (R298). -/
def execLaneGroupRead (w : GroupWin) (off : BitVec 10) (s : State) : Out := (s.regRead (groupAddr w off.toNat) 2).done
/-- TALLY_REGISTER_WRITE (R551). -/
def execTallyRegisterWrite (i : Nat) (v : Word) (s : State) : Out := (s.put ⟨.tly, 0, i⟩ v).done
/-- REGISTER_WRITE (R555-R558). -/
def execRegisterWrite (addr : BitVec 24) (size : BitVec 2) (v : Word) (s : State) : Out := (s.regWrite addr.toNat size.toNat v).done

/-- The extension at the head ends on a digest engine (R320, R324): two compressions. -/
def State.galDone (s : State) : State :=
  match s.gal.ext with
  | [] => s
  | (i, x) :: t =>
    if ¬ s.live then s else
    match s.freeDig with
    | none => s
    | some e => (({ s with gal := { s.gal with ext := t } } : State).digRun e 2 (Halg.cycles .sha512)).galExtend i x

/-- GALLERY_EXTEND_COMPLETE (R320, R324). -/
def execGalleryExtendComplete (s : State) : Out := s.galDone.done

end Sys2Proof.Machine
end

