-- ==== Sys2Proof/Machine/RingCmds.lean ====
section
/-! DEFINITION. Meter refill and moderation timers (R179, R190), and the operations that take no grant (R162, R201, R246-R256,
R471, R472). -/
namespace Sys2Proof.Machine

-- meters and moderation --------------------------------------------------------------------------------------------------------

/-- Rings whose meter configuration is stored: every ring with a meter that is on is among them. -/
def State.meteredRings (s : State) : List (Nat × Nat) :=
  (s.regs.filter (fun e => e.1 / 0x100000 == RegName.meterCfg.ctorIdx)).map (fun e => (e.1 / 0x4000 % 0x40, e.1 % 0x4000))

/-- One ring's meter at an aon tick (R190); a request that waits at it is tried again. -/
def State.refillRing (s : State) (p : Nat × Nat) : State :=
  let (f, n) := p
  let x := s.ring (ringG f n)
  let lv := refill (fld (s.reg .meterCfg f n) 1 0) (fld (s.reg .meterRate f n) 23 0) (fld (s.reg .meterBurst f n) 23 0) x.level
  s.setRing (ringG f n) { x with level := lv }

/-- METER_REFILL (R190, R194). -/
def execMeterRefill (s : State) : Out := (if s.live then s.meteredRings.foldl State.refillRing s else s).done

/-- MOD_TIME has passed since a ring's first counted completion (R179). -/
def State.modTimeout (s : State) (f n : Nat) : State :=
  if (s.ring (ringG f n)).counted ≠ 0 ∧ s.modTime f n ≠ 0 ∧ (s.fn f).pm = .run then s.ringDue f n else s

/-- MODERATION_TIMEOUT (R179). -/
def execModerationTimeout (f n : Nat) (s : State) : Out := (s.modTimeout f n).done

-- operations without a grant ----------------------------------------------------------------------------------------------------

/-- Run an operation that takes no grant, when it is its turn (R201, R204): the request has started. -/
def State.runOp (s : State) (id op : Nat) (k : State → Req → State) : State :=
  match s.req id with
  | none => s
  | some r =>
    if dOp r.d ≠ op ∨ ¬ s.mayRun r then s else
    let r := { r with started := true }
    k (s.setReq r) r

/-- Take the bytes of entropy that an operation needs, then finish it (R465-R467). -/
def State.drawThen (s : State) (r : Req) (k : State → State) : State :=
  if s.entNeed r ≤ r.got.length then k s
  else if s.entGone then s.fail r stEntropyUnavailable 0
  else s.setReq { r with stage := .running, entWaits := true }

/-- A control operation defines no PARAM value, and no parameter block: any PARAM bit ends it with FORMAT_MISMATCH (R158), with the
DETAIL of a PARAM bit that is not assigned (R268, R300). -/
def State.runControl (s : State) (r : Req) : State := if dParam r.d = 0 then s.commit r stOk 0 else s.fail r stFormatMismatch 0x0004

/-- NOP (R162). -/
def execNop (id : Nat) (s : State) : Out := (s.runOp id 0x00 State.runControl).done
/-- FENCE (R162): once every earlier entry of its ring is released. -/
def execFence (id : Nat) (s : State) : Out := (s.runOp id 0x01 State.runControl).done
/-- RANDOM_FILL (R465-R467, R471). -/
def execRandomFill (id : Nat) (s : State) : Out := (s.runOp id 0x70 fun s r => s.drawThen r fun s => s).done
/-- RANDOM_KEY (R472). -/
def execRandomKey (id : Nat) (s : State) : Out := (s.runOp id 0x71 fun s r => s.drawThen r fun s => s.keyDrawn r).done
/-- CTX_CREATE (R248, R249). -/
def execCtxCreate (id : Nat) (s : State) : Out := (s.runOp id 0x80 fun s r => s.ctxCreate r).done
/-- CTX_DESTROY (R250). -/
def execCtxDestroy (id : Nat) (s : State) : Out := (s.runOp id 0x81 fun s r => s.withLine r fun s l => s.ctxDestroy r l).done
/-- CTX_ROTATE (R251): with MODE 0x01 once it has its random bytes. -/
def execCtxRotate (id : Nat) (s : State) : Out :=
  (s.runOp id 0x82 fun s r => s.drawThen r fun s => s.keyDrawn r).done
/-- CTX_EXPORT_WRAPPED (R252, R253). -/
def execCtxExport (id : Nat) (s : State) : Out := (s.runOp id 0x83 fun s r => s.withLine r fun s l => s.ctxExport r l).done
/-- CTX_IMPORT_WRAPPED (R254). -/
def execCtxImport (id : Nat) (s : State) : Out := (s.runOp id 0x84 fun s r => s.ctxImport r).done
/-- CTX_SNAPSHOT_COUNTER (R255). -/
def execCtxSnapshot (id : Nat) (s : State) : Out := (s.runOp id 0x85 fun s r => s.withLine r fun s l => s.ctxSnapshot r l).done
/-- CTX_FLUSH (R256). -/
def execCtxFlush (id : Nat) (s : State) : Out := (s.runOp id 0x86 fun s r => s.ctxFlush r).done

end Sys2Proof.Machine
end

