-- ==== Sys2Proof/Machine/SketchCmds.lean ====
section
/-! DEFINITION. The instructions of library sketches (R404-R438): each command is one instruction, executed by the
computation that its easel runs where that computation's next code word is the instruction. -/
namespace Sys2Proof.Machine

-- one instruction ------------------------------------------------------------------------------------------------------------

/-- EASEL_CFG.YIELD_LIMIT, values below 16,000 acting as 16,000 (R386). -/
def State.yieldLimit (s : State) : Nat := max 16000 (fld (s.reg .easelCfg) 19 0)

/-- The fault ends a sketch between two instructions (R404, R434, R435). -/
def SkFault.between (f : SkFault) : Bool := f == .yieldLimit || f == .cycleCap || f == .pcRange

/-- A sketch fault (R437, R438). The cycles that an instruction took before its fault are a free value (R400). -/
def State.skFault (s : State) (e : Nat) (r : Req) (v : SkEnv) (pc : Nat) (f : SkFault) : State :=
  let s := if f.between then s.setEasel e { s.easel e with running := none } else s
  let s := s.bumpSat .skFaultCount
  let s := s.setReg .skLastFault 0 0 (flag true 31 ||| at_ e 29 ||| at_ r.f 24 ||| at_ v.lib.id 0)
  let s := s.setReg .skLastPc 0 0 (at_ f.code 24 ||| at_ (pc % 0x10000) 0)
  s.commit { r with outBytes := 0, result := [], written := 0 } stSketchFault f.code

/-- An instruction boundary (R404, R435): the computation goes on from `c`, or ends in CYCLE_CAP or PC_RANGE. -/
def State.skBoundary (s : State) (e : Nat) (r : Req) (v : SkEnv) (c : Comp) (k : State → State) : State :=
  if v.lib.cap * 65536 < c.total then s.skFault e r v c.pc .cycleCap
  else if c.pc < v.lib.start ∨ v.lib.start + v.lib.len ≤ c.pc then s.skFault e r v c.pc .pcRange
  else k (s.setEasel e ((s.easel e).setComp c))

/-- An instruction of `cost` cycles, judged by the bound `bound` (R434), on the computation `c` with the result `res`: a fault
by the order of R437, else the boundary and `k`. -/
def State.skGo (s : State) (e : Nat) (r : Req) (v : SkEnv) (c : Comp) (cost bound : Nat) (res : SkRes) (k : State → State) : State :=
  match res with
  | .fault f => s.skFault e r v c.pc f
  | .next c' =>
    if s.yieldLimit < c.run + bound then s.skFault e r v c.pc .yieldLimit
    else (s.addBusy (13 + e) cost).skBoundary e r v { c' with run := c.run + cost, total := c.total + cost } k

/-- The next word. -/
def Comp.step (c : Comp) : Comp := { c with pc := (c.pc + 1) % 0x10000 }

/-- A result goes on to the next word. -/
def SkRes.step : SkRes → SkRes
  | .next c => .next c.step
  | .fault f => .fault f

/-- What a computation reads of its request and of the tables (R419, R424). -/
def State.skEnv (s : State) (r : Req) (i : Nat) : SkEnv :=
  { arg := fieldLE (dIv r.d) 8 8, inlen := dLen r.d, fn := r.f, lib := LibEntry.of (libEntryB s.tables.library i)
    curve := fun i => (s.curve i).map (fun b => (ceilDiv (Curve.of b).pbits 64, (Curve.of b).p))
    order := fun i => (s.curve i).map (fun b => (ceilDiv (Curve.of b).nbits 64, (Curve.of b).n)) }

/-- The 32-bit code word of an instruction (R404). -/
def skWord (g : BitVec 4) (opc imm : Nat) : Nat := g.toNat * 0x10000000 + opc * 0x100000 + imm

/-- Easel `e`, whose clock runs (R70), executes the instruction `g`, `opc`, `imm` where its computation stands at that word; where the guard does not let it
execute it takes one cycle (R405). Where the compares of the instruction do not `agree`, of the processor with its shadow or of the two
slices, or an armed injection of the easel's comparator strikes (R514), the attempt fails, and no sketch fault is raised (R403). -/
def State.skAt (s : State) (e : Nat) (g : BitVec 4) (opc imm : Nat) (k : Req → SkEnv → Comp → State) (agree : Bool := true) : State :=
  match (s.easel e).comp with
  | none => s
  | some c =>
    match s.req c.id, c.entry with
    | some r, some i =>
      let v := s.skEnv r i
      if ¬ s.live ∨ ¬ s.clkOk 6 ∨ ¬ s.fnRuns r.f ∨ c.segs = [] ∨ c.cx.isSome ∨ libCode s.tables.library c.pc ≠ skWord g opc imm then s
      else if s.armedChecker = some (0x50 + e) then s.injFired.failEasel e true
      else if s.wordStrike 0x57 = some true then s.injFired.capture 0x58 (c.pc % 0x10000) 31 true
      else if ¬ agree then s.failEasel e false
      else
      let s := s.singleStrike 0x57 0x57 (c.pc % 0x10000)
      if ¬ guardOn g c.flags then s.skGo e r v c 1 1 (.next c.step) id
      else k r v c
    | _, _ => s

/-- An instruction that goes on to the next word, with its cycles and its effect. -/
def State.skPlain (s : State) (e : Nat) (g : BitVec 4) (opc imm : Nat) (cost : Comp → Nat) (f : SkEnv → Comp → SkRes) : State :=
  s.skAt e g opc imm (fun r v c => s.skGo e r v c (cost c) (cost c) (f v c).step id)

/-- An instruction of one cycle. -/
def State.skOne (s : State) (e : Nat) (g : BitVec 4) (opc imm : Nat) (f : SkEnv → Comp → SkRes) : State :=
  s.skPlain e g opc imm (fun _ => 1) f

/-- An instruction of fixed cycles that compares the two slices (R421, R427): where they differ the attempt fails. -/
def State.skCompare (s : State) (e : Nat) (g : BitVec 4) (opc imm : Nat) (agree : Bool) (cost : Comp → Nat)
    (f : SkEnv → Comp → SkRes) : State :=
  s.skAt e g opc imm (fun r v c => s.skGo e r v c (cost c) (cost c) (f v c).step id) agree

-- control --------------------------------------------------------------------------------------------------------------------------

/-- Target of a REL field (R407). -/
def Comp.target (c : Comp) (rel : BitVec 20) : Nat := ((c.pc : Int) + rel.toInt).toNat % 0x10000

/-- NOP (R413). -/
def execSkNop (e : Nat) (g : BitVec 4) (s : State) : Out := (s.skOne e g 0x00 0 (fun _ c => .next c)).done

/-- What END pops makes an outcome, or BAD_END (R436). -/
def Comp.endCheck (c : Comp) (v : SkEnv) : Option SkFault :=
  let code := (c.top 0).toNat
  let n := (c.top 2).toNat
  firstFault (c.depthCheck 3 0)
    (if 2 < code ∨ 0xFFFF < (c.top 1).toNat ∨ v.lib.outMax < n ∨ (c.segs.getD 1 {}).size < n then some .badEnd else none)

/-- The outcome of END (R436). -/
def Comp.endFinish (c : Comp) : Finish :=
  let out := ((c.segs.getD 1 {}).bytes).take (c.top 2).toNat
  { status := if c.top 0 = 0 then stOk else if c.top 0 = 1 then stVerifyFail else stInputReject
    detail := (c.top 1).toNat, dst := out, result := out.take 32 }

/-- END (R413, R433, R436); `agree` tells whether the compares of the checkpoint and of the processor's shadow agreed. -/
def execSkEnd (e : Nat) (g : BitVec 4) (agree : Bool) (s : State) : Out :=
  (s.skAt e g 0x01 0 (fun r v c =>
    let cost := 8 + c.ckptCost v.lib
    match c.endCheck v with
    | some f => s.skFault e r v c.pc f
    | none =>
      if s.yieldLimit < c.run + cost then s.skFault e r v c.pc .yieldLimit
      else (s.addBusy (13 + e) cost).endEasel e r c.endFinish) agree).done

/-- YIELD (R413, R422, R432, R433). -/
def execSkYield (e : Nat) (g : BitVec 4) (agree : Bool) (s : State) : Out :=
  (s.skAt e g 0x02 0 (fun r v c =>
    let cost := c.landWait + 20 + c.ckptCost v.lib
    s.skGo e r v c cost cost (.next c.landAll.step) (fun t => t.skYielded e c.id)) agree).done

/-- JMP (R413). -/
def execSkJmp (e : Nat) (g : BitVec 4) (rel : BitVec 20) (s : State) : Out :=
  (s.skAt e g 0x03 rel.toNat (fun r v c => s.skGo e r v c 2 2 (.next { c with pc := c.target rel }) id)).done

/-- CALL (R413, R414). -/
def execSkCall (e : Nat) (g : BitVec 4) (rel : BitVec 20) (s : State) : Out :=
  (s.skAt e g 0x04 rel.toNat (fun r v c => s.skGo e r v c 2 2
    (if 16 ≤ c.rets.length then .fault .rstackOver
     else .next { c with pc := c.target rel, rets := (c.pc + 1) % 0x10000 :: c.rets }) id)).done

/-- RET (R413, R414). -/
def execSkRet (e : Nat) (g : BitVec 4) (s : State) : Out :=
  (s.skAt e g 0x05 0 (fun r v c => s.skGo e r v c 2 2
    (match c.rets with
     | [] => .fault .rstackUnder
     | a :: t => .next { c with pc := a, rets := t }) id)).done

/-- DBNZ (R406, R413). -/
def execSkDbnz (e : Nat) (g : BitVec 4) (rel : BitVec 20) (s : State) : Out :=
  (s.skAt e g 0x06 rel.toNat (fun r v c =>
    let n := c.top 0 - 1
    let cost := if n = 0 then 1 else 2
    s.skGo e r v c cost cost
      (match c.stackOp 1 [n] (flagsZN c.flags n) with
       | .fault f => .fault f
       | .next c' => .next (if n = 0 then c'.step else { c' with pc := c.target rel })) id)).done

-- stack -----------------------------------------------------------------------------------------------------------------------------

/-- PUSHI (R413). -/
def execSkPushi (e : Nat) (g : BitVec 4) (imm : BitVec 20) (s : State) : Out :=
  (s.skOne e g 0x10 imm.toNat (fun _ c => c.stackOp 0 [imm.setWidth 64] c.flags)).done
/-- PUSHS (R413). -/
def execSkPushs (e : Nat) (g : BitVec 4) (imm : BitVec 20) (s : State) : Out :=
  (s.skOne e g 0x11 imm.toNat (fun _ c => c.stackOp 0 [imm.signExtend 64] c.flags)).done
/-- PUSHX (R413). -/
def execSkPushx (e : Nat) (g : BitVec 4) (imm : BitVec 20) (s : State) : Out :=
  (s.skOne e g 0x12 imm.toNat (fun _ c => c.stackOp 1 [(c.top 0 <<< 20) ||| imm.setWidth 64] c.flags)).done
/-- DUP (R413). -/
def execSkDup (e : Nat) (g : BitVec 4) (s : State) : Out :=
  (s.skOne e g 0x13 0 (fun _ c => c.stackOp 1 [c.top 0, c.top 0] c.flags)).done
/-- DROP (R413). -/
def execSkDrop (e : Nat) (g : BitVec 4) (s : State) : Out := (s.skOne e g 0x14 0 (fun _ c => c.stackOp 1 [] c.flags)).done
/-- SWAP (R413). -/
def execSkSwap (e : Nat) (g : BitVec 4) (s : State) : Out :=
  (s.skOne e g 0x15 0 (fun _ c => c.stackOp 2 [c.top 1, c.top 0] c.flags)).done
/-- OVER (R413). -/
def execSkOver (e : Nat) (g : BitVec 4) (s : State) : Out :=
  (s.skOne e g 0x16 0 (fun _ c => c.stackOp 2 [c.top 1, c.top 0, c.top 1] c.flags)).done
/-- ROT (R413). -/
def execSkRot (e : Nat) (g : BitVec 4) (s : State) : Out :=
  (s.skOne e g 0x17 0 (fun _ c => c.stackOp 3 [c.top 2, c.top 0, c.top 1] c.flags)).done
/-- PICK (R413, R414). -/
def execSkPick (e : Nat) (g : BitVec 4) (k : BitVec 5) (s : State) : Out :=
  (s.skOne e g 0x18 k.toNat (fun _ c =>
    .unless (if c.stack.length ≤ k.toNat then some .stackUnder else c.depthCheck 0 1)
      (.next { c with stack := c.top k.toNat :: c.stack }))).done
/-- DEPTH (R413). -/
def execSkDepth (e : Nat) (g : BitVec 4) (s : State) : Out :=
  (s.skOne e g 0x19 0 (fun _ c => c.stackOp 0 [BitVec.ofNat 64 c.stack.length] c.flags)).done

-- arithmetic and logic ------------------------------------------------------------------------------------------------------------------

/-- ADD (R413). -/
def execSkAdd (e : Nat) (g : BitVec 4) (s : State) : Out :=
  (s.skOne e g 0x20 0 (fun _ c => c.binary (fun a b => addFlags a b false))).done
/-- ADC (R413). -/
def execSkAdc (e : Nat) (g : BitVec 4) (s : State) : Out :=
  (s.skOne e g 0x21 0 (fun _ c => c.binary (fun a b => addFlags a b (fC c.flags)))).done
/-- SUB (R413). -/
def execSkSub (e : Nat) (g : BitVec 4) (s : State) : Out :=
  (s.skOne e g 0x22 0 (fun _ c => c.binary (fun a b => subFlags a b false))).done
/-- SBC (R413). -/
def execSkSbc (e : Nat) (g : BitVec 4) (s : State) : Out :=
  (s.skOne e g 0x23 0 (fun _ c => c.binary (fun a b => subFlags a b (fC c.flags)))).done
/-- CMP (R413). -/
def execSkCmp (e : Nat) (g : BitVec 4) (s : State) : Out :=
  (s.skOne e g 0x24 0 (fun _ c => c.stackOp 2 [c.top 0, c.top 1] (subFlags (c.top 1) (c.top 0) false).2)).done
/-- ADDI (R413). -/
def execSkAddi (e : Nat) (g : BitVec 4) (imm : BitVec 20) (s : State) : Out :=
  (s.skOne e g 0x25 imm.toNat (fun _ c => c.unary (fun a => addFlags a (imm.signExtend 64) false))).done
/-- AND (R413). -/
def execSkAnd (e : Nat) (g : BitVec 4) (s : State) : Out :=
  (s.skOne e g 0x26 0 (fun _ c => c.binary (fun a b => (a &&& b, flagsZN c.flags (a &&& b))))).done
/-- OR (R413). -/
def execSkOr (e : Nat) (g : BitVec 4) (s : State) : Out :=
  (s.skOne e g 0x27 0 (fun _ c => c.binary (fun a b => (a ||| b, flagsZN c.flags (a ||| b))))).done
/-- XOR (R413). -/
def execSkXor (e : Nat) (g : BitVec 4) (s : State) : Out :=
  (s.skOne e g 0x28 0 (fun _ c => c.binary (fun a b => (a ^^^ b, flagsZN c.flags (a ^^^ b))))).done
/-- NOT (R413). -/
def execSkNot (e : Nat) (g : BitVec 4) (s : State) : Out :=
  (s.skOne e g 0x29 0 (fun _ c => c.unary (fun a => (~~~a, flagsZN c.flags (~~~a))))).done
/-- SHL (R413, R415). -/
def execSkShl (e : Nat) (g : BitVec 4) (sh : BitVec 7) (s : State) : Out :=
  (s.skOne e g 0x2A sh.toNat (fun _ c => c.shift .shl sh)).done
/-- SHR (R413, R415). -/
def execSkShr (e : Nat) (g : BitVec 4) (sh : BitVec 7) (s : State) : Out :=
  (s.skOne e g 0x2B sh.toNat (fun _ c => c.shift .shr sh)).done
/-- SAR (R413, R415). -/
def execSkSar (e : Nat) (g : BitVec 4) (sh : BitVec 7) (s : State) : Out :=
  (s.skOne e g 0x2C sh.toNat (fun _ c => c.shift .sar sh)).done
/-- ROL (R413, R415). -/
def execSkRol (e : Nat) (g : BitVec 4) (sh : BitVec 7) (s : State) : Out :=
  (s.skOne e g 0x2D sh.toNat (fun _ c => c.shift .rol sh)).done
/-- CLZ (R413). -/
def execSkClz (e : Nat) (g : BitVec 4) (s : State) : Out :=
  (s.skOne e g 0x2E 0 (fun _ c => c.unary (fun a => (BitVec.ofNat 64 (clz64 a), mkFlags (a == 0) false (fC c.flags) (fV c.flags))))).done
/-- CTZ (R413). -/
def execSkCtz (e : Nat) (g : BitVec 4) (s : State) : Out :=
  (s.skOne e g 0x2F 0 (fun _ c => c.unary (fun a => (BitVec.ofNat 64 (ctz64 a), mkFlags (a == 0) false (fC c.flags) (fV c.flags))))).done
/-- Immediate of BF (R407). -/
def bfImm (w1 lsb : BitVec 6) : Nat := w1.toNat * 64 + lsb.toNat
/-- BFX (R413). -/
def execSkBfx (e : Nat) (g : BitVec 4) (w1 lsb : BitVec 6) (s : State) : Out :=
  (s.skOne e g 0x30 (bfImm w1 lsb) (fun _ c => c.unary (fun a =>
    let r := bitExtract a (w1.toNat + 1) lsb.toNat
    (r, flagsZN c.flags r)))).done
/-- BFI (R413, R416). -/
def execSkBfi (e : Nat) (g : BitVec 4) (w1 lsb : BitVec 6) (s : State) : Out :=
  (s.skOne e g 0x31 (bfImm w1 lsb) (fun _ c => c.binary (fun a b =>
    let r := bitInsert a b (w1.toNat + 1) lsb.toNat
    (r, flagsZN c.flags r)))).done
/-- PERM (R413, R417). -/
def execSkPerm (e : Nat) (g : BitVec 4) (s : State) : Out :=
  (s.skOne e g 0x32 0 (fun _ c => c.binary (fun a b => let r := permBytes a b; (r, flagsZN c.flags r)))).done
/-- BSWAP (R413, R417). -/
def execSkBswap (e : Nat) (g : BitVec 4) (s : State) : Out :=
  (s.skOne e g 0x33 0 (fun _ c => c.unary (fun a => let r := permBytes a 0x0001020304050607; (r, flagsZN c.flags r)))).done

-- memory -----------------------------------------------------------------------------------------------------------------------------------

/-- Immediate of MEM (R407). -/
def memImm (seg : BitVec 4) (off : BitVec 16) : Nat := seg.toNat * 0x10000 + off.toNat
/-- LD (R411, R413). -/
def execSkLd (e : Nat) (g : BitVec 4) (seg : BitVec 4) (off : BitVec 16) (s : State) : Out :=
  (s.skPlain e g 0x40 (memImm seg off) (fun _ => 2) (fun _ c =>
    .unless (firstFault (c.depthCheck 0 1) (c.plainCheck seg.toNat off.toNat 1 false))
      (.next { c with stack := c.limb seg.toNat off.toNat :: c.stack }))).done
/-- ST (R411, R413). -/
def execSkSt (e : Nat) (g : BitVec 4) (seg : BitVec 4) (off : BitVec 16) (s : State) : Out :=
  (s.skOne e g 0x41 (memImm seg off) (fun _ c =>
    .unless (firstFault (c.depthCheck 1 0) (c.plainCheck seg.toNat off.toNat 1 true))
      (.next { (c.putBytes seg.toNat off.toNat (natLE 8 (c.top 0).toNat)) with stack := c.stack.drop 1 }))).done
/-- LDX (R411, R413). -/
def execSkLdx (e : Nat) (g : BitVec 4) (seg : BitVec 4) (off : BitVec 16) (s : State) : Out :=
  (s.skPlain e g 0x42 (memImm seg off) (fun _ => 2) (fun _ c =>
    let o := off.toNat + (c.top 0).toNat
    .unless (firstFault (c.depthCheck 1 1) (c.plainCheck seg.toNat o 1 false))
      (.next { c with stack := c.limb seg.toNat o :: c.stack.drop 1 }))).done
/-- STX (R411, R413). -/
def execSkStx (e : Nat) (g : BitVec 4) (seg : BitVec 4) (off : BitVec 16) (s : State) : Out :=
  (s.skOne e g 0x43 (memImm seg off) (fun _ c =>
    let o := off.toNat + (c.top 0).toNat
    .unless (firstFault (c.depthCheck 2 0) (c.plainCheck seg.toNat o 1 true))
      (.next { (c.putBytes seg.toNat o (natLE 8 (c.top 1).toNat)) with stack := c.stack.drop 2 }))).done
/-- SEGLEN (R413). -/
def execSkSeglen (e : Nat) (g : BitVec 4) (seg : BitVec 4) (s : State) : Out :=
  (s.skOne e g 0x44 (memImm seg 0) (fun _ c => c.stackOp 0 [BitVec.ofNat 64 ((c.segs.getD seg.toNat {}).size / 8)] c.flags)).done
/-- COPY (R413, R418). -/
def execSkCopy (e : Nat) (g : BitVec 4) (s : State) : Out :=
  (s.skPlain e g 0x45 0 (fun c => 2 + (c.top 0).toNat) (fun _ c => c.copy)).done

-- multiplier and special registers -------------------------------------------------------------------------------------------------------------

/-- MUL (R420). -/
def execSkMul (e : Nat) (g : BitVec 4) (s : State) : Out :=
  (s.skOne e g 0x50 0 (fun _ c =>
    let p : BitVec 128 := BitVec.ofNat 128 ((c.top 1).toNat * (c.top 0).toNat)
    .unless (c.depthCheck 2 0) (.next { c with stack := c.stack.drop 2, flight := c.flight ++ [(c.total, p)] }))).done
/-- RDML (R420, R421). -/
def execSkRdml (e : Nat) (g : BitVec 4) (agree : Bool) (s : State) : Out :=
  (s.skCompare e g 0x51 0 agree (fun _ => 1) (fun _ c => c.readProduct false)).done
/-- RDMH (R420, R421). -/
def execSkRdmh (e : Nat) (g : BitVec 4) (agree : Bool) (s : State) : Out :=
  (s.skCompare e g 0x52 0 agree (fun _ => 1) (fun _ c => c.readProduct true)).done
/-- RDSR (R419). -/
def execSkRdsr (e : Nat) (g : BitVec 4) (sr : BitVec 4) (s : State) : Out :=
  (s.skOne e g 0x53 sr.toNat (fun v c => c.stackOp 0 [c.special v sr.toNat] c.flags)).done
/-- WRFL (R406, R413). -/
def execSkWrfl (e : Nat) (g : BitVec 4) (s : State) : Out :=
  (s.skOne e g 0x54 0 (fun _ c => c.stackOp 1 [] (BitVec.ofNat 4 (c.top 0).toNat))).done

-- glaze -------------------------------------------------------------------------------------------------------------------------------------------

/-- Cycles of a glaze instruction: the wait for products in flight (R421), then its own. -/
def glazeCost (own : Nat → Nat) (c : Comp) : Nat := c.landWait + own c.slotL

/-- A glaze instruction of fixed cycles. -/
def State.skGlaze (s : State) (e : Nat) (g : BitVec 4) (opc imm : Nat) (own : Nat → Nat) (f : SkEnv → Comp → SkRes) : State :=
  s.skPlain e g opc imm (glazeCost own) f

/-- An instruction that yields internally after every 4,096 cycles of its own work (R422, R428): `work` cycles in this run,
`bound` by its bound, the effect once they are done. Each part is judged as an instruction of its own (R434). -/
def State.skLong (s : State) (e : Nat) (r : Req) (v : SkEnv) (c : Comp) (work bound : Nat) (res : SkRes) : State :=
  let ck := 20 + c.ckptCost v.lib
  let part := fun (w : Nat) => min 4096 (w - c.part)
  let judged := c.landWait + part bound + (if c.part + 4096 < bound then ck else 0)
  match res with
  | .fault f => s.skFault e r v c.pc f
  | .next c' =>
    if c.part + 4096 < work then
      s.skGo e r v c (c.landWait + 4096 + ck) judged (.next { c.landAll with part := c.part + 4096 }) (fun t => t.skYielded e c.id)
    else s.skGo e r v c (c.landWait + part work) judged (.next { c'.step with part := 0 }) id

/-- Immediate of GZ (R407). -/
def gzImm (seg : BitVec 4) (d a b : BitVec 5) : Nat := seg.toNat * 0x10000 + d.toNat * 0x400 + a.toNat * 0x20 + b.toNat
/-- A slot as its bit. -/
def slotBit (slot : Bool) : Nat := if slot then 1 else 0

/-- GZ_SETMOD (R423, R424, R428); `agree` tells whether the checkpoint of an internal yield agreed (R427, R433). -/
def execGzSetmod (x : YieldingEasel) (g : BitVec 4) (slot : Bool) (s : State) : Out :=
  (s.skAt x.e g 0xC0 (slotBit slot) (fun r v c =>
    let w := 40 + 16 * gzTM (c.top 0).toNat
    s.skLong x.e r v c w w (c.setMod v.lib.lmax slot)) x.agree).done
/-- GZ_CURVE (R423, R424). -/
def execGzCurve (e : Nat) (g : BitVec 4) (slot order : Bool) (s : State) : Out :=
  (s.skGlaze e g 0xC1 (slotBit slot + 2 * slotBit order) (fun _ => 6)
    (fun v c => c.gzCurve v.lib.lmax slot (if order then v.order else v.curve))).done
/-- GZ_SELM (R423). -/
def execGzSelm (e : Nat) (g : BitVec 4) (slot : Bool) (s : State) : Out :=
  (s.skGlaze e g 0xC2 (slotBit slot) (fun _ => 1) (fun _ c => .next { c.landAll with active := slot })).done
/-- GZ_IN (R423, R426). -/
def execGzIn (e : Nat) (g : BitVec 4) (seg : BitVec 4) (d : BitVec 5) (s : State) : Out :=
  (s.skGlaze e g 0xC3 (gzImm seg d 0 0) (fun L => gzTM L + L + 2) (fun _ c => c.gzIn seg.toNat d.toNat)).done
/-- GZ_OUT (R423, R427). -/
def execGzOut (e : Nat) (g : BitVec 4) (seg : BitVec 4) (a : BitVec 5) (agree : Bool) (s : State) : Out :=
  (s.skCompare e g 0xC4 (gzImm seg 0 a 0) agree (glazeCost (fun L => gzTM L + L + 4)) (fun _ c => c.gzOut seg.toNat a.toNat)).done
/-- GZ_SETI (R423). -/
def execGzSeti (e : Nat) (g : BitVec 4) (seg : BitVec 4) (d b : BitVec 5) (s : State) : Out :=
  (s.skGlaze e g 0xC5 (gzImm seg d 0 b) (fun L => gzTM L + 1) (fun _ c =>
    c.glaze seg.toNat d.toNat none none (fun _ _ => b.toNat))).done
/-- GZ_MOV (R423). -/
def execGzMov (e : Nat) (g : BitVec 4) (seg : BitVec 4) (d a : BitVec 5) (s : State) : Out :=
  (s.skGlaze e g 0xC6 (gzImm seg d a 0) (fun L => 2 + gzG L) (fun _ c => c.glaze seg.toNat d.toNat (some a.toNat) none (fun x _ => x))).done
/-- GZ_ADD (R423). -/
def execGzAdd (e : Nat) (g : BitVec 4) (seg : BitVec 4) (d a b : BitVec 5) (s : State) : Out :=
  (s.skGlaze e g 0xC7 (gzImm seg d a b) (fun L => 2 + gzG L) (fun _ c =>
    c.glaze seg.toNat d.toNat (some a.toNat) (some b.toNat) (fun x y => x + y))).done
/-- GZ_SUB (R423). -/
def execGzSub (e : Nat) (g : BitVec 4) (seg : BitVec 4) (d a b : BitVec 5) (s : State) : Out :=
  (s.skGlaze e g 0xC8 (gzImm seg d a b) (fun L => 2 + gzG L) (fun _ c =>
    c.glaze seg.toNat d.toNat (some a.toNat) (some b.toNat) (fun x y => subMod x y c.modulus))).done
/-- GZ_NEG (R423). -/
def execGzNeg (e : Nat) (g : BitVec 4) (seg : BitVec 4) (d a : BitVec 5) (s : State) : Out :=
  (s.skGlaze e g 0xC9 (gzImm seg d a 0) (fun L => 2 + gzG L) (fun _ c =>
    c.glaze seg.toNat d.toNat (some a.toNat) none (fun x _ => subMod 0 x c.modulus))).done
/-- GZ_MMUL (R423). -/
def execGzMmul (e : Nat) (g : BitVec 4) (seg : BitVec 4) (d a b : BitVec 5) (s : State) : Out :=
  (s.skGlaze e g 0xCA (gzImm seg d a b) gzTM (fun _ c =>
    c.glaze seg.toNat d.toNat (some a.toNat) (some b.toNat) (fun x y => x * y))).done
/-- GZ_MSQR (R423). -/
def execGzMsqr (e : Nat) (g : BitVec 4) (seg : BitVec 4) (d a : BitVec 5) (s : State) : Out :=
  (s.skGlaze e g 0xCB (gzImm seg d a 0) gzTM (fun _ c =>
    c.glaze seg.toNat d.toNat (some a.toNat) none (fun x _ => x * x))).done
/-- GZ_INV (R423, R426, R428): its cycles depend on the operand and the modulus, within the bound; `agree` as for GZ_SETMOD. -/
def execGzInv (x : YieldingEasel) (g : BitVec 4) (seg : BitVec 4) (d a : BitVec 5) (s : State) : Out :=
  (s.skAt x.e g 0xCC (gzImm seg d a 0) (fun r v c =>
    let bound := 40 + 128 * c.slotL * gzG c.slotL
    let work := min bound (Config.invCycles ((c.elem seg.toNat a.toNat).getD 0) c.modulus)
    s.skLong x.e r v c work bound (c.gzInv seg.toNat d.toNat a.toNat)) x.agree).done
/-- GZ_CMP (R423, R426, R427). -/
def execGzCmp (e : Nat) (g : BitVec 4) (seg : BitVec 4) (a b : BitVec 5) (agree : Bool) (s : State) : Out :=
  (s.skCompare e g 0xCD (gzImm seg 0 a b) agree (glazeCost (fun L => gzTM L + 4)) (fun _ c => c.gzCmp seg.toNat a.toNat b.toNat)).done

-- the customer extension port -------------------------------------------------------------------------------------------------------------------------

/-- OPC 0xE0 to 0xEF (R429): the request goes out; the instruction is judged by its bound of 2 + 64 cycles. While an answer to
an earlier computation of the easel is awaited (R431) the state is unchanged. -/
def execCustomerExtension (e : Nat) (g : BitVec 4) (opc : BitVec 4) (imm : BitVec 20) (s : State) : Out :=
  (s.skAt e g (0xE0 + opc.toNat) imm.toNat (fun r v c =>
    if (s.easel e).comps.any (fun y => y.cx.isSome) then s
    else match c.depthCheck 2 1 with
      | some f => s.skFault e r v c.pc f
      | none =>
        if s.yieldLimit < c.run + 66 then s.skFault e r v c.pc .yieldLimit
        else s.setEasel e ((s.easel e).setComp { c with cx := some (opc.toNat, imm.toNat, c.top 1, c.top 0) }))).done

/-- The outstanding request of easel `e`, whose clock runs (R41), ends: with `none` by an error or without an answer in time. The pages of an ended
computation are zeroed now (R431). An answer names no request, so one that comes late, while a newer request of the same easel is
outstanding, is taken as the answer to the newer one (DESIGN CHOICE, log entry 54: R74 gives no way to tell the two apart). -/
def State.cxEnd (s : State) (e : Nat) (ans : Option Limb) : State :=
  if ¬ s.live ∨ ¬ s.clkOk 6 then s else
  match (s.easel e).comps.find? (fun y => y.cx.isSome) with
  | none => s
  | some c =>
    if c.dead then s.setEasel e { s.easel e with comps := (s.easel e).comps.filter (fun y => !(y.dead && y.cx.isSome)) }
    else
      let c' := { c with cx := none }
      let s := s.setEasel e ((s.easel e).setComp c')
      match s.req c.id, c.entry with
      | some r, some i =>
        let v := s.skEnv r i
        (match ans with
         | none => s.skFault e r v c.pc .cxError
         | some d =>
           let t := Config.freeNat s.free % 65
           let s : State := { s with free := s.free + 1 }
           (s.addBusy (13 + e) (2 + t)).skBoundary e r v { c'.step with stack := d :: c.stack.drop 2, run := c.run + 2 + t, total := c.total + 2 + t } id)
      | _, _ => s

/-- CX_RESPONSE (R74, R429-R431). -/
def execCxResponse (e : Nat) (data : Limb) (err : Bool) (s : State) : Out := (s.cxEnd e (if err then none else some data)).done
/-- CX_TIMEOUT (R74, R429, R431). -/
def execCxTimeout (e : Nat) (s : State) : Out := (s.cxEnd e none).done

end Sys2Proof.Machine
end

