-- ==== Sys2Proof/Machine/Dispatch.lean ====
section
/-! DEFINITION. The effect of each command on everything but the queue: one arm per command. -/
namespace Sys2Proof.Machine

def exec (i : Instr) (s : State) : Host.Outcome State Fault Refusal :=
  match i with
  | .porAssert => Sys2Proof.Machine.execPorAssert s
  | .porRelease => Sys2Proof.Machine.execPorRelease s
  | .blkRstAssert => Sys2Proof.Machine.execBlkRstAssert s
  | .coldStart tst => Sys2Proof.Machine.execColdStart tst s
  | .tstModeChange v => Sys2Proof.Machine.execTstModeChange v s
  | .primerData lo hi => Sys2Proof.Machine.execPrimerData lo hi s
  | .nvmError => Sys2Proof.Machine.execNvmError s
  | .imageVerified agree => Sys2Proof.Machine.execImageVerified agree s
  | .selfTestDone unit kind sig => Sys2Proof.Machine.execSelfTestDone unit kind sig s
  | .registerPortWake => Sys2Proof.Machine.execRegisterPortWake s
  | .clockAck d v => Sys2Proof.Machine.execClockAck d v s
  | .clockAckLoss d => Sys2Proof.Machine.execClockAckLoss d s
  | .powerAck isl v => Sys2Proof.Machine.execPowerAck isl v s
  | .powerAckLoss isl => Sys2Proof.Machine.execPowerAckLoss isl s
  | .retentionAck isl v => Sys2Proof.Machine.execRetentionAck isl v s
  | .retAck isl => Sys2Proof.Machine.execRetAck isl s
  | .islandIdleTimeout isl => Sys2Proof.Machine.execIslandIdleTimeout isl s
  | .islandWake isl => Sys2Proof.Machine.execIslandWake isl s
  | .vstepEcho v => Sys2Proof.Machine.execVstepEcho v s
  | .vstep => Sys2Proof.Machine.execVstep s
  | .fabricReadComplete port txn beats => Sys2Proof.Machine.execFabricReadComplete port txn beats s
  | .fabricWriteAck port txn stat => Sys2Proof.Machine.execFabricWriteAck port txn stat s
  | .fabricTimeout port write txn => Sys2Proof.Machine.execFabricTimeout port write txn s
  | .keyLiftResponse beats => Sys2Proof.Machine.execKeyLiftResponse beats s
  | .klTimeout => Sys2Proof.Machine.execKlTimeout s
  | .cxResponse e data err => Sys2Proof.Machine.execCxResponse e data err s
  | .cxTimeout e => Sys2Proof.Machine.execCxTimeout e s
  | .timeAlign past => Sys2Proof.Machine.execTimeAlign past s
  | .timeLoad sec ns => Sys2Proof.Machine.execTimeLoad sec ns s
  | .timeMiss => Sys2Proof.Machine.execTimeMiss s
  | .timeSync => Sys2Proof.Machine.execTimeSync s
  | .slowingEnd => Sys2Proof.Machine.execSlowingEnd s
  | .timeNowRead => Sys2Proof.Machine.execTimeNowRead s
  | .doorbell f n v => Sys2Proof.Machine.execDoorbell f n v s
  | .meterRefill => Sys2Proof.Machine.execMeterRefill s
  | .strokeGrant e => Sys2Proof.Machine.execStrokeGrant e s
  | .strokeCommit e => Sys2Proof.Machine.execStrokeCommit e s
  | .duplicateMismatch e => Sys2Proof.Machine.execDuplicateMismatch e s
  | .moderationTimeout f n => Sys2Proof.Machine.execModerationTimeout f n s
  | .easelGrant e => Sys2Proof.Machine.execEaselGrant e s
  | .rotation => Sys2Proof.Machine.execRotation s
  | .fieldSelfTest => Sys2Proof.Machine.execFieldSelfTest s
  | .scrub m idx o => Sys2Proof.Machine.execScrub m idx o s
  | .ageMeasurement u slack => Sys2Proof.Machine.execAgeMeasurement u slack s
  | .telemetrySnapshot f => Sys2Proof.Machine.execTelemetrySnapshot f s
  | .lifeHours => Sys2Proof.Machine.execLifeHours s
  | .tallyScan bad => Sys2Proof.Machine.execTallyScan bad s
  | .tallyWriteDurable => Sys2Proof.Machine.execTallyWriteDurable s
  | .faultCapture src tag detail => Sys2Proof.Machine.execFaultCapture src tag detail s
  | .faultClassify => Sys2Proof.Machine.execFaultClassify s
  | .collectorMismatch logic => Sys2Proof.Machine.execCollectorMismatch logic s
  | .entropyWindowEnd lane jit met => Sys2Proof.Machine.execEntropyWindowEnd lane jit met s
  | .sourceHealthFail src => Sys2Proof.Machine.execSourceHealthFail src s
  | .sourceStartupPass src => Sys2Proof.Machine.execSourceStartupPass src s
  | .estimatePeriodEnd src n1 neq maxrun aptmax => Sys2Proof.Machine.execEstimatePeriodEnd src n1 neq maxrun aptmax s
  | .entropyStartTimeout => Sys2Proof.Machine.execEntropyStartTimeout s
  | .entropyWaitTimeout id => Sys2Proof.Machine.execEntropyWaitTimeout id s
  | .entWordTimeout => Sys2Proof.Machine.execEntWordTimeout s
  | .gateSwapEffect => Sys2Proof.Machine.execGateSwapEffect s
  | .eligibilityStart gate => Sys2Proof.Machine.execEligibilityStart gate s
  | .eligibilityEnd gate => Sys2Proof.Machine.execEligibilityEnd gate s
  | .prewake gate => Sys2Proof.Machine.execPrewake gate s
  | .functionResetDrained f => Sys2Proof.Machine.execFunctionResetDrained f s
  | .deepSleepDrained => Sys2Proof.Machine.execDeepSleepDrained s
  | .galleryExtendComplete => Sys2Proof.Machine.execGalleryExtendComplete s
  | .functionEnable f => Sys2Proof.Machine.execFunctionEnable f s
  | .functionDisable f => Sys2Proof.Machine.execFunctionDisable f s
  | .epochBump f => Sys2Proof.Machine.execEpochBump f s
  | .functionReset f byM => Sys2Proof.Machine.execFunctionReset f byM s
  | .fnPmSleep f => Sys2Proof.Machine.execFnPmSleep f s
  | .fnPmRun f => Sys2Proof.Machine.execFnPmRun f s
  | .fnFence f => Sys2Proof.Machine.execFnFence f s
  | .entWord f => Sys2Proof.Machine.execEntWord f s
  | .ringEnable f n v => Sys2Proof.Machine.execRingEnable f n v s
  | .ringIrqWrite f n v => Sys2Proof.Machine.execRingIrqWrite f n v s
  | .vectorUnmask f v => Sys2Proof.Machine.execVectorUnmask f v s
  | .meterConfigWrite f n viaAlias r v => Sys2Proof.Machine.execMeterConfigWrite f n viaAlias r v s
  | .deepSleepRequest => Sys2Proof.Machine.execDeepSleepRequest s
  | .gateSwap v => Sys2Proof.Machine.execGateSwap v s
  | .ctxTableEnable => Sys2Proof.Machine.execCtxTableEnable s
  | .ctxTableDisable => Sys2Proof.Machine.execCtxTableDisable s
  | .genBump => Sys2Proof.Machine.execGenBump s
  | .keyInvalidate v => Sys2Proof.Machine.execKeyInvalidate v s
  | .galleryExtend v => Sys2Proof.Machine.execGalleryExtend v s
  | .entropyEnable => Sys2Proof.Machine.execEntropyEnable s
  | .entropyDisable => Sys2Proof.Machine.execEntropyDisable s
  | .rawModeEnter sel => Sys2Proof.Machine.execRawModeEnter sel s
  | .rawModeExit sel => Sys2Proof.Machine.execRawModeExit sel s
  | .faultPendingClear v => Sys2Proof.Machine.execFaultPendingClear v s
  | .rearm => Sys2Proof.Machine.execRearm s
  | .faultInjectArm v => Sys2Proof.Machine.execFaultInjectArm v s
  | .readClearCounter addr => Sys2Proof.Machine.execReadClearCounter addr s
  | .bistCommand kind => Sys2Proof.Machine.execBistCommand kind s
  | .vretry => Sys2Proof.Machine.execVretry s
  | .measureAll => Sys2Proof.Machine.execMeasureAll s
  | .laneCounterClear n freeze => Sys2Proof.Machine.execLaneCounterClear n freeze s
  | .digestCounterClear e freeze => Sys2Proof.Machine.execDigestCounterClear e freeze s
  | .easelCounterClear e freeze => Sys2Proof.Machine.execEaselCounterClear e freeze s
  | .laneGroupWrite w off v => Sys2Proof.Machine.execLaneGroupWrite w off v s
  | .laneGroupRead w off => Sys2Proof.Machine.execLaneGroupRead w off s
  | .tallyRegisterWrite idx v => Sys2Proof.Machine.execTallyRegisterWrite idx v s
  | .registerWrite addr size v => Sys2Proof.Machine.execRegisterWrite addr size v s
  | .nop id => Sys2Proof.Machine.execNop id s
  | .fence id => Sys2Proof.Machine.execFence id s
  | .ecbEncrypt id => Sys2Proof.Machine.execEcbEncrypt id s
  | .ecbDecrypt id => Sys2Proof.Machine.execEcbDecrypt id s
  | .cbcEncrypt id => Sys2Proof.Machine.execCbcEncrypt id s
  | .cbcDecrypt id => Sys2Proof.Machine.execCbcDecrypt id s
  | .ctr id => Sys2Proof.Machine.execCtr id s
  | .xtsEncrypt id => Sys2Proof.Machine.execXtsEncrypt id s
  | .xtsDecrypt id => Sys2Proof.Machine.execXtsDecrypt id s
  | .gcmEncrypt id => Sys2Proof.Machine.execGcmEncrypt id s
  | .gcmDecrypt id => Sys2Proof.Machine.execGcmDecrypt id s
  | .ccmEncrypt id => Sys2Proof.Machine.execCcmEncrypt id s
  | .ccmDecrypt id => Sys2Proof.Machine.execCcmDecrypt id s
  | .gmacGenerate id => Sys2Proof.Machine.execGmacGenerate id s
  | .gmacVerify id => Sys2Proof.Machine.execGmacVerify id s
  | .cmacGenerate id => Sys2Proof.Machine.execCmacGenerate id s
  | .cmacVerify id => Sys2Proof.Machine.execCmacVerify id s
  | .chacha20 id => Sys2Proof.Machine.execChacha20 id s
  | .chachaPolyEncrypt id => Sys2Proof.Machine.execChachaPolyEncrypt id s
  | .chachaPolyDecrypt id => Sys2Proof.Machine.execChachaPolyDecrypt id s
  | .keyWrap id => Sys2Proof.Machine.execKeyWrap id s
  | .keyUnwrap id => Sys2Proof.Machine.execKeyUnwrap id s
  | .cbcHmacEncrypt id => Sys2Proof.Machine.execCbcHmacEncrypt id s
  | .cbcHmacVerifyDecrypt id => Sys2Proof.Machine.execCbcHmacVerifyDecrypt id s
  | .ctrHmac id => Sys2Proof.Machine.execCtrHmac id s
  | .hash id => Sys2Proof.Machine.execHash id s
  | .hashPartial id => Sys2Proof.Machine.execHashPartial id s
  | .hmac id => Sys2Proof.Machine.execHmac id s
  | .hmacVerify id => Sys2Proof.Machine.execHmacVerify id s
  | .hmacPartial id => Sys2Proof.Machine.execHmacPartial id s
  | .stencilOut id => Sys2Proof.Machine.execStencilOut id s
  | .stencilIn id => Sys2Proof.Machine.execStencilIn id s
  | .sealRecord id => Sys2Proof.Machine.execSealRecord id s
  | .sealCheck id => Sys2Proof.Machine.execSealCheck id s
  | .ecdsaVerify id agree => Sys2Proof.Machine.execEcdsaVerify id agree s
  | .eddsaVerify id agree => Sys2Proof.Machine.execEddsaVerify id agree s
  | .eddsaBatch id agree => Sys2Proof.Machine.execEddsaBatch id agree s
  | .rsaVerifyPss id agree => Sys2Proof.Machine.execRsaVerifyPss id agree s
  | .rsaVerifyPkcs1 id agree => Sys2Proof.Machine.execRsaVerifyPkcs1 id agree s
  | .rsaPublic id agree => Sys2Proof.Machine.execRsaPublic id agree s
  | .modexpPublic id agree => Sys2Proof.Machine.execModexpPublic id agree s
  | .pointCheck id agree => Sys2Proof.Machine.execPointCheck id agree s
  | .curveLoad id agree => Sys2Proof.Machine.execCurveLoad id agree s
  | .sketchCall id => Sys2Proof.Machine.execSketchCall id s
  | .randomFill id => Sys2Proof.Machine.execRandomFill id s
  | .randomKey id => Sys2Proof.Machine.execRandomKey id s
  | .ctxCreate id => Sys2Proof.Machine.execCtxCreate id s
  | .ctxDestroy id => Sys2Proof.Machine.execCtxDestroy id s
  | .ctxRotate id => Sys2Proof.Machine.execCtxRotate id s
  | .ctxExport id => Sys2Proof.Machine.execCtxExport id s
  | .ctxImport id => Sys2Proof.Machine.execCtxImport id s
  | .ctxSnapshot id => Sys2Proof.Machine.execCtxSnapshot id s
  | .ctxFlush id => Sys2Proof.Machine.execCtxFlush id s
  | .skNop e g => Sys2Proof.Machine.execSkNop e g s
  | .skEnd e g agree => Sys2Proof.Machine.execSkEnd e g agree s
  | .skYield e g agree => Sys2Proof.Machine.execSkYield e g agree s
  | .skJmp e g rel => Sys2Proof.Machine.execSkJmp e g rel s
  | .skCall e g rel => Sys2Proof.Machine.execSkCall e g rel s
  | .skRet e g => Sys2Proof.Machine.execSkRet e g s
  | .skDbnz e g rel => Sys2Proof.Machine.execSkDbnz e g rel s
  | .skPushi e g imm => Sys2Proof.Machine.execSkPushi e g imm s
  | .skPushs e g imm => Sys2Proof.Machine.execSkPushs e g imm s
  | .skPushx e g imm => Sys2Proof.Machine.execSkPushx e g imm s
  | .skDup e g => Sys2Proof.Machine.execSkDup e g s
  | .skDrop e g => Sys2Proof.Machine.execSkDrop e g s
  | .skSwap e g => Sys2Proof.Machine.execSkSwap e g s
  | .skOver e g => Sys2Proof.Machine.execSkOver e g s
  | .skRot e g => Sys2Proof.Machine.execSkRot e g s
  | .skPick e g k => Sys2Proof.Machine.execSkPick e g k s
  | .skDepth e g => Sys2Proof.Machine.execSkDepth e g s
  | .skAdd e g => Sys2Proof.Machine.execSkAdd e g s
  | .skAdc e g => Sys2Proof.Machine.execSkAdc e g s
  | .skSub e g => Sys2Proof.Machine.execSkSub e g s
  | .skSbc e g => Sys2Proof.Machine.execSkSbc e g s
  | .skCmp e g => Sys2Proof.Machine.execSkCmp e g s
  | .skAddi e g imm => Sys2Proof.Machine.execSkAddi e g imm s
  | .skAnd e g => Sys2Proof.Machine.execSkAnd e g s
  | .skOr e g => Sys2Proof.Machine.execSkOr e g s
  | .skXor e g => Sys2Proof.Machine.execSkXor e g s
  | .skNot e g => Sys2Proof.Machine.execSkNot e g s
  | .skShl e g sh => Sys2Proof.Machine.execSkShl e g sh s
  | .skShr e g sh => Sys2Proof.Machine.execSkShr e g sh s
  | .skSar e g sh => Sys2Proof.Machine.execSkSar e g sh s
  | .skRol e g sh => Sys2Proof.Machine.execSkRol e g sh s
  | .skClz e g => Sys2Proof.Machine.execSkClz e g s
  | .skCtz e g => Sys2Proof.Machine.execSkCtz e g s
  | .skBfx e g w1 lsb => Sys2Proof.Machine.execSkBfx e g w1 lsb s
  | .skBfi e g w1 lsb => Sys2Proof.Machine.execSkBfi e g w1 lsb s
  | .skPerm e g => Sys2Proof.Machine.execSkPerm e g s
  | .skBswap e g => Sys2Proof.Machine.execSkBswap e g s
  | .skLd e g seg off => Sys2Proof.Machine.execSkLd e g seg off s
  | .skSt e g seg off => Sys2Proof.Machine.execSkSt e g seg off s
  | .skLdx e g seg off => Sys2Proof.Machine.execSkLdx e g seg off s
  | .skStx e g seg off => Sys2Proof.Machine.execSkStx e g seg off s
  | .skSeglen e g seg => Sys2Proof.Machine.execSkSeglen e g seg s
  | .skCopy e g => Sys2Proof.Machine.execSkCopy e g s
  | .skMul e g => Sys2Proof.Machine.execSkMul e g s
  | .skRdml e g agree => Sys2Proof.Machine.execSkRdml e g agree s
  | .skRdmh e g agree => Sys2Proof.Machine.execSkRdmh e g agree s
  | .skRdsr e g sr => Sys2Proof.Machine.execSkRdsr e g sr s
  | .skWrfl e g => Sys2Proof.Machine.execSkWrfl e g s
  | .gzSetmod e g slot => Sys2Proof.Machine.execGzSetmod e g slot s
  | .gzCurve e g slot order => Sys2Proof.Machine.execGzCurve e g slot order s
  | .gzSelm e g slot => Sys2Proof.Machine.execGzSelm e g slot s
  | .gzIn e g seg d => Sys2Proof.Machine.execGzIn e g seg d s
  | .gzOut e g seg a agree => Sys2Proof.Machine.execGzOut e g seg a agree s
  | .gzSeti e g seg d b => Sys2Proof.Machine.execGzSeti e g seg d b s
  | .gzMov e g seg d a => Sys2Proof.Machine.execGzMov e g seg d a s
  | .gzAdd e g seg d a b => Sys2Proof.Machine.execGzAdd e g seg d a b s
  | .gzSub e g seg d a b => Sys2Proof.Machine.execGzSub e g seg d a b s
  | .gzNeg e g seg d a => Sys2Proof.Machine.execGzNeg e g seg d a s
  | .gzMmul e g seg d a b => Sys2Proof.Machine.execGzMmul e g seg d a b s
  | .gzMsqr e g seg d a => Sys2Proof.Machine.execGzMsqr e g seg d a s
  | .gzInv e g seg d a => Sys2Proof.Machine.execGzInv e g seg d a s
  | .gzCmp e g seg a b agree => Sys2Proof.Machine.execGzCmp e g seg a b agree s
  | .customerExtension e g opc imm => Sys2Proof.Machine.execCustomerExtension e g opc imm s
  | .rawCaptureBeat data => Sys2Proof.Machine.execRawCaptureBeat data s

end Sys2Proof.Machine
end

