-- ==== Sys2Proof/Safety.lean ====
section
/-! DEFINITION. What counts as a sound state, and when a command reaches its own effect, in the terms that statements use. -/
namespace Sys2Proof.Machine

-- sound states -----------------------------------------------------------------------------------------------------------

/-- Every sparse table of the state is in its canonical form, so that equal contents are equal data. -/
structure State.Canonical (s : State) : Prop where
  regs : Tbl.wf regDefault s.regs = true
  fns : Tbl.wf fnInit s.fns = true
  rings : Tbl.wf (fun _ => {}) s.rings = true
  lanes : Tbl.wf (fun _ => {}) s.lanes = true
  digs : Tbl.wf (fun _ => {}) s.digs = true
  easels : Tbl.wf (fun _ => {}) s.easels = true
  islands : Tbl.wf (fun _ => {}) s.pwr.isl = true
  sources : Tbl.wf (fun _ => {}) s.ent.src = true
  ages : Tbl.wf (fun _ => {}) s.age = true
  cells : Tbl.wf (fun _ => ({}, {})) s.tly.cells = true
  gallery : Tbl.wf (fun _ => zeros 64) s.gal.val = true
  galleryCounts : Tbl.wf (fun _ => 0) s.gal.count = true

/-- Outstanding transactions of one direction: every number lies below the limit, and no two of one port share one (R50). -/
def numbered (l : List Txn) (lim : Nat) : Prop :=
  (∀ t ∈ l, t.num < lim) ∧ (l.map (fun t => (t.port, t.num))).Nodup

/-- What holds in every state that a run reaches: the tables are canonical; an ERROR response carries no data (R45); at most
256 reads and 128 writes are outstanding on a port, under distinct numbers (R50); at most four key-lift requests are owed an
answer (R59); at most 16 tally writes are queued (R524). -/
structure State.Sound (s : State) : Prop where
  canonical : s.Canonical
  code : s.port.code ≤ 1
  errorData : s.port.code = 1 → s.port.data = 0
  reads : numbered s.fab.rd 256
  writes : numbered s.fab.wr 128
  lift : s.kl.out.length ≤ 4
  queue : s.tly.queue.length ≤ 16

-- when a command reaches its effect -------------------------------------------------------------------------------------------

/-- The register port carries out a mapped access: no read is stalled (R43), and the block serves every access (R557). -/
def State.Open (s : State) : Prop := s.portTakes = true ∧ s.serves = true

/-- A function that is Enabled, neither halted nor resetting (R112). -/
def State.Running (s : State) (f : Nat) : Prop :=
  (s.fn f).enabled = true ∧ (s.fn f).halted = false ∧ (s.fn f).resetting = false

/-- Easel `e` runs the computation `c` of request `r` on library entry `i`, which stands at the code word `w` with a guard that
lets it execute (R404, R405); its clock runs (R70), no injection of the easel's comparator or of the easel memories is armed (R514), no
answer of the extension port is awaited. -/
structure State.AtWord (s : State) (e : Nat) (g : BitVec 4) (w : Nat) (c : Comp) (r : Req) (i : Nat) : Prop where
  comp : (s.easel e).comp = some c
  req : s.req c.id = some r
  entry : c.entry = some i
  live : s.live = true
  runs : s.fnRuns r.f = true
  canvas : c.segs ≠ []
  idle : c.cx = none
  word : libCode s.tables.library c.pc = w
  clock : s.clkOk 6 = true
  unarmed : s.armedChecker ≠ some (0x50 + e)
  unstruck : s.armedChecker ≠ some 0x57
  guard : guardOn g c.flags = true

/-- An instruction of `cost` cycles, bounded by `bound`, that goes on at `pc` meets no limit: the yield limit (R434), the cycle
cap and the code range (R435). -/
structure State.Fits (s : State) (c : Comp) (i cost bound pc : Nat) : Prop where
  yieldLimit : c.run + bound ≤ s.yieldLimit
  cap : c.total + cost ≤ (LibEntry.of (libEntryB s.tables.library i)).cap * 65536
  start : (LibEntry.of (libEntryB s.tables.library i)).start ≤ pc
  stop : pc < (LibEntry.of (libEntryB s.tables.library i)).start + (LibEntry.of (libEntryB s.tables.library i)).len

/-- Easel `e` holds `c'` in the place of the computation of the same request. -/
def State.onEasel (s : State) (e : Nat) (c' : Comp) : State := s.setEasel e ((s.easel e).setComp c')

/-- The computation `c'` after an instruction of `c` that took `n` cycles and goes on to the next word. -/
def Comp.after (c : Comp) (n : Nat) (c' : Comp) : Comp :=
  { c' with pc := (c.pc + 1) % 0x10000, run := c.run + n, total := c.total + n }

/-- Easel `e` has run the instruction of `c` in `n` cycles (R400), which leaves `c'` at the next word. -/
def State.ran (s : State) (e n : Nat) (c c' : Comp) : State := (s.addBusy (13 + e) n).onEasel e (c.after n c')

/-- Z and N from a result; C and V as they were (R406). -/
def Comp.zn (c : Comp) (x : Limb) : BitVec 4 := mkFlags (x == 0) x.msb (fC c.flags) (fV c.flags)

/-- The signed value lies outside 64 bits two's complement. -/
def overflows (x : Int) : Bool := decide (x < -(2 ^ 63)) || decide (2 ^ 63 ≤ x)

end Sys2Proof.Machine
end

