-- ==== Sys2Proof/Certificates/Slice0/Obligations.lean ====
section
/-! DEFINITION. The statements about the block. Every one is about `exec`, `step` or a shared operation; a command's statement
says the state before the block settles (`State.settle`), and so also what the command leaves as it was. -/
open Sys2Proof Sys2Proof.Machine

-- sketch instructions ---------------------------------------------------------------------------------------------------------

/-- R413, R414: the stack instructions. The computation stands at the word, has room, and meets no limit. -/
def Obligations.SketchStackInstructionsMoveTheStack : Prop :=
  ∀ (s : State) (e : Nat) (g : BitVec 4) (c : Comp) (r : Req) (i : Nat) (t : List Limb) (x y z : Limb) (imm : BitVec 20)
    (k : BitVec 5),
    s.Fits c i 1 1 ((c.pc + 1) % 0x10000) → c.stack.length < 32 →
    (s.AtWord e g (skWord g 0x00 0) c r i →
      exec (.skNop e g) s = .next (s.ran e 1 c c).settle) ∧
    (s.AtWord e g (skWord g 0x10 imm.toNat) c r i →
      exec (.skPushi e g imm) s = .next (s.ran e 1 c { c with stack := imm.setWidth 64 :: c.stack }).settle) ∧
    (s.AtWord e g (skWord g 0x11 imm.toNat) c r i →
      exec (.skPushs e g imm) s = .next (s.ran e 1 c { c with stack := imm.signExtend 64 :: c.stack }).settle) ∧
    (s.AtWord e g (skWord g 0x12 imm.toNat) c r i → c.stack = x :: t →
      exec (.skPushx e g imm) s = .next (s.ran e 1 c { c with stack := (x <<< 20 ||| imm.setWidth 64) :: t }).settle) ∧
    (s.AtWord e g (skWord g 0x13 0) c r i → c.stack = x :: t →
      exec (.skDup e g) s = .next (s.ran e 1 c { c with stack := x :: x :: t }).settle) ∧
    (s.AtWord e g (skWord g 0x14 0) c r i → c.stack = x :: t →
      exec (.skDrop e g) s = .next (s.ran e 1 c { c with stack := t }).settle) ∧
    (s.AtWord e g (skWord g 0x15 0) c r i → c.stack = y :: x :: t →
      exec (.skSwap e g) s = .next (s.ran e 1 c { c with stack := x :: y :: t }).settle) ∧
    (s.AtWord e g (skWord g 0x16 0) c r i → c.stack = y :: x :: t →
      exec (.skOver e g) s = .next (s.ran e 1 c { c with stack := x :: y :: x :: t }).settle) ∧
    (s.AtWord e g (skWord g 0x17 0) c r i → c.stack = z :: y :: x :: t →
      exec (.skRot e g) s = .next (s.ran e 1 c { c with stack := x :: z :: y :: t }).settle) ∧
    (s.AtWord e g (skWord g 0x18 k.toNat) c r i → c.stack[k.toNat]? = some x →
      exec (.skPick e g k) s = .next (s.ran e 1 c { c with stack := x :: c.stack }).settle) ∧
    (s.AtWord e g (skWord g 0x19 0) c r i →
      exec (.skDepth e g) s = .next (s.ran e 1 c { c with stack := BitVec.ofNat 64 c.stack.length :: c.stack }).settle)

/-- R413, R414, R406: additions and subtractions with their four flags; CMP leaves its operands. -/
def Obligations.SketchAddSubtractSetFourFlags : Prop :=
  ∀ (s : State) (e : Nat) (g : BitVec 4) (c : Comp) (r : Req) (i : Nat) (t : List Limb) (a b : Limb) (imm : BitVec 20),
    s.Fits c i 1 1 ((c.pc + 1) % 0x10000) → c.stack.length ≤ 32 →
    (s.AtWord e g (skWord g 0x20 0) c r i → c.stack = b :: a :: t →
      exec (.skAdd e g) s = .next (s.ran e 1 c { c with
        stack := (a + b) :: t
        flags := mkFlags (a + b == 0) (a + b).msb (decide (2 ^ 64 ≤ a.toNat + b.toNat)) (overflows (a.toInt + b.toInt)) }).settle) ∧
    (s.AtWord e g (skWord g 0x21 0) c r i → c.stack = b :: a :: t →
      exec (.skAdc e g) s = .next (s.ran e 1 c { c with
        stack := (a + b + BitVec.ofNat 64 (fC c.flags).toNat) :: t
        flags := mkFlags (a + b + BitVec.ofNat 64 (fC c.flags).toNat == 0) (a + b + BitVec.ofNat 64 (fC c.flags).toNat).msb
          (decide (2 ^ 64 ≤ a.toNat + b.toNat + (fC c.flags).toNat)) (overflows (a.toInt + b.toInt + (fC c.flags).toNat)) }).settle) ∧
    (s.AtWord e g (skWord g 0x22 0) c r i → c.stack = b :: a :: t →
      exec (.skSub e g) s = .next (s.ran e 1 c { c with
        stack := (a - b) :: t
        flags := mkFlags (a - b == 0) (a - b).msb (decide (a.toNat < b.toNat)) (overflows (a.toInt - b.toInt)) }).settle) ∧
    (s.AtWord e g (skWord g 0x23 0) c r i → c.stack = b :: a :: t →
      exec (.skSbc e g) s = .next (s.ran e 1 c { c with
        stack := (a - b - BitVec.ofNat 64 (fC c.flags).toNat) :: t
        flags := mkFlags (a - b - BitVec.ofNat 64 (fC c.flags).toNat == 0) (a - b - BitVec.ofNat 64 (fC c.flags).toNat).msb
          (decide (a.toNat < b.toNat + (fC c.flags).toNat)) (overflows (a.toInt - b.toInt - (fC c.flags).toNat)) }).settle) ∧
    (s.AtWord e g (skWord g 0x24 0) c r i → c.stack = b :: a :: t →
      exec (.skCmp e g) s = .next (s.ran e 1 c { c with
        flags := mkFlags (a - b == 0) (a - b).msb (decide (a.toNat < b.toNat)) (overflows (a.toInt - b.toInt)) }).settle) ∧
    (s.AtWord e g (skWord g 0x25 imm.toNat) c r i → c.stack = a :: t →
      exec (.skAddi e g imm) s = .next (s.ran e 1 c { c with
        stack := (a + imm.signExtend 64) :: t
        flags := mkFlags (a + imm.signExtend 64 == 0) (a + imm.signExtend 64).msb
          (decide (2 ^ 64 ≤ a.toNat + (imm.signExtend 64).toNat)) (overflows (a.toInt + imm.toInt)) }).settle)

/-- R413, R406, R416, R417: logic, bit fields and byte permutations set Z and N from their result and keep C and V; CLZ and CTZ
set Z where the operand is 0, and N to 0. -/
def Obligations.SketchLogicAndBitFieldResults : Prop :=
  ∀ (s : State) (e : Nat) (g : BitVec 4) (c : Comp) (r : Req) (i : Nat) (t : List Limb) (a b x : Limb) (w1 lsb : BitVec 6),
    s.Fits c i 1 1 ((c.pc + 1) % 0x10000) → c.stack.length ≤ 32 →
    (s.AtWord e g (skWord g 0x26 0) c r i → c.stack = b :: a :: t →
      exec (.skAnd e g) s = .next (s.ran e 1 c { c with stack := (a &&& b) :: t, flags := c.zn (a &&& b) }).settle) ∧
    (s.AtWord e g (skWord g 0x27 0) c r i → c.stack = b :: a :: t →
      exec (.skOr e g) s = .next (s.ran e 1 c { c with stack := (a ||| b) :: t, flags := c.zn (a ||| b) }).settle) ∧
    (s.AtWord e g (skWord g 0x28 0) c r i → c.stack = b :: a :: t →
      exec (.skXor e g) s = .next (s.ran e 1 c { c with stack := (a ^^^ b) :: t, flags := c.zn (a ^^^ b) }).settle) ∧
    (s.AtWord e g (skWord g 0x29 0) c r i → c.stack = a :: t →
      exec (.skNot e g) s = .next (s.ran e 1 c { c with stack := ~~~a :: t, flags := c.zn (~~~a) }).settle) ∧
    (s.AtWord e g (skWord g 0x2E 0) c r i → c.stack = a :: t → x.toNat ≤ 64 →
      (∀ j, 64 - x.toNat ≤ j → a.getLsbD j = false) → (x.toNat < 64 → a.getLsbD (63 - x.toNat) = true) →
      exec (.skClz e g) s = .next (s.ran e 1 c { c with
        stack := x :: t, flags := mkFlags (a == 0) false (fC c.flags) (fV c.flags) }).settle) ∧
    (s.AtWord e g (skWord g 0x2F 0) c r i → c.stack = a :: t → x.toNat ≤ 64 →
      (∀ j, j < x.toNat → a.getLsbD j = false) → (x.toNat < 64 → a.getLsbD x.toNat = true) →
      exec (.skCtz e g) s = .next (s.ran e 1 c { c with
        stack := x :: t, flags := mkFlags (a == 0) false (fC c.flags) (fV c.flags) }).settle) ∧
    (s.AtWord e g (skWord g 0x30 (w1.toNat * 64 + lsb.toNat)) c r i → c.stack = a :: t → lsb.toNat + w1.toNat < 64 →
      (∀ j, x.getLsbD j = (decide (j ≤ w1.toNat) && a.getLsbD (lsb.toNat + j))) →
      exec (.skBfx e g w1 lsb) s = .next (s.ran e 1 c { c with stack := x :: t, flags := c.zn x }).settle) ∧
    (s.AtWord e g (skWord g 0x31 (w1.toNat * 64 + lsb.toNat)) c r i → c.stack = b :: a :: t → lsb.toNat + w1.toNat < 64 →
      (∀ j, x.getLsbD j = if lsb.toNat ≤ j ∧ j ≤ lsb.toNat + w1.toNat then b.getLsbD (j - lsb.toNat) else a.getLsbD j) →
      exec (.skBfi e g w1 lsb) s = .next (s.ran e 1 c { c with stack := x :: t, flags := c.zn x }).settle) ∧
    (s.AtWord e g (skWord g 0x32 0) c r i → c.stack = b :: a :: t →
      (∀ k j, k < 8 → j < 8 → x.getLsbD (8 * k + j)
        = (!b.getLsbD (8 * k + 3) && a.getLsbD (8 * (b.toNat / 2 ^ (8 * k) % 8) + j))) →
      exec (.skPerm e g) s = .next (s.ran e 1 c { c with stack := x :: t, flags := c.zn x }).settle) ∧
    (s.AtWord e g (skWord g 0x33 0) c r i → c.stack = a :: t →
      (∀ k j, k < 8 → j < 8 → x.getLsbD (8 * k + j) = a.getLsbD (8 * (7 - k) + j)) →
      exec (.skBswap e g) s = .next (s.ran e 1 c { c with stack := x :: t, flags := c.zn x }).settle)

/-- What a shift by `n` makes of `a`, with C (R415). -/
def shiftResult : Shift → Limb → Nat → Limb × Bool
  | .shl, a, n => (a <<< n, decide (0 < n ∧ n < 64) && a.getLsbD (64 - n))
  | .shr, a, n => (a >>> n, decide (0 < n ∧ n < 64) && a.getLsbD (n - 1))
  | .sar, a, n => (a.sshiftRight n, if n = 0 then false else if 64 ≤ n then a.msb else a.getLsbD (n - 1))
  | .rol, a, n => (a.rotateLeft (n % 64), decide (n % 64 ≠ 0) && (a.rotateLeft (n % 64)).getLsbD 0)

/-- R413, R415: shifts by an immediate count and by a count from the stack, with Z, N and C; V is kept. That ROL by a nonzero
multiple of 64 clears C is the model's reading (log entry 21). -/
def Obligations.SketchShiftResults : Prop :=
  ∀ (s : State) (e : Nat) (g : BitVec 4) (c : Comp) (r : Req) (i : Nat) (t : List Limb) (a n : Limb) (sh : BitVec 7),
    s.Fits c i 1 1 ((c.pc + 1) % 0x10000) → c.stack.length ≤ 32 →
    ∀ p ∈ [((0x2A : Nat), Shift.shl, Instr.skShl e g sh), (0x2B, .shr, .skShr e g sh), (0x2C, .sar, .skSar e g sh),
           (0x2D, .rol, .skRol e g sh)],
      s.AtWord e g (skWord g p.1 sh.toNat) c r i →
      (sh.toNat < 64 → c.stack = a :: t →
        exec p.2.2 s = .next (s.ran e 1 c { c with
          stack := (shiftResult p.2.1 a sh.toNat).1 :: t
          flags := mkFlags ((shiftResult p.2.1 a sh.toNat).1 == 0) (shiftResult p.2.1 a sh.toNat).1.msb
            (shiftResult p.2.1 a sh.toNat).2 (fV c.flags) }).settle) ∧
      (64 ≤ sh.toNat → c.stack = n :: a :: t →
        exec p.2.2 s = .next (s.ran e 1 c { c with
          stack := (shiftResult p.2.1 a n.toNat).1 :: t
          flags := mkFlags ((shiftResult p.2.1 a n.toNat).1 == 0) (shiftResult p.2.1 a n.toNat).1.msb
            (shiftResult p.2.1 a n.toNat).2 (fV c.flags) }).settle)

/-- R404, R413, R414: control instructions. CALL saves the next word, RET takes it back, DBNZ counts down and branches while
the count is not 0. -/
def Obligations.SketchControlTransfers : Prop :=
  ∀ (s : State) (e : Nat) (g : BitVec 4) (c : Comp) (r : Req) (i : Nat) (t : List Limb) (u : List Nat) (n : Limb)
    (rel : BitVec 20) (dest a : Nat),
    c.pc < 0x10000 → c.stack.length ≤ 32 → (dest : Int) = c.pc + rel.toInt → dest < 0x10000 →
    (s.AtWord e g (skWord g 0x03 rel.toNat) c r i → s.Fits c i 2 2 dest →
      exec (.skJmp e g rel) s = .next ((s.addBusy (13 + e) 2).onEasel e { c with pc := dest, run := c.run + 2, total := c.total + 2 }).settle) ∧
    (s.AtWord e g (skWord g 0x04 rel.toNat) c r i → s.Fits c i 2 2 dest → c.rets.length < 16 →
      exec (.skCall e g rel) s = .next ((s.addBusy (13 + e) 2).onEasel e { c with
        pc := dest, rets := (c.pc + 1) % 0x10000 :: c.rets, run := c.run + 2, total := c.total + 2 }).settle) ∧
    (s.AtWord e g (skWord g 0x05 0) c r i → s.Fits c i 2 2 a → c.rets = a :: u →
      exec (.skRet e g) s = .next ((s.addBusy (13 + e) 2).onEasel e { c with pc := a, rets := u, run := c.run + 2, total := c.total + 2 }).settle) ∧
    (s.AtWord e g (skWord g 0x06 rel.toNat) c r i → c.stack = n :: t →
      (n ≠ 1 → s.Fits c i 2 2 dest →
        exec (.skDbnz e g rel) s = .next ((s.addBusy (13 + e) 2).onEasel e { c with
          pc := dest, run := c.run + 2, total := c.total + 2, stack := (n - 1) :: t, flags := c.zn (n - 1) }).settle) ∧
      (n = 1 → s.Fits c i 1 1 ((c.pc + 1) % 0x10000) →
        exec (.skDbnz e g rel) s = .next (s.ran e 1 c { c with stack := 0 :: t, flags := c.zn 0 }).settle))

/-- R405: an instruction executes when its TEST on the flags differs from SENSE: GUARD 0 always, and GUARD 8 never would; where its guard does
not let it execute, an instruction takes one cycle and does nothing else. -/
def Obligations.SketchGuardsFollowTheFlags : Prop :=
  (∀ z n c v : Bool,
    [(0 : BitVec 4), 1, 2, 3, 4, 5, 6, 7].map (fun g => guardOn g (mkFlags z n c v)) = [true, z, c, n, v, c || z, n != v, z || n != v] ∧
    [(8 : BitVec 4), 9, 10, 11, 12, 13, 14, 15].map (fun g => guardOn g (mkFlags z n c v))
      = [false, !z, !c, !n, !v, !c && !z, n == v, !z && n == v]) ∧
  (∀ (s : State) (e : Nat) (g : BitVec 4) (c : Comp) (r : Req) (i opc imm : Nat) (k : Req → SkEnv → Comp → State),
    (s.easel e).comp = some c → s.req c.id = some r → c.entry = some i → s.live = true → s.fnRuns r.f = true →
    c.segs ≠ [] → c.cx = none → libCode s.tables.library c.pc = skWord g opc imm → s.armedChecker ≠ some (0x50 + e) →
    s.armedChecker ≠ some 0x57 → s.clkOk 6 = true → guardOn g c.flags = false → s.Fits c i 1 1 ((c.pc + 1) % 0x10000) →
    s.skAt e g opc imm k = s.ran e 1 c c)

/-- R411, R413, R418: the memory instructions on a PLAIN segment. An access that touches no limb outside the segment and has
its right reads or writes the limb, byte 8k first. -/
def Obligations.SketchMemoryInstructions : Prop :=
  ∀ (s : State) (e : Nat) (g : BitVec 4) (c : Comp) (r : Req) (i : Nat) (t : List Limb) (v x : Limb) (seg : BitVec 4)
    (off : BitVec 16) (sg : Seg),
    c.stack.length < 32 → c.segs[seg.toNat]? = some sg →
    (s.AtWord e g (skWord g 0x40 (seg.toNat * 0x10000 + off.toNat)) c r i → s.Fits c i 2 2 ((c.pc + 1) % 0x10000) →
      sg.dual = false → sg.r = true → 8 * (off.toNat + 1) ≤ sg.size →
      exec (.skLd e g seg off) s = .next (s.ran e 2 c { c with
        stack := BitVec.ofNat 64 (fieldLE sg.bytes (8 * off.toNat) 8) :: c.stack }).settle) ∧
    (s.AtWord e g (skWord g 0x41 (seg.toNat * 0x10000 + off.toNat)) c r i → s.Fits c i 1 1 ((c.pc + 1) % 0x10000) →
      sg.dual = false → sg.w = true → 8 * (off.toNat + 1) ≤ sg.size → c.stack = v :: t →
      exec (.skSt e g seg off) s = .next (s.ran e 1 c { c with
        stack := t
        segs := c.segs.set seg.toNat { sg with bytes := overwrite sg.bytes (8 * off.toNat) (natLE 8 v.toNat) } }).settle) ∧
    (s.AtWord e g (skWord g 0x42 (seg.toNat * 0x10000 + off.toNat)) c r i → s.Fits c i 2 2 ((c.pc + 1) % 0x10000) →
      sg.dual = false → sg.r = true → c.stack = x :: t → 8 * (off.toNat + x.toNat + 1) ≤ sg.size →
      exec (.skLdx e g seg off) s = .next (s.ran e 2 c { c with
        stack := BitVec.ofNat 64 (fieldLE sg.bytes (8 * (off.toNat + x.toNat)) 8) :: t }).settle) ∧
    (s.AtWord e g (skWord g 0x43 (seg.toNat * 0x10000 + off.toNat)) c r i → s.Fits c i 1 1 ((c.pc + 1) % 0x10000) →
      sg.dual = false → sg.w = true → c.stack = x :: v :: t → 8 * (off.toNat + x.toNat + 1) ≤ sg.size →
      exec (.skStx e g seg off) s = .next (s.ran e 1 c { c with
        stack := t
        segs := c.segs.set seg.toNat
          { sg with bytes := overwrite sg.bytes (8 * (off.toNat + x.toNat)) (natLE 8 v.toNat) } }).settle) ∧
    (s.AtWord e g (skWord g 0x44 (seg.toNat * 0x10000)) c r i → s.Fits c i 1 1 ((c.pc + 1) % 0x10000) →
      exec (.skSeglen e g seg) s = .next (s.ran e 1 c { c with
        stack := BitVec.ofNat 64 (sg.size / 8) :: c.stack }).settle)

/-- R413, R418: COPY takes 2 + n cycles, reads and writes one limb after the other in rising order; with n = 0 it makes no
access. -/
def Obligations.SketchCopyMovesLimbsInRisingOrder : Prop :=
  ∀ (s : State) (e : Nat) (g : BitVec 4) (c : Comp) (r : Req) (i : Nat) (t : List Limb) (src dst : Limb),
    s.AtWord e g (skWord g 0x45 0) c r i → c.stack.length ≤ 32 →
    (∀ (n : Limb) (ks os kd od : Nat), c.stack = n :: dst :: src :: t → n ≠ 0 →
      src.toNat = ks * 0x10000 + os → dst.toNat = kd * 0x10000 + od → ks < 16 → kd < 16 → os < 0x10000 → od < 0x10000 →
      c.plainCheck ks os n.toNat false = none → c.plainCheck kd od n.toNat true = none →
      s.Fits c i (2 + n.toNat) (2 + n.toNat) ((c.pc + 1) % 0x10000) →
      exec (.skCopy e g) s = .next (s.ran e (2 + n.toNat) c { ((List.range n.toNat).foldl
        (fun (x : Comp) j => x.putBytes kd (od + j) (natLE 8 (x.limb ks (os + j)).toNat)) c) with stack := t }).settle) ∧
    (c.stack = 0 :: dst :: src :: t → s.Fits c i 2 2 ((c.pc + 1) % 0x10000) →
      exec (.skCopy e g) s = .next (s.ran e 2 c { c with stack := t }).settle)

/-- R413, R419, R420: MUL issues a product, RDML and RDMH read the newest one issued six cycles before or earlier, RDSR reads a
special register, WRFL sets the flags. -/
def Obligations.SketchMultiplierAndSpecialRegisters : Prop :=
  ∀ (s : State) (e : Nat) (g : BitVec 4) (c : Comp) (r : Req) (i : Nat) (t : List Limb) (a b : Limb),
    s.Fits c i 1 1 ((c.pc + 1) % 0x10000) → c.stack.length < 32 →
    (s.AtWord e g (skWord g 0x50 0) c r i → c.stack = b :: a :: t →
      exec (.skMul e g) s = .next (s.ran e 1 c { c with
        stack := t, flight := c.flight ++ [(c.total, BitVec.ofNat 128 (a.toNat * b.toNat))] }).settle) ∧
    (∀ (old new : List (Nat × BitVec 128)) (k : Nat) (p : BitVec 128),
      c.flight = old ++ (k, p) :: new → (∀ q ∈ old, q.1 + 6 ≤ c.total) → k + 6 ≤ c.total → (∀ q ∈ new, c.total < q.1 + 6) →
      (s.AtWord e g (skWord g 0x51 0) c r i →
        exec (.skRdml e g true) s = .next (s.ran e 1 c { c with
          stack := p.extractLsb' 0 64 :: c.stack, ml := p.extractLsb' 0 64, mh := p.extractLsb' 64 64, flight := new }).settle) ∧
      (s.AtWord e g (skWord g 0x52 0) c r i →
        exec (.skRdmh e g true) s = .next (s.ran e 1 c { c with
          stack := p.extractLsb' 64 64 :: c.stack, ml := p.extractLsb' 0 64, mh := p.extractLsb' 64 64, flight := new }).settle)) ∧
    ((∀ q ∈ c.flight, c.total < q.1 + 6) →
      (s.AtWord e g (skWord g 0x51 0) c r i →
        exec (.skRdml e g true) s = .next (s.ran e 1 c { c with stack := c.ml :: c.stack }).settle) ∧
      (s.AtWord e g (skWord g 0x52 0) c r i →
        exec (.skRdmh e g true) s = .next (s.ran e 1 c { c with stack := c.mh :: c.stack }).settle)) ∧
    (∀ (sr : BitVec 4) (v : Limb),
      (sr, v) ∈ [((0 : BitVec 4), c.flags.setWidth 64), (1, BitVec.ofNat 64 (fieldLE (dIv r.d) 8 8)), (2, BitVec.ofNat 64 (dLen r.d)),
        (3, BitVec.ofNat 64 r.f), (4, BitVec.ofNat 64 c.run), (5, BitVec.ofNat 64 c.total), (6, BitVec.ofNat 64 c.slotL)] →
      s.AtWord e g (skWord g 0x53 sr.toNat) c r i →
      exec (.skRdsr e g sr) s = .next (s.ran e 1 c { c with stack := v :: c.stack }).settle) ∧
    (s.AtWord e g (skWord g 0x54 0) c r i → c.stack = a :: t →
      exec (.skWrfl e g) s = .next (s.ran e 1 c { c with stack := t, flags := a.setWidth 4 }).settle)

/-- T_M and G of R423. -/
def glazeG (L : Nat) : Nat := (L + 1 + 3) / 4
def glazeTM (L : Nat) : Nat := 2 + (L + 1) * glazeG L

/-- R423, R426: the arithmetic of the glaze unit on elements of a DUAL segment under the active modulus, once the products in
flight have landed (R421). -/
def Obligations.GlazeArithmetic : Prop :=
  ∀ (s : State) (e : Nat) (g : BitVec 4) (c : Comp) (r : Req) (i : Nat) (seg : BitVec 4) (d a b : BitVec 5) (L m x y : Nat),
    c.slot.mod = some (L, m) → c.dualCheck seg.toNat d.toNat true = none →
    (s.AtWord e g (skWord g 0xC5 (seg.toNat * 0x10000 + d.toNat * 0x400 + b.toNat)) c r i →
      s.Fits c i (c.landWait + (glazeTM L + 1)) (c.landWait + (glazeTM L + 1)) ((c.pc + 1) % 0x10000) →
      exec (.gzSeti e g seg d b) s
        = .next (s.ran e (c.landWait + (glazeTM L + 1)) c (c.landAll.setElem seg.toNat d.toNat (b.toNat % m))).settle) ∧
    (c.elem seg.toNat a.toNat = some x → c.elem seg.toNat b.toNat = some y →
    c.dualCheck seg.toNat a.toNat false = none → c.dualCheck seg.toNat b.toNat false = none → x < m → y < m →
    ∀ p ∈ [(0xC6, a.toNat * 0x20, 2 + glazeG L, x, .gzMov e g seg d a),
           (0xC7, a.toNat * 0x20 + b.toNat, 2 + glazeG L, (x + y) % m, .gzAdd e g seg d a b),
           (0xC8, a.toNat * 0x20 + b.toNat, 2 + glazeG L, (x + (m - y)) % m, .gzSub e g seg d a b),
           (0xC9, a.toNat * 0x20, 2 + glazeG L, (m - x) % m, .gzNeg e g seg d a),
           (0xCA, a.toNat * 0x20 + b.toNat, glazeTM L, x * y % m, .gzMmul e g seg d a b),
           (0xCB, a.toNat * 0x20, glazeTM L, x * x % m, .gzMsqr e g seg d a)],
      s.AtWord e g (skWord g p.1 (seg.toNat * 0x10000 + d.toNat * 0x400 + p.2.1)) c r i →
      s.Fits c i (c.landWait + p.2.2.1) (c.landWait + p.2.2.1) ((c.pc + 1) % 0x10000) →
      exec p.2.2.2.2 s
        = .next (s.ran e (c.landWait + p.2.2.1) c (c.landAll.setElem seg.toNat d.toNat p.2.2.2.1)).settle)

/-- R423, R424, R426, R427: moves between PLAIN segments and the glaze domain, the slots, and the compare, on agreeing slices. -/
def Obligations.GlazeSlotsConversionsAndCompare : Prop :=
  ∀ (s : State) (e : Nat) (g : BitVec 4) (c : Comp) (r : Req) (i : Nat) (t : List Limb) (slot : Bool) (ad : Limb),
    c.stack.length ≤ 32 →
    (s.AtWord e g (skWord g 0xC2 slot.toNat) c r i → s.Fits c i (c.landWait + 1) (c.landWait + 1) ((c.pc + 1) % 0x10000) →
      exec (.gzSelm e g slot) s = .next (s.ran e (c.landWait + 1) c { c.landAll with active := slot }).settle) ∧
    (∀ (order : Bool) (n : Limb) (cv : Bytes) (L m : Nat),
      s.AtWord e g (skWord g 0xC1 (slot.toNat + 2 * order.toNat)) c r i → c.stack = n :: t → n.toNat < 32 →
      s.curve n.toNat = some cv →
      (if order then (ceilDiv (Curve.of cv).nbits 64, (Curve.of cv).n) else (ceilDiv (Curve.of cv).pbits 64, (Curve.of cv).p)) = (L, m) →
      L ≤ (LibEntry.of (libEntryB s.tables.library i)).lmax → s.Fits c i (c.landWait + 6) (c.landWait + 6) ((c.pc + 1) % 0x10000) →
      exec (.gzCurve e g slot order) s = .next (s.ran e (c.landWait + 6) c (Comp.setSlot { c.landAll with stack := t, flags := mkFlags (fZ c.flags) (fN c.flags) false (fV c.flags) } slot
          { mod := some (L, m), load := (if slot then c.slot1 else c.slot0).load + 1 })).settle) ∧
    (∀ (seg : BitVec 4) (d a b : BitVec 5) (L m k o x y : Nat),
      c.slot.mod = some (L, m) → ad.toNat = k * 0x10000 + o → k < 16 → o < 0x10000 →
      (s.AtWord e g (skWord g 0xC3 (seg.toNat * 0x10000 + d.toNat * 0x400)) c r i → c.stack = ad :: t →
        c.plainCheck k o L false = none → c.dualCheck seg.toNat d.toNat true = none →
        x = fieldLE (c.segs.getD k {}).bytes (8 * o) (8 * L) → x < m →
        s.Fits c i (c.landWait + (glazeTM L + L + 2)) (c.landWait + (glazeTM L + L + 2)) ((c.pc + 1) % 0x10000) →
        exec (.gzIn e g seg d) s = .next (s.ran e (c.landWait + (glazeTM L + L + 2)) c (Comp.setElem { c.landAll with stack := t, flags := mkFlags (x == 0) (fN c.flags) false (fV c.flags) } seg.toNat d.toNat x)).settle) ∧
      (s.AtWord e g (skWord g 0xC4 (seg.toNat * 0x10000 + a.toNat * 0x20)) c r i → c.stack = ad :: t →
        c.plainCheck k o L true = none → c.dualCheck seg.toNat a.toNat false = none → c.elem seg.toNat a.toNat = some x →
        s.Fits c i (c.landWait + (glazeTM L + L + 4)) (c.landWait + (glazeTM L + L + 4)) ((c.pc + 1) % 0x10000) →
        exec (.gzOut e g seg a true) s = .next (s.ran e (c.landWait + (glazeTM L + L + 4)) c (Comp.putBytes { c.landAll with stack := t } k o (natLE (8 * L) x))).settle) ∧
      (s.AtWord e g (skWord g 0xCD (seg.toNat * 0x10000 + a.toNat * 0x20 + b.toNat)) c r i →
        c.dualCheck seg.toNat a.toNat false = none → c.dualCheck seg.toNat b.toNat false = none →
        c.elem seg.toNat a.toNat = some x → c.elem seg.toNat b.toNat = some y →
        s.Fits c i (c.landWait + (glazeTM L + 4)) (c.landWait + (glazeTM L + 4)) ((c.pc + 1) % 0x10000) →
        exec (.gzCmp e g seg a b true) s = .next (s.ran e (c.landWait + (glazeTM L + 4)) c { c.landAll with flags := mkFlags (x == y) (fN c.flags) (decide (x < y)) (fV c.flags) }).settle))

/-- R423, R424, R426, R428: GZ_SETMOD and GZ_INV, whole where their work fits one part of 4,096 cycles, and the internal yield
after a part. -/
def Obligations.GlazeSetmodAndInverse : Prop :=
  ∀ (s : State) (e : Nat) (g : BitVec 4) (c : Comp) (r : Req) (i : Nat) (t : List Limb) (slot : Bool) (ad n : Limb)
    (seg : BitVec 4) (d a : BitVec 5) (k o L m x : Nat),
    c.stack.length ≤ 32 → c.part = 0 →
    (s.AtWord e g (skWord g 0xC0 slot.toNat) c r i → c.stack = n :: ad :: t → n.toNat = L → 0 < L →
      L ≤ (LibEntry.of (libEntryB s.tables.library i)).lmax → ad.toNat = k * 0x10000 + o → k < 16 → o < 0x10000 →
      c.plainCheck k o L false = none → m = fieldLE (c.segs.getD k {}).bytes (8 * o) (8 * L) →
      (40 + 16 * glazeTM L ≤ 4096 →
        s.Fits c i (c.landWait + (40 + 16 * glazeTM L)) (c.landWait + (40 + 16 * glazeTM L)) ((c.pc + 1) % 0x10000) →
        exec (.gzSetmod ⟨e, true⟩ g slot) s = .next (s.ran e (c.landWait + (40 + 16 * glazeTM L)) c { (Comp.setSlot { c.landAll with
               stack := t
               flags := mkFlags (fZ c.flags) (fN c.flags) (decide (m % 2 = 0 ∨ m / 2 ^ (64 * (L - 1)) = 0)) (fV c.flags) } slot
             { mod := if m % 2 = 0 ∨ m / 2 ^ (64 * (L - 1)) = 0 then none else some (L, m)
               load := (if slot then c.slot1 else c.slot0).load + 1 }) with part := 0 }).settle) ∧
      (4096 < 40 + 16 * glazeTM L →
        s.Fits c i (c.landWait + 4096 + (20 + c.ckptCost (LibEntry.of (libEntryB s.tables.library i))))
          (c.landWait + 4096 + (20 + c.ckptCost (LibEntry.of (libEntryB s.tables.library i)))) c.pc →
        exec (.gzSetmod ⟨e, true⟩ g slot) s = .next (((s.addBusy (13 + e) (c.landWait + 4096 + (20 + c.ckptCost (LibEntry.of (libEntryB s.tables.library i))))).onEasel e { c.landAll with
          part := 4096
          run := c.run + (c.landWait + 4096 + (20 + c.ckptCost (LibEntry.of (libEntryB s.tables.library i))))
          total := c.total + (c.landWait + 4096 + (20 + c.ckptCost (LibEntry.of (libEntryB s.tables.library i)))) }).skYielded e c.id).settle)) ∧
    (s.AtWord e g (skWord g 0xCC (seg.toNat * 0x10000 + d.toNat * 0x400 + a.toNat * 0x20)) c r i → c.slot.mod = some (L, m) →
      c.elem seg.toNat a.toNat = some x → 1 < m → x < m →
      c.dualCheck seg.toNat d.toNat true = none → c.dualCheck seg.toNat a.toNat false = none →
      40 + 128 * L * glazeG L ≤ 4096 →
      (∀ j ≤ 40 + 128 * L * glazeG L, s.Fits c i (c.landWait + j) (c.landWait + (40 + 128 * L * glazeG L)) ((c.pc + 1) % 0x10000)) →
      (∀ v : Nat, v < m → v * x % m = 1 → ∃ j : Nat, j ≤ 40 + 128 * L * glazeG L ∧
        exec (.gzInv ⟨e, true⟩ g seg d a) s = .next (s.ran e (c.landWait + j) c { (Comp.setElem { c.landAll with flags := mkFlags (fZ c.flags) (fN c.flags) false (fV c.flags) } seg.toNat d.toNat v) with
            part := 0 }).settle) ∧
      ((∀ v : Nat, v * x % m ≠ 1) → ∃ j : Nat, j ≤ 40 + 128 * L * glazeG L ∧
        exec (.gzInv ⟨e, true⟩ g seg d a) s = .next (s.ran e (c.landWait + j) c { c.landAll with flags := mkFlags (fZ c.flags) (fN c.flags) true (fV c.flags), part := 0 }).settle))

/-- R387, R413, R432, R436: YIELD saves the computation and frees the easel; END commits the outcome that it pops. -/
def Obligations.SketchYieldAndEnd : Prop :=
  ∀ (s : State) (e : Nat) (g : BitVec 4) (c : Comp) (r : Req) (i : Nat) (t : List Limb) (n d code : Limb),
    c.stack.length ≤ 32 →
    (s.AtWord e g (skWord g 0x02 0) c r i →
      s.Fits c i (c.landWait + 20 + c.ckptCost (LibEntry.of (libEntryB s.tables.library i)))
        (c.landWait + 20 + c.ckptCost (LibEntry.of (libEntryB s.tables.library i))) ((c.pc + 1) % 0x10000) →
      exec (.skYield e g true) s = .next ((s.ran e
        (c.landWait + 20 + c.ckptCost (LibEntry.of (libEntryB s.tables.library i))) c c.landAll).skYielded e c.id).settle) ∧
    (s.AtWord e g (skWord g 0x01 0) c r i → c.stack = code :: d :: n :: t → code.toNat ≤ 2 → d.toNat ≤ 0xFFFF →
      n.toNat ≤ (LibEntry.of (libEntryB s.tables.library i)).outMax → n.toNat ≤ (c.segs.getD 1 {}).size →
      c.run + (8 + c.ckptCost (LibEntry.of (libEntryB s.tables.library i))) ≤ s.yieldLimit →
      exec (.skEnd e g true) s = .next ((s.addBusy (13 + e) (8 + c.ckptCost (LibEntry.of (libEntryB s.tables.library i)))).endEasel e r
        { status := if code.toNat = 0 then stOk else if code.toNat = 1 then stVerifyFail else stInputReject
          detail := d.toNat, dst := ((c.segs.getD 1 {}).bytes).take n.toNat
          result := (((c.segs.getD 1 {}).bytes).take n.toNat).take 32 }).settle)

/-- R429 and the timeout of R74: the request goes out on the extension port; the answer is pushed, an error or a timeout is
CX_ERROR. The cycles to the answer are a free value of at most 64. -/
def Obligations.ExtensionPortRequestAndAnswer : Prop :=
  ∀ (s : State) (e : Nat) (g : BitVec 4) (c : Comp) (r : Req) (i : Nat) (t : List Limb) (a b : Limb),
    c.stack = b :: a :: t → c.stack.length ≤ 32 → c.dead = false →
    (∀ (opc : BitVec 4) (imm : BitVec 20), s.AtWord e g (skWord g (0xE0 + opc.toNat) imm.toNat) c r i →
      (∀ y ∈ (s.easel e).comps, y.cx = none) → c.run + 66 ≤ s.yieldLimit →
      exec (.customerExtension e g opc imm) s
        = .next (s.onEasel e { c with cx := some (opc.toNat, imm.toNat, a, b) }).settle) ∧
    (s.live = true → s.clkOk 6 = true → (s.easel e).comps.find? (fun y => y.cx.isSome) = some c → s.req c.id = some r → c.entry = some i →
      (∀ (data : Limb), (∀ j ≤ 64, s.Fits c i (2 + j) (2 + j) ((c.pc + 1) % 0x10000)) →
        ∃ j : Nat, j ≤ 64 ∧ exec (.cxResponse e data false) s
          = .next (({ (s.onEasel e { c with cx := none }) with free := s.free + 1 } : State).ran e (2 + j) c
              { c with cx := none, stack := data :: t }).settle) ∧
      (∀ (data : Limb), exec (.cxResponse e data true) s = exec (.cxTimeout e) s) ∧
      exec (.cxTimeout e) s
        = .next ((s.onEasel e { c with cx := none }).skFault e r (s.skEnv r i) c.pc .cxError).settle)

-- the register port -----------------------------------------------------------------------------------------------------------

/-- R16, R45, R555 to R557: an access of another size than 32 bits, off a word boundary or to an unmapped address receives ERROR, and an
ERROR response carries no data; a legal write stores the writable bits (shown for registers whose write has no other effect), a read
answers the value, and a read of a counter of access RC clears it. -/
def Obligations.RegisterAccessesAnswerStoreAndClear : Prop :=
  (∀ (s : State) (addr : BitVec 24) (size : BitVec 2) (v : Word), s.Open →
    (size.toNat ≠ 2 ∨ addr.toNat % 4 ≠ 0 ∨ regAt addr.toNat = none) →
    exec (.registerWrite addr size v) s
      = .next ({ s with port := { s.port with waiting := false, code := 1, data := 0 } } : State).settle ∧
    (size.toNat = 2 → exec (.readClearCounter addr) s
      = .next ({ s with port := { s.port with waiting := false, code := 1, data := 0 } } : State).settle)) ∧
  (∀ (s : State) (addr : BitVec 24) (v : Word), s.Open → addr.toNat % 4 = 0 →
    (∀ n ∈ [RegName.fabTimeout, .pmCfg, .bgCfg, .fltPermCfg, .fltIrqEn, .entCfg, .entRct, .entApt, .entEst, .laneGroup, .easelCfg,
            .easelRecover, .gateLead, .timeCfg, .timeHoldover, .bistUnit, .bistFieldCfg, .ageCfg], ∀ i j : Nat,
      regAt addr.toNat = some ⟨n, i, j⟩ →
      exec (.registerWrite addr 2 v) s = .next (s.setReg n i j (merge (s.reg n i j) v n.row.rw)).ok.settle) ∧
    (∀ n ∈ [RegName.scrubCount, .timeLoadCount, .timeRejectCount, .timeMissCount, .timeStepCount, .klRefuseCount, .skFaultCount,
            .entWindowCount, .entDiscardCount, .entUnavailCount, .laneStrokeCount, .laneRetryCount, .digBlockCount,
            .easelCompCount], ∀ i j : Nat,
      regAt addr.toNat = some ⟨n, i, j⟩ →
      exec (.readClearCounter addr) s
        = .next ((if n.row.rc then s.setReg n i j 0 else s).respond 0 (s.reg n i j)).settle))

/-- R297, R298, R319, R400: CLEAR zeroes every counter of the unit and FREEZE takes its value; a write through a group window reaches the
counter control of every member, a read answers the lowest member's value and sets the group's bit of LANE_BCAST_DIFF where the members
differ, and a group without members reads 0. -/
def Obligations.CounterControlsAndLaneGroups : Prop :=
  (∀ (s : State) (freeze : Bool), s.Open →
    (∀ n < 9, ∃ u : State, exec (.laneCounterClear n freeze) s = .next u.ok.settle ∧
      u.reg .laneCntCtrl n = (if freeze then 1 else 0) ∧
      (∀ r ∈ [RegName.laneBusyCount, .laneStrokeCount, .laneRetryCount, .laneCoverCount, .laneAuthFailCount], u.reg r n = 0)) ∧
    (∀ e < 4, ∃ u : State, exec (.digestCounterClear e freeze) s = .next u.ok.settle ∧
      u.reg .digCntCtrl e = (if freeze then 1 else 0) ∧
      (∀ r ∈ [RegName.digBusyCount, .digBlockCount, .digRetryCount, .digCoverCount], u.reg r e = 0)) ∧
    (∀ e < 4, ∃ u : State, exec (.easelCounterClear e freeze) s = .next u.ok.settle ∧
      u.reg .easelCntCtrl e = (if freeze then 1 else 0) ∧
      (∀ r ∈ [RegName.easelBusyCount, .easelCompCount, .easelRetryCount, .easelRejectCount, .easelYieldCount], u.reg r e = 0))) ∧
  (∀ (s : State) (g : Fin 4) (v : Word), s.Open →
    exec (.laneGroupWrite (.group g) 4 v) s
      = .next (((List.range 9).filter (fun n => (s.reg .laneGroup 0 g).getLsbD n)).foldl
          (fun (t : State) n => t.cntCtrl .laneCntCtrl n v) s).ok.settle ∧
    exec (.laneGroupWrite .broadcast 4 v) s
      = .next ((List.range 9).foldl (fun (t : State) n => t.cntCtrl .laneCntCtrl n v) s).ok.settle ∧
    (∀ n : Nat, (List.range 9).filter (fun n => (s.reg .laneGroup 0 g).getLsbD n) = [n] →
      exec (.laneGroupRead (.group g) 8) s = .next (s.respond 0 (s.reg .laneStrokeCount n)).settle) ∧
    (∀ (n m : Nat), (List.range 9).filter (fun n => (s.reg .laneGroup 0 g).getLsbD n) = [n, m] →
      s.reg .laneStrokeCount n ≠ s.reg .laneStrokeCount m →
      exec (.laneGroupRead (.group g) 8) s
        = .next ((s.setReg .laneBcastDiff 0 0 (s.reg .laneBcastDiff ||| BitVec.ofNat 32 (2 ^ g.val))).respond 0
            (s.reg .laneStrokeCount n)).settle) ∧
    ((List.range 9).filter (fun n => (s.reg .laneGroup 0 g).getLsbD n) = [] →
      exec (.laneGroupRead (.group g) 8) s = .next (s.respond 0 0).settle))

-- functions ---------------------------------------------------------------------------------------------------------------------

/-- R112, R113, R116, R117, R131 to R134, R139: enable, disable, reset and epoch advance as M and the tenant ask for them; the last steps
of a function reset leave its requests, rings and registers as at reset and nothing of its keys cached, while other functions keep theirs. -/
def Obligations.FunctionLifecycleAndReset : Prop :=
  (∀ (s : State) (f : Nat), s.Open → f ≤ 15 →
    (s.fnDisabled f = true → (s.fn f).epochBusy = false → s.rangeTaken f = false →
      exec (.functionEnable f) s = .next (s.setFn f { s.fn f with enabled := true }).ok.settle) ∧
    ((s.fn f).enabled = true → (s.fn f).resetting = false →
      exec (.functionDisable f) s = .next (s.startReset f true).ok.settle) ∧
    (∀ byM : Bool, exec (.functionReset f byM) s = .next (s.startReset f false).ok.settle) ∧
    (s.fnDisabled f = true → (s.fn f).epochBusy = false → s.epoch f ≠ 0xFFFF →
      exec (.epochBump f) s
        = .next ((s.setFn f { s.fn f with epochBusy := true, epochFail := false }).tlyWrite (16 + f)
            (BitVec.ofNat 32 (s.epoch f + 1)) 2 [.epoch f]).ok.settle) ∧
    (s.fnDisabled f = true → (s.fn f).epochBusy = false → s.epoch f = 0xFFFF →
      exec (.epochBump f) s
        = .next ((s.setFn f { s.fn f with epochBusy := false, epochFail := true }).capture 0x96 (16 + f)).ok.settle)) ∧
  (∀ (s : State) (f : Nat), f ≤ 16 → s.live = true → (s.fn f).resetting = true → (s.fn f).resetWb = true → s.deadComp f = false →
    (∀ t ∈ s.fab.rd ++ s.fab.rdQ ++ s.fab.wr ++ s.fab.wrQ, t.tag ≠ f ∧ (∀ h, t.use = .wb h → s.inRange f h = false) ∧
      (∀ h l, t.use = .resv h l → s.inRange f h = false)) →
    ∃ u : State, exec (.functionResetDrained f) s = .next u.settle ∧
      (∀ r ∈ u.reqs, r.f ≠ f) ∧ (∀ r ∈ s.reqs, r.f ≠ f → r ∈ u.reqs) ∧
      (∀ n < 64, u.ring (ringG f n) = if f = 16 ∧ 1040 ≤ ringG f n then u.ring (ringG f n) else {}) ∧
      (∀ g, ringF g ≠ f → u.ring g = s.ring g) ∧
      (∀ k ∈ u.ctx.keys, k.lifted = true → k.a ≠ f) ∧
      (u.fn f).resetting = false ∧ (u.fn f).halted = false ∧ (u.fn f).pm = .run ∧
      (u.fn f).enabled = ((s.fn f).enabled && !(s.fn f).disableAfter) ∧
      (∀ g, g ≠ f → u.fn g = s.fn g) ∧
      (∀ (n : RegName) (j : Nat), n.row.win = true → j < 0x4000 → u.reg n f j = regDefault (regKey n f j)) ∧
      (∀ (n : RegName) (i j : Nat), n.row.win = false → i < 0x40 → j < 0x4000 → u.reg n i j = s.reg n i j))

/-- R107, R142, R181, R494: SLEEP begins the flush of a running function, RUN ends its sleep; a fence read of a function that does not run
answers 0, another one waits for what it must; DEEP takes the block out of service into its drain, whose end wipes what is secret and
powers everything down. -/
def Obligations.SleepFenceAndDeepSleep : Prop :=
  (∀ (s : State) (f : Nat), s.Open → f ≤ 16 →
    (s.Running f → (∀ e ∈ s.rings, ringF e.1 = f → e.2.counted = 0) →
      ((s.fn f).pm = .run →
        exec (.fnPmSleep f) s = .next (s.setFn f { s.fn f with pm := .flushing }).ok.settle) ∧
      ((s.fn f).pm ≠ .run →
        exec (.fnPmRun f) s = .next (s.setFn f { s.fn f with pm := .run }).ok.settle)) ∧
    (((s.fn f).resetting = true ∨ (s.fn f).enabled = false) → exec (.fnFence f) s = .next (s.respond 0 0).settle) ∧
    ((s.fn f).resetting = false → (s.fn f).enabled = true →
      exec (.fnFence f) s = .next ({ s with port := { s.port with
        waiting := false
        stall := some (.fence f
          ((s.reqs.filter (fun r => r.f == f && (r.stage == .completing || (r.stage == .committed && s.orderFree r)))).map (·.id))
          ((s.writesOf (fun u => match u with | .msg g _ => g == f | .haltMsg g => g == f | _ => false)).map (·.serial))) } } : State).settle)) ∧
  (∀ s : State,
    (s.Open → s.blk.st = .service → s.blk.pm = 0 → (∀ e ∈ s.rings, e.2.counted = 0) →
      exec .deepSleepRequest s = .next ({ s with blk := { s.blk with st := .deepSleep, pm := 1 } } : State).ok.settle) ∧
    (s.blk.pm = 1 → s.blk.phase ≠ 8 → s.drained = true → s.ctx.cache = [] → ∃ u : State, exec .deepSleepDrained s = .next u.settle ∧
      u.blk.pm = 2 ∧ u.blk.phase = 8 ∧ u.reqs = [] ∧ u.ctx.keys = [] ∧ u.ctx.hmac = [] ∧ u.ctx.key = none ∧
      u.ent.pal = [] ∧ u.ent.state = 0 ∧ u.pwr.clkReq = 0 ∧ (∀ i, (u.isl i).req = false ∧ (u.isl i).step = .down) ∧
      u.regs = s.regs ∧ u.tly = s.tly ∧ u.gal.val = s.gal.val ∧ u.tables = s.tables))

-- rings ---------------------------------------------------------------------------------------------------------------------------

/-- R145 to R148, R151, R152, R178: a doorbell that moves the tail forward sets it and wakes the core, one that does not changes nothing,
an illegal one halts the function with cause 2; RING_CFG with ENABLE takes the size and empties the ring; RING_IRQ and a vector's mask are
stored. -/
def Obligations.RingDoorbellsAndConfiguration : Prop :=
  (∀ (s : State) (f n : Nat) (v : Word) (new old : Nat), s.Open → ringOk f n = true → s.Running f → s.ringOn f n = true →
    s.armedChecker ≠ some 0x8B →
    new = (fld v 16 16 * s.ringSize f n + fld v 15 0 + 2 * s.ringSize f n - (s.ring (ringG f n)).head) % (2 * s.ringSize f n) →
    old = ((s.ring (ringG f n)).tail + 2 * s.ringSize f n - (s.ring (ringG f n)).head) % (2 * s.ringSize f n) →
    (fld v 15 0 < s.ringSize f n → new ≤ s.ringSize f n → old < new →
      exec (.doorbell f n v) s = .next (((s.setRing (ringG f n) { s.ring (ringG f n) with
        tail := fld v 16 16 * s.ringSize f n + fld v 15 0 }).setFn f { s.fn f with quiet := false }).islWake 12).ok.settle) ∧
    (fld v 15 0 < s.ringSize f n → new ≤ s.ringSize f n → old = new → exec (.doorbell f n v) s = .next s.ok.settle) ∧
    (s.ringSize f n ≤ fld v 15 0 ∨ s.ringSize f n < new ∨ new < old →
      exec (.doorbell f n v) s = .next (s.halt f 2 n (fld v 15 0) false 0).ok.settle)) ∧
  (∀ (s : State) (f n : Nat) (v : Word), s.Open → s.Running f → ringOk f n = true →
    (s.ringOn f n = false → 4 ≤ fld v 4 0 → fld v 4 0 ≤ 16 →
      exec (.ringEnable f n v) s
        = .next ((s.setReg .ringCfg f n (merge (s.reg .ringCfg f n) (0x80000000 ||| v) 0x8000011F)).setRing (ringG f n)
            { s.ring (ringG f n) with head := 0, tail := 0, fetch := 0, metered := 0, next := 0 }).ok.settle) ∧
    (fld v 4 0 < 4 ∨ 16 < fld v 4 0 → exec (.ringEnable f n v) s = .next s.refuse.settle) ∧
    exec (.ringIrqWrite f n v) s = .next (s.setReg .ringIrq f n (merge (s.reg .ringIrq f n) v 0xFFFFFF3F)).ok.settle ∧
    (∀ w < 64, exec (.vectorUnmask f w) s = .next (s.setReg .vecCtrl f w (merge (s.reg .vecCtrl f w) 0 1)).ok.settle))

/-- R187, R188, R198: a write by M to the meter configuration, the rate or the burst of a ring, a tenant's through its view or one of M's own, sets
the level by ON_CHANGE and BURST as they are after the write, whatever it was before; a reserved MODE, a zero BURST and a zero WEIGHT
receive ERROR, and so does a tenant's own write. -/
def Obligations.MeterWritesByMSetTheLevel : Prop :=
  ∀ (s : State) (f n : Nat) (v : Word), s.Open →
    (∀ viaView : Bool, (f ≤ 15 ∧ n < 64 ∧ viaView = true) ∨ (f = 16 ∧ n < 16 ∧ viaView = false ∧ s.Running 16) →
      (∀ r ∈ [MeterReg.cfg, .rate, .burst], (r = .cfg → fld v 1 0 ≠ 3) → (r = .burst → fld v 23 0 ≠ 0) → ∃ u : State,
        exec (.meterConfigWrite f n viaView r v) s = .next u.ok.settle ∧
        u.reg .meterCfg f n = (if r = .cfg then merge (s.reg .meterCfg f n) v 0x71B else s.reg .meterCfg f n) ∧
        u.reg .meterRate f n = (if r = .rate then merge (s.reg .meterRate f n) v 0xFFFFFF else s.reg .meterRate f n) ∧
        u.reg .meterBurst f n = (if r = .burst then merge (s.reg .meterBurst f n) v 0xFFFFFF else s.reg .meterBurst f n) ∧
        u.ring (ringG f n) = { s.ring (ringG f n) with
          level := if (u.reg .meterCfg f n).getLsbD 4 then ((fld (u.reg .meterBurst f n) 23 0 * 256 : Nat) : Int) else 0 } ∧
        u = { s with regs := u.regs, rings := u.rings }) ∧
      (fld v 1 0 = 3 → exec (.meterConfigWrite f n viaView .cfg v) s = .next s.refuse.settle) ∧
      (fld v 23 0 = 0 → exec (.meterConfigWrite f n viaView .burst v) s = .next s.refuse.settle) ∧
      (fld v 15 8 = 0 → exec (.meterConfigWrite f n viaView .sched v) s = .next s.refuse.settle)) ∧
    (∀ r : MeterReg, f ≤ 15 → n < 64 → s.fnDisabled f = false → (s.fn f).resetting = false →
      exec (.meterConfigWrite f n false r v) s = .next s.refuse.settle)

/-- R190: at a refill the level of a ring whose meter is on rises by RATE, up to BURST times 256; OFF leaves it. R179: the time of
a ring's counted completions makes its message due. -/
def Obligations.MeterRefillAndModerationTimeout : Prop :=
  ∀ (s : State) (f n : Nat), s.live = true → ringOk f n = true →
    (s.meteredRings = [(f, n)] →
      exec .meterRefill s = .next (s.setRing (ringG f n) { s.ring (ringG f n) with
        level := if fld (s.reg .meterCfg f n) 1 0 = 0 then (s.ring (ringG f n)).level
                 else min ((s.ring (ringG f n)).level + fld (s.reg .meterRate f n) 23 0) (fld (s.reg .meterBurst f n) 23 0 * 256 : Nat) }).settle) ∧
    ((s.ring (ringG f n)).counted ≠ 0 → s.modTime f n ≠ 0 → (s.fn f).pm = .run →
      exec (.moderationTimeout f n) s
        = .next ((s.setRing (ringG f n) { s.ring (ringG f n) with counted := 0, timer := none }).due f
            (fld (s.reg .ringIrq f n) 5 0)).settle)

-- contexts, keys, gallery ----------------------------------------------------------------------------------------------------------

/-- R226, R227, R261, R320, R324: the context table is enabled, disabled and aged; an invalidation drops the lifted keys and HMAC states
that it names and no other; an extension of a gallery register is put before the digest engines, and when it ends the register is the
SHA-512 of its old value and X, with its count raised. -/
def Obligations.ContextTableKeyAndGalleryCommands : Prop :=
  (∀ (s : State) (v : Word), s.Open →
    (s.ctx.disabling = false → s.ctx.genBusy = false →
      exec .ctxTableEnable s = .next ({ s with ctx := { s.ctx with enable := true } } : State).ok.settle ∧
      (s.ctx.enable = false → s.gen ≠ 0xFFFF →
        exec .genBump s = .next (({ s with ctx := { s.ctx with genBusy := true, genFail := false } } : State).tlyWrite 33
          (BitVec.ofNat 32 (s.gen + 1)) 2 [.gen]).ok.settle) ∧
      (s.ctx.enable = true → exec .genBump s = .next s.refuse.settle)) ∧
    (s.ctx.enable = true → (∀ r ∈ s.reqs, r.stage ≠ .checking) →
      exec .ctxTableDisable s = .next ({ s with ctx := { s.ctx with enable := false, disabling := true } } : State).ok.settle) ∧
    (fld v 28 24 ≤ 16 → s.ctx.inval = none →
      exec (.keyInvalidate v) s
        = .next ({ (s.setReg .klCtrl 0 0 (merge (s.reg .klCtrl) (0x80000000 ||| v) 0x5F000FFF)) with
            ctx := { s.ctx with inval := some (fld v 28 24, if v.getLsbD 30 then none else some (fld v 11 0)) } } : State).ok.settle) ∧
    (s.ctx.inval ≠ none → exec (.keyInvalidate v) s = .next s.refuse.settle) ∧
    (∀ (tag : Nat) (slot : Option Nat), s.ctx.inval = some (tag, slot) →
      s.invalidate.ctx.keys = s.ctx.keys.filter (fun k => !(k.lifted && k.a == tag && (slot == none || slot == some k.b))) ∧
      s.invalidate.ctx.hmac = s.ctx.hmac.filter (fun k => !(k.lifted && k.a == tag && (slot == none || slot == some k.b))) ∧
      s.invalidate.ctx.inval = none ∧ s.invalidate.ctx.cache = s.ctx.cache) ∧
    (16 < fld v 28 24 → exec (.keyInvalidate v) s = .next s.refuse.settle)) ∧
  (∀ (s : State) (v : Word) (i : Nat) (x : Bytes),
    (s.Open → s.gal.ext = [] → v.getLsbD 28 = false → 4 ≤ fld v 20 16 → fld v 20 16 ≤ 30 →
      exec (.galleryExtend v) s = .next (({ (s.setReg .galExtCtrl 0 0 (merge (s.reg .galExtCtrl) (0x80000000 ||| v) 0x101FFFFF)) with
        gal := { s.gal with ext := [(fld v 20 16, (List.range 16).flatMap (fun j => natLE 4 (s.reg .galExtData 0 j).toNat))] } }
          : State).islWake 9).ok.settle) ∧
    (s.Open → s.gal.ext ≠ [] → exec (.galleryExtend v) s = .next s.refuse.settle) ∧
    (s.gal.ext = [(i, x)] → s.live = true → s.islandUp 9 = true → s.clkOk 5 = true → (∃ e < 4, s.digIn e = true ∧ s.digIdle e = true) →
      ∃ u : State, exec .galleryExtendComplete s = .next u.settle ∧
        u.galVal i = sha512 (s.galVal i ++ x) ∧ u.galCount i = min (s.galCount i + 1) 0xFFFF ∧
        (∀ j, j ≠ i → u.galVal j = s.galVal j ∧ u.galCount j = s.galCount j) ∧ u.gal.ext = []))

-- the collector's and the self-test registers ---------------------------------------------------------------------------------------

/-- R510, R514, R536, R547, R553: writes to FLT_PEND clear what is written 1, REARM empties the latch, an injection is armed only where
that is allowed; GO starts a legal test on the unit named, and receives ERROR while one runs; VRETRY clears VREFUSED; MEASURE_ALL is
answered OK, its measurements come by themselves. -/
def Obligations.CollectorSelfTestAndAgeingCommands : Prop :=
  (∀ (s : State) (v : Word), s.Open →
    exec (.faultPendingClear v) s
      = .next ({ s with flt := { s.flt with pend := s.flt.pend &&& ~~~v } } : State).ok.settle ∧
    exec .rearm s = .next ({ s with flt := { s.flt with first := none, overflow := false } } : State).ok.settle ∧
    ((s.reg .fltCtrl).getLsbD 30 = true → s.flt.armed = false → fld v 7 0 = 0x10 →
      exec (.faultInjectArm v) s
        = .next ({ (s.setReg .fltInj 0 0 (v &&& 0x1FF)) with flt := { s.flt with armed := true, injDone := false } } : State).ok.settle) ∧
    ((s.reg .fltCtrl).getLsbD 30 = false ∨ s.flt.armed = true ∨ injectable (fld v 7 0) = false →
      exec (.faultInjectArm v) s = .next s.refuse.settle)) ∧
  (∀ (s : State) (kind : BitVec 2), s.Open →
    (s.bist.busy = false → kind ≠ 3 → 9 ≤ fld (s.reg .bistUnit) 4 0 → fld (s.reg .bistUnit) 4 0 ≤ 12 →
      s.retired (fld (s.reg .bistUnit) 4 0) = false → ∃ u : State,
      exec (.bistCommand kind) s = .next u.ok.settle ∧
      u.bist = { s.bist with busy := true, done := false, pass := false, abandoned := false, kind := kind.toNat
                             unit := fld (s.reg .bistUnit) 4 0 } ∧
      (u.dig (fld (s.reg .bistUnit) 4 0 - 9)).test = true ∧ u.reqs = s.reqs) ∧
    (s.bist.busy = true → exec (.bistCommand kind) s = .next s.refuse.settle) ∧
    (s.pwr.vref = true →
      exec .vretry s = .next (({ s with pwr := { s.pwr with vref := false } } : State).vplanWrite).ok.settle) ∧
    exec .measureAll s = .next s.ok.settle)

/-- R521, R522, R551: M's write of a provisioning register is queued as one of class 3; one to a register at its endurance limit is
turned away with ERROR and TLY_REFUSE; a write to another register of the store, which is
read-only, is answered OK and changes no register. -/
def Obligations.TallyRegisterWriteQueuedOrTurnedAway : Prop :=
  ∀ (s : State) (i : Nat) (v : Word), s.Open → i < 1024 →
    (512 ≤ i → s.mBusy = false → s.tlyWearOf i < 1000000 →
      exec (.tallyRegisterWrite i v) s = .next (s.tlyWrite i v 3 [.m]).ok.settle) ∧
    (512 ≤ i → s.mBusy = false → 1000000 ≤ s.tlyWearOf i →
      exec (.tallyRegisterWrite i v) s
        = .next (({ s with tly := { s.tly with refused := some i } } : State).capture 0x92 i).refuse.settle) ∧
    (512 ≤ i → s.mBusy = true → exec (.tallyRegisterWrite i v) s = .next s.refuse.settle) ∧
    (i < 512 → exec (.tallyRegisterWrite i v) s = .next s.ok.settle)

-- resets and the start sequence ---------------------------------------------------------------------------------------------------

/-- R79, R88, R110, R480, R521: what a low `por_n` and a low `blk_rst_n` leave intact, with no tally write in progress. -/
def Obligations.ResetsKeepOnlyTheDurableState : Prop :=
  ∀ s : State, s.tly.cur = none →
    (∃ u : State, exec .porAssert s = .next u ∧ u.tly.cells = s.tly.cells ∧ u.pending = s.pending ∧ u.regs = [] ∧ u.fns = [] ∧
      u.rings = [] ∧ u.reqs = [] ∧ u.ctx = {} ∧ u.ent = {} ∧ u.time = {} ∧ u.flt = {} ∧ u.gal = {} ∧ u.tables = {} ∧
      u.port = {} ∧ u.fab = {} ∧ u.kl = {} ∧ u.ticks = 0 ∧ u.blk.porLow = true ∧ u.blk.st = .reset ∧ u.pwr.clkReq = 0) ∧
    exec .porRelease s = .next { s with blk := { s.blk with porLow := false } } ∧
    (∃ u : State, exec .blkRstAssert s = .next u ∧ u.tly.cells = s.tly.cells ∧ u.flt = s.flt ∧ u.time.count = s.time.count ∧
      u.time.rate = s.time.rate ∧ u.time.ever = s.time.ever ∧ u.ticks = s.ticks ∧
      (∀ k, tget regDefault u.regs k = if keptReg k then tget regDefault s.regs k else regDefault k) ∧
      u.fns = [] ∧ u.rings = [] ∧ u.reqs = [] ∧ u.ctx = {} ∧ u.gal = {} ∧ u.tables = {} ∧ u.port = {} ∧ u.fab = {} ∧
      u.time.sync = false ∧ u.time.fine = false ∧ u.blk.st = .reset ∧ u.pwr.clkReq = 0)

/-- R80, R83, R84, R85, R537: the release of `blk_rst_n` begins INIT, which asks for its clocks and the core island; once `tally_clk` runs and
the core island is up, a clean tally store that records no voltage leads to the LOAD of image A with both keys asked for. With `tst_mode`
high scan is enabled instead. A change of `tst_mode` out of reset is a fault. -/
def Obligations.ColdStartLoadsImageA : Prop :=
  ∀ s : State, s.blk.porLow = false →
    (s.blk.rstLow = true → s.blk.frozen = false → s.blk.scan = false → s.isl 12 = {} → ∃ u : State,
      exec (.coldStart false) s = .next u.settle ∧ u.blk.rstLow = false ∧ u.blk.st = .starting ∧ u.blk.phase = 1 ∧
      u.blk.tlyRead = s.blk.tlyRead ∧ (u.isl 12).req = true ∧ u.primer = s.primer ∧ u.kl = s.kl ∧
      (s.blk.snow = 0 → ∀ d ∈ [1, 2, 3, 8, 9, 12], u.wants d = true)) ∧
    (s.blk.st = .starting → s.blk.phase = 1 → s.blk.tlyRead = false → s.blk.frozen = false → s.blk.rstLow = false →
      s.pwr.clkReq.getLsbD 12 = true → s.islandUp 12 = true → s.tly.cells = [] → s.pwr.v = 0 → s.kl = {} → ∃ u : State,
      exec (.clockAck .tally true) s = .next u.settle ∧ u.blk.st = .starting ∧ u.blk.phase = 2 ∧ u.blk.tlyRead = true ∧
      u.primer = { img := 1, due := 128, addr := 0 } ∧ u.flt.retired = 0 ∧ u.tly.cells = [] ∧
      u.kl.wait.map (fun k => (k.slot, k.tag, k.use)) = [(0xFFF, 31, 5), (0, 16, 4)]) ∧
    (s.blk.rstLow = true → ∃ u : State, exec (.coldStart true) s = .next u.settle ∧ u.blk.scan = true ∧ u.blk.rstLow = false ∧
      u.ctx.keys = [] ∧ u.ctx.key = none ∧ u.reqs = [] ∧ u.ent.pal = []) ∧
    (∀ v : Bool, s.blk.tst ≠ v →
      (s.blk.rstLow = true → exec (.tstModeChange v) s = .next ({ s with blk := { s.blk with tst := v } } : State).settle) ∧
      (s.blk.rstLow = false →
        exec (.tstModeChange v) s = .next (({ s with blk := { s.blk with tst := v } } : State).capture 0x03).settle))

/-- R64, R89, R94 to R97, R544: the primer's bytes are appended in order; an error or a cause of failure leads to image B, and after it to
IMAGE_BOTH; a verified image is released: it is in use, its measurements are in GAL[0] to GAL[3], and its tables are in place; a test
of the start that gives the expected signature is done. -/
def Obligations.PrimerImageIsLoadedVerifiedAndReleased : Prop :=
  ∀ s : State,
    (∀ lo hi : Byte, s.primerOpen = true → 2 ≤ s.primer.due → s.primer.rev.length + 2 < 128 →
      exec (.primerData lo hi) s
        = .next ({ s with primer := { s.primer with rev := hi :: lo :: s.primer.rev, due := s.primer.due - 2 } } : State).settle) ∧
    (s.primerOpen = true → s.primer.img = 1 → ∃ u : State, exec .nvmError s = .next u.settle ∧
      u.blk.causeA = 1 ∧ u.primer = { img := 2, due := 128, addr := 0x100000 } ∧ u.blk.phase = 2) ∧
    (s.primerOpen = true → s.primer.img = 2 →
      exec .nvmError s = .next (({ s with blk := { s.blk with causeB := 1 }, primer := {} } : State).capture 0xB1).settle) ∧
    (∀ b : Bytes, s.live = true → s.blk.st = .starting → s.blk.phase = 3 → s.primer.rev.reverse = b → s.primer.img = 1 →
      fieldLE b 0x10 4 ≤ (s.tlyVal 0).toNat → s.verifyOn = true → imageAgrees (s.primer.rootKey.getD []) b = true →
      exec (.imageVerified true) s = .next (match verifyCause (s.primer.rootKey.getD []) b (s.tlyVal 0).toNat with
        | some c => s.imageFail c
        | none => s.release b).settle ∧
      ∃ u : State, u = s.release b ∧ u.blk.image = 1 ∧ u.blk.version = fieldLE b 0x0C 4 ∧ u.blk.phase = 5 ∧
      u.galVal 0 = sha512 (s.galVal 0 ++ sha512 b) ∧ u.galVal 1 = sha512 (s.galVal 1 ++ sha512 (imgSection b 2)) ∧
      u.galVal 2 = sha512 (s.galVal 2 ++ sha512 (imgSection b 1)) ∧ u.galVal 3 = sha512 (s.galVal 3 ++ sha512 (imgSection b 3)) ∧
      u.tables.stencils = imgSection b 1 ∧ u.tables.library = imgSection b 2 ∧ u.tables.sigs = imgSection b 5 ∧
      u.ctx.key = s.primer.ctxKey ∧ u.primer = {} ∧ u.ent.state = 1) ∧
    (∀ (unit : Nat) (kind : TestKind) (sig : BitVec 128), s.live = true → s.blk.st = .starting → s.clkOk 11 = true →
      (unit < 17 → s.islandUp (unitIsland unit) = true) → (unit, testCode kind) ∈ s.blk.toTest → sig.toNat = sigOf s.tables.sigs (testTarget unit) (testCode kind) →
      exec (.selfTestDone unit kind sig) s
        = .next (({ s with blk := { s.blk with toTest := s.blk.toTest.filter (· != (unit, testCode kind)) }
                           bist := { s.bist with sig := sig } } : State).startAdvance).settle)

-- clocks, power, voltage ------------------------------------------------------------------------------------------------------------

/-- R41, R46, R69, R70, R500: a waiting request asks for the register clock; an acknowledge of a clock is taken, and INIT goes
on with it; its fall while the clock is requested is CLK_ACK. -/
def Obligations.ClockHandshakes : Prop :=
  ∀ (s : State) (d : ClkDomain) (v : Bool) (t : State),
    (s.awake = true → s.blk.porLow = false → s.port.stall = none →
      exec .registerPortWake s = .next ({ s with port := { s.port with waiting := true } } : State).settle) ∧
    (t = { s with pwr := { s.pwr with clkAck := if v then s.pwr.clkAck ||| BitVec.ofNat 13 (2 ^ clkIdx d)
                                                else s.pwr.clkAck &&& ~~~(BitVec.ofNat 13 (2 ^ clkIdx d)) } } →
      (v = true ∨ s.pwr.clkReq.getLsbD (clkIdx d) = false → exec (.clockAck d v) s = .next t.initAdvance.settle) ∧
      (v = false → s.pwr.clkReq.getLsbD (clkIdx d) = true →
        exec (.clockAck d v) s = .next (t.capture 0x04).initAdvance.settle ∧ exec (.clockAckLoss d) s = .next (t.capture 0x04).settle) ∧
      (v = false → s.pwr.clkReq.getLsbD (clkIdx d) = false → exec (.clockAckLoss d) s = .next t.settle))

/-- R28, R69, R71, R103 to R105, R500: the up sequence raises power, ends retention, releases isolation and checks what was kept; the down
sequence isolates, retains where that was enabled when the island became idle, and then drops power; a lost acknowledge is PWR_ACK, and a
retention acknowledge that does not come is RET_ACK, the island being taken as off. -/
def Obligations.IslandPowerSequences : Prop :=
  ∀ (s : State) (k : Island) (x : Isl), s.isl (islIdx k) = x → islIdx k ≠ 12 → islIdx k ≠ 11 → ¬ islIdx k < 9 →
    (s.blk.st = .starting → s.blk.phase ≠ 1) →
    (s.live = true → x.step = .down → x.ack = false →
      exec (.islandWake k) s = .next (s.setIsl (islIdx k) { x with step := .upPower, req := true, wake := false }).settle) ∧
    (x.step = .upPower → x.retReq = false → x.retAck = false →
      exec (.powerAck k true) s = .next (s.setIsl (islIdx k) { x with ack := true, step := .up, wake := false, idle := none }).settle) ∧
    (x.step = .upPower → x.retReq = true →
      exec (.powerAck k true) s = .next (s.setIsl (islIdx k) { x with ack := true, retReq := false, step := .upRet }).settle) ∧
    (x.step = .upRet →
      exec (.retentionAck k false) s
        = .next ((s.setIsl (islIdx k) { x with retAck := false, step := .up, wake := false, idle := none }).checkKept (islIdx k)).settle) ∧
    (s.live = true → s.blk.st = .service → x.step = .up → x.retAck = false → s.islandIdle (islIdx k) = true →
      exec (.islandIdleTimeout k) s
        = .next (s.setIsl (islIdx k) (if x.idle.getD (s.retains (islIdx k)) then { x with step := .downRet, retReq := true, kept := true, idle := none }
                                      else { x with step := .downPower, req := false, kept := false, idle := none })).settle) ∧
    (x.step = .downRet → x.retReq = true → s.islandUp (islIdx k) = false →
      exec (.retentionAck k true) s = .next (s.setIsl (islIdx k) { x with retAck := true, req := false, step := .downPower }).settle) ∧
    (x.step = .downPower → x.req = false → x.wake = false →
      exec (.powerAck k false) s = .next (s.setIsl (islIdx k) { x with ack := false, step := .down }).settle) ∧
    (x.req = true →
      exec (.powerAckLoss k) s = .next ((s.setIsl (islIdx k) { x with ack := false }).capture 0x05).settle) ∧
    (x.step = .downRet →
      exec (.retAck k) s
        = .next ((s.capture 0x06).recover (fun t =>
            t.setIsl (islIdx k) { x with req := false, retReq := false, kept := false, step := .downPower })).settle)

/-- R73, R535, R536, R537: an echo of the step that a unit asked for puts the voltage in force and records it; a step that is not echoed
in time refuses further steps, is recorded and reported, and the unit that asked is marked for retirement. -/
def Obligations.VoltageStepTakenOrRefused : Prop :=
  ∀ (s : State) (v : BitVec 2) (u : Nat),
    (v.toNat ≠ s.pwr.vreq ∨ s.pwr.vwait = none →
      exec (.vstepEcho v) s = .next ({ s with pwr := { s.pwr with vack := v.toNat } } : State).settle) ∧
    (v.toNat = s.pwr.vreq → s.pwr.vwait = some (some u) → s.pwr.v < s.pwr.vreq →
      exec (.vstepEcho v) s = .next ((({ s with pwr := { s.pwr with vack := v.toNat, v := s.pwr.vreq, vwait := none } } : State).vplanWrite).capture 0x93 u).settle) ∧
    (s.pwr.vwait = some (some u) →
      exec .vstep s = .next ((s.capture 0x07).recover (fun t =>
        (({ t with pwr := { t.pwr with vwait := none, vref := true } } : State).vplanWrite).marginRetire u)).settle)

-- fabric and key lift -----------------------------------------------------------------------------------------------------------------

/-- R51, R54 to R57: a read return whose beats are in order and good goes to the request that asked for it; one with an error is
reported and reissued once on the other port; a write's good response completes the request whose completion it was; a transaction
that times out, or a response to none, faults the port. -/
def Obligations.FabricResponsesAreDelivered : Prop :=
  ∀ (s : State) (p : Fin 2) (n : Nat) (t : Txn), s.live = true → s.portInput p = true →
    (∀ (bs : List ReadBeat) (id : Nat) (r : Req) (b : Bytes),
      s.fab.rd.find? (fun t => t.port == p && t.num == n) = some t → beatsInOrder t.beats bs = true →
      s.armedChecker ≠ some (0x10 + p.val) →
      (readBurst t.addr bs = { bytes := some b, corr := 0 } → t.use = .req id → s.req id = some r → r.inFlight = true →
        exec (.fabricReadComplete p n bs) s = .next ((s.dropRead p n).setReq (r.takeLines t.addr b)).settle) ∧
      (readBurst t.addr bs = { bytes := none, corr := 0 } → t.again = false →
        ((s.dropRead p n).capture (0x12 + t.port.val) 0 t.tag).blk.frozen = false →
        exec (.fabricReadComplete p n bs) s
          = .next ((fun (u : State) => ({ u with fab := { u.fab with rdQ := { t with again := true, fixed := some (otherPort t.port) } :: u.fab.rdQ } } : State))
              ((s.dropRead p n).capture (0x12 + t.port.val) 0 t.tag)).settle)) ∧
    (s.fab.wr.find? (fun t => t.port == p && t.num == n) = some t →
      (∀ id, t.use = .compl id → exec (.fabricWriteAck p n 0) s = .next ((s.dropWrite p n).completionAck id).settle) ∧
      (∀ id, t.use = .data id → exec (.fabricWriteAck p n 0) s = .next (s.dropWrite p n).settle)) ∧
    (s.fab.wr.find? (fun t => t.port == p && t.num == n) = none → exec (.fabricWriteAck p n 0) s = .next (s.portFault p).settle) ∧
    (s.fab.wr.find? (fun t => t.port == p && t.num == n) = some t → exec (.fabricTimeout p true n) s = .next (s.portFault p).settle) ∧
    (s.fab.rd.find? (fun t => t.port == p && t.num == n) = some t → exec (.fabricTimeout p false n) s = .next (s.portFault p).settle)

/-- R59 to R63, R230, R257, R258: a good answer of four beats brings a wanted key into the key cache; a refusal refuses the requests that
wait; an answer to a request that has timed out is discarded; 10 µs without an answer are counted, reported and taken as a refusal. -/
def Obligations.KeyLiftAnswers : Prop :=
  ∀ (s : State) (k : KlReq) (rest : List KlReq), s.live = true → s.clkOk 8 = true → s.kl.out = k :: rest → k.use < 4 →
    (∀ (a b c d : KlBeat) (n : Nat), k.timedOut = false → s.armedChecker ≠ some 0x79 →
      a.status = 0 → b.status = 0 → c.status = 0 → d.status = 0 → a.last = false → b.last = false → c.last = false → d.last = true →
      readWord (2 * k.slot) (b.data ++ a.data) b.code = .good (b.data ++ a.data) →
      readWord (2 * k.slot + 1) (d.data ++ c.data) d.code = .good (d.data ++ c.data) → attrBytes a.attr.toNat = some n →
      s.klWanted k = true → (∀ r, s.klAsker k = some r → keyFits r k.use n = true) →
      exec (.keyLiftResponse [a, b, c, d]) s
        = .next (({ s with kl := { s.kl with out := rest } } : State).addKey
            { lifted := true, a := k.tag, b := k.slot, use := k.use, attr := a.attr.toNat
              key := (natLE 16 (b.data ++ a.data).toNat ++ natLE 16 (d.data ++ c.data).toNat).take n }).settle) ∧
    (∀ b : KlBeat, k.timedOut = false → b.status = 1 → b.last = true →
      exec (.keyLiftResponse [b]) s = .next (({ s with kl := { s.kl with out := rest } } : State).keyRefused k).settle) ∧
    (∀ bs, k.timedOut = true → exec (.keyLiftResponse bs) s = .next ({ s with kl := { s.kl with out := rest } } : State).settle) ∧
    (∀ q : KlReq, s.klOldest = some q → q.use < 4 →
      exec .klTimeout s
        = .next (((({ s with kl := { s.kl with out := s.kl.out.map (fun x => if x = q then { x with timedOut := true } else x)
                                               wait := s.kl.wait.filter (· != q) } } : State).bumpSat .klTimeoutCount).capture 0x76 0 q.tag).recover
            (fun t => t.keyRefused q)).settle)

-- time -----------------------------------------------------------------------------------------------------------------------------

/-- R67, R68, R481, R482, R484, R496: an accepted load gives the offset d from the latched count: small offsets are slewed, a larger
positive one steps the count, a larger negative one slows it; the first load after a wake of the core island takes the rest of the
correction at once, without a change of SYNC; the offset and the count of loads are recorded. A load that R68 names is counted and
reported. The rate estimate is a free value (log entry 5). -/
def Obligations.TimeLoadsCorrectTheCount : Prop :=
  ∀ (s base : State) (sec : BitVec 48) (ns : BitVec 32) (c mx : Nat) (d : Int) (t : TimeU),
    s.clkOk 10 = true → s.islandUp 12 = true →
    (s.time.edge = some c → s.time.edgeAge ≤ 500 → ns.toNat < 1000000000 → ns.toNat % 1000000 = 0 →
      d = (BitVec.ofNat 64 (sec.toNat * 1000000000 + ns.toNat) - BitVec.ofNat 64 c).toInt →
      mx = fld (s.reg .timeCfg) 27 16 →
      base = (s.setReg .timeOffset 0 0 (sat32 d)).bump .timeLoadCount →
      t = { s.time with rate := Config.rateEstimate s.time.rate d, ever := true, age := 0, due := false, wake := none } →
      (s.time.wake = none →
        (d.natAbs ≤ mx →
          exec (.timeLoad sec ns) s = .next (({ base with time := { t with
            near := decide (d.natAbs ≤ fld (s.reg .timeCfg) 7 0), slew := d, slewPos := 0, slow := 0 } } : State).updateSync).settle) ∧
        ((mx : Int) < d →
          exec (.timeLoad sec ns) s = .next (({ base.bumpSat .timeStepCount with time := { t with
            near := decide (d.natAbs ≤ fld (s.reg .timeCfg) 7 0), count := s.time.count + d.toNat
            slew := 0, slewPos := 1000000, slow := 0 } } : State).updateSync).settle) ∧
        (d < -(mx : Int) →
          exec (.timeLoad sec ns) s = .next (({ base.bumpSat .timeStepCount with time := { t with
            near := decide (d.natAbs ≤ fld (s.reg .timeCfg) 7 0), slew := 0, slewPos := 1000000, slow := d.natAbs } } : State).updateSync).settle)) ∧
      (∀ x : Int, s.time.wake = some x →
        (x ≤ d → exec (.timeLoad sec ns) s
          = .next (({ base with time := { t with count := s.time.count + (d - x).toNat } } : State).updateSync).settle) ∧
        (d < x → exec (.timeLoad sec ns) s
          = .next (({ base with time := { t with hold := s.time.hold + (d - x).natAbs } } : State).updateSync).settle))) ∧
    (s.time.edge = none ∨ 500 < s.time.edgeAge ∨ 1000000000 ≤ ns.toNat ∨ ns.toNat % 1000000 ≠ 0 →
      exec (.timeLoad sec ns) s = .next ((s.bumpSat .timeRejectCount).capture 0xA0).settle)

/-- R480 to R484, R496: an edge of `time_align` latches the count of its instant; the first one after a wake corrects it at once to the
nearest millisecond, and while the core island is down it snaps there within 100,000 ns. An edge without a load is counted and reported.
SYNC holds exactly under its conditions, and its fall is reported. A slowing ends only once it has given back its offset. The count never
decreases; a read of TIME_NOW_LO latches the high half. -/
def Obligations.TimeEdgesSyncAndReads : Prop :=
  ∀ (s missed : State) (past c m b n : Nat) (u : TimeU), s.blk.porLow = false → u = s.time.upTo (past % 1000) →
    c = u.count → m = (c + 500000) / 1000000 * 1000000 → b = s.time.count → n = (b + 500000) / 1000000 * 1000000 →
    missed = (({ s with time := { s.time with due := false } } : State).bumpSat .timeMissCount).capture 0xA1 →
    (s.time.due = false → s.islandUp 12 = true → s.time.fine = true →
      exec (.timeAlign past) s = .next ({ s with time := { u with edge := some c, edgeAge := 0, due := true, wake := none } } : State).settle) ∧
    (s.time.due = false → s.islandUp 12 = true → s.time.fine = false →
      (c ≤ m → exec (.timeAlign past) s = .next ({ s with time := { u with
          count := c + (m - c), fine := true, edge := some c, edgeAge := 0, due := true, wake := some ((m : Int) - c) } } : State).settle) ∧
      (m < c → exec (.timeAlign past) s = .next ({ s with time := { u with
          hold := u.hold + (c - m), fine := true, edge := some c, edgeAge := 0, due := true, wake := some ((m : Int) - c) } } : State).settle)) ∧
    (s.time.due = false → s.islandUp 12 = false →
      (b ≤ n → n - b < 100000 → exec (.timeAlign past) s = .next ({ s.setReg .timeOffset 0 0 (sat32 ((n : Int) - b)) with
          time := { s.time with count := b + (n - b), age := 0, edge := some n, edgeAge := 0, wake := none } } : State).settle) ∧
      (n < b → b - n < 100000 → exec (.timeAlign past) s = .next ({ s.setReg .timeOffset 0 0 (sat32 ((n : Int) - b)) with
          time := { s.time with hold := s.time.hold + (b - n), age := 0, edge := some n, edgeAge := 0, wake := none } } : State).settle) ∧
      (100000 ≤ n - b ∨ 100000 ≤ b - n →
        exec (.timeAlign past) s = .next ({ s with time := { s.time with edge := some b, edgeAge := 0, wake := none } } : State).settle)) ∧
    (s.time.due = true → exec .timeMiss s = .next missed.settle ∧ exec (.timeAlign past) s = exec (.timeAlign past) missed) ∧
    (s.time.due = false → exec .timeMiss s = .next s.settle) ∧
    ((s.updateSync.time.sync = true ↔ s.time.near = true ∧ s.time.slow = 0 ∧ s.time.age ≤ s.holdover) ∧
      (s.time.sync = true → exec .timeSync s
        = .next ((({ s with time := { s.time with age := max s.time.age (s.holdover + 1), sync := false } } : State).capture 0xA2)).settle) ∧
      (0 < s.time.slow → s.time.slow ≤ 500 → exec .slowingEnd s
        = .next (({ s with time := { s.time with slow := 0, hold := s.time.hold + s.time.slow } } : State).updateSync).settle) ∧
      (500 < s.time.slow → exec .slowingEnd s = .next s.settle)) ∧
    (b ≤ s.time.advance.count ∧ b ≤ c ∧
      (s.time.rate = 0 → s.time.frac = 0 → s.time.slow = 0 → s.time.hold = 0 → s.time.slewPos = 1000000 →
        s.time.advance.count = b + (1000 - s.time.sub))) ∧
    (s.Open → exec .timeNowRead s
      = .next ((s.setReg .timeNowHi 0 0 (BitVec.ofNat 32 (s.now / 2 ^ 32))).respond 0 (BitVec.ofNat 32 (s.now % 2 ^ 32))).settle)

-- entropy --------------------------------------------------------------------------------------------------------------------------------

/-- R450, R453, R454: output bit j of a window is the XOR of the 16 samples 8j to 8j + 7 of both sources and lies in byte j div 8, bit
j mod 8; a source that starts its run in the window passes when it has no run of CUTOFF equal samples and in no test window does the
value of the first sample occur CUTOFF times. -/
def Obligations.EntropyWindowBitsAndTests : Prop :=
  (∀ (a b : BitVec 8192) (j : Nat), j < 1024 → (windowBytes a b).length = 128 ∧
    ((windowBytes a b).getD (j / 8) 0).getLsbD (j % 8)
      = (List.range 8).foldl (fun x i => x ^^ (a.getLsbD (8 * j + i) ^^ b.getLsbD (8 * j + i))) false) ∧
  (∀ (s : State) (x : Src) (v : BitVec 8192), x.last = none →
    ((s.windowTests x v).1 = true ↔
      (¬ ∃ i, i + max 32 (fld (s.reg .entRct) 9 0) ≤ 8192 ∧
          ∀ j < max 32 (fld (s.reg .entRct) 9 0), v.getLsbD (i + j) = v.getLsbD i) ∧
      ∀ w < 8, ((List.range 1024).filter (fun i => v.getLsbD (1024 * w + i) == v.getLsbD (1024 * w))).length
                 < max 513 (min 1025 (fld (s.reg .entApt) 10 0))))

/-- R451, R456, R462, R463, R468, R469, R474: the window of a lane that produces is appended to the palette when both sources pass, is
dropped when 60 windows are released or in raw mode, and held back while the start waits for a source; a window that fails is counted, and
its source fails at the sample that failed its test. -/
def Obligations.EntropyWindowsReleasedOrDiscarded : Prop :=
  ∀ (s t u : State) (k a b na nb : Nat) (jit met : BitVec 8192) (pj pm : BitVec 16), s.live = true → s.laneProduces k = true →
    s.islandUp 11 = true → s.clkOk 7 = true → s.laneSources k = some (a, b) →
    t = (s.setSource a (s.windowTests (s.source a) jit).2).setSource b (s.windowTests (s.source b) met).2 →
    u = (t.bumpSat .entDiscardCount).entWordEnd 2 →
    na = t.sampleNo a pj.toNat - (8191 - s.failedAt (s.source a) jit) →
    nb = t.sampleNo b pm.toNat - (8191 - s.failedAt (s.source b) met) →
    ((s.windowTests (s.source a) jit).1 = true → (s.windowTests (s.source b) met).1 = true →
      (s.ent.raw = true → exec (.entropyWindowEnd k ⟨jit, pj⟩ ⟨met, pm⟩) s = .next t.settle) ∧
      (s.ent.raw = false → s.ent.starting = true → t.startPassed = false →
        exec (.entropyWindowEnd k ⟨jit, pj⟩ ⟨met, pm⟩) s
          = .next ({ t with ent := { t.ent with held := t.ent.held ++ [windowBytes jit met] } } : State).settle) ∧
      (s.ent.raw = false → s.ent.starting = false → s.ent.held = [] → s.ent.state ≠ 1 → s.ent.state ≠ 4 →
        (s.ent.pal.length < 60 →
          exec (.entropyWindowEnd k ⟨jit, pj⟩ ⟨met, pm⟩) s
            = .next (({ t with ent := { t.ent with pal := s.ent.pal ++ [windowBytes jit met] } } : State).bump .entWindowCount).settle) ∧
        (s.ent.pal.length = 60 → ∃ u : State, exec (.entropyWindowEnd k ⟨jit, pj⟩ ⟨met, pm⟩) s = .next u.settle ∧
          u.ent = t.ent ∧ u.reg .entWindowCount = s.reg .entWindowCount))) ∧
    ((s.windowTests (s.source a) jit).1 = false → (s.windowTests (s.source b) met).1 = true →
      exec (.entropyWindowEnd k ⟨jit, pj⟩ ⟨met, pm⟩) s = .next ((u.capture (0x60 + a)).recover (fun s => s.sourceFails a na)).settle) ∧
    ((s.windowTests (s.source a) jit).1 = true → (s.windowTests (s.source b) met).1 = false →
      exec (.entropyWindowEnd k ⟨jit, pj⟩ ⟨met, pm⟩) s = .next ((u.capture (0x60 + b)).recover (fun s => s.sourceFails b nb)).settle) ∧
    ((s.windowTests (s.source a) jit).1 = false → (s.windowTests (s.source b) met).1 = false →
      exec (.entropyWindowEnd k ⟨jit, pj⟩ ⟨met, pm⟩) s
        = .next ((((u.capture (0x60 + a)).recover (fun s => s.sourceFails a na)).capture (0x60 + b)).recover (fun s => s.sourceFails b nb)).settle)

/-- R453, R455, R457 to R460, R468, R477: a source that passes its start-up tests is HEALTHY; one that fails restarts, and is retired at
its third failure within 2^24 samples; the estimates of a period are put in their registers, and an alarm is a failure; a start that
ends without a window leaves WARMING. -/
def Obligations.EntropySourcesStartFailAndRetire : Prop :=
  ∀ (s b : State) (i n : Nat) (pos : BitVec 16) (x : Src), s.live = true → i < 8 → s.source i = x →
    (s.ent.enable = true → x.state = .starting ∨ x.state = .restarting →
      exec (.sourceStartupPass i) s
        = .next ((s.setSource i { x with state := .healthy, awaited := false, last := none, run := 0 }).entUpdate.tryRelease).settle) ∧
    (x.runs = true → s.retired (19 + i) = false → n = x.pos * 65536 + pos.toNat →
      (s.laneOfSource i = none →
        b = (match s.partnerOf i with | some j => s.seam j | none => s).setSource i
              { x with state := .restarting, fails := min (x.fails + 1) 0xFFFF
                       recent := x.recent.filter (fun p => decide (n < p + 2 ^ 24)) ++ [n], last := none, run := 0, alarm := false } →
        ((x.recent.filter (fun p => decide (n < p + 2 ^ 24))).length < 2 →
          exec (.sourceHealthFail ⟨i, pos⟩) s = .next b.entUpdate.settle) ∧
        (2 ≤ (x.recent.filter (fun p => decide (n < p + 2 ^ 24))).length → ∃ u : State,
          exec (.sourceHealthFail ⟨i, pos⟩) s = .next u.settle ∧ u = b.retireSource i ∧ u.retired (19 + i) = true ∧
          (u.source i).state = .retired)) ∧
      (∀ k, s.laneOfSource i = some k →
        exec (.sourceHealthFail ⟨i, pos⟩) s
          = .next ((((s.bumpSat .entDiscardCount).entWordEnd 2).capture (0x60 + i)).recover (fun s => s.sourceFails i n)).settle)) ∧
    (∀ n1 neq maxrun aptmax : Nat, x.runs = true → n1 ≤ 65536 → neq ≤ 65536 → maxrun ≤ 65536 → aptmax ≤ 1024 →
      (fld (s.reg .entEst) 15 0 = 0 → ∃ u : State,
        exec (.estimatePeriodEnd i n1 neq maxrun aptmax) s = .next u.settle ∧
        (u.reg .entSrcBias i).toInt = (if n1 < 32768 then 65536 else 0) + min ((n1 : Int) - 32768) 32767 ∧
        (u.reg .entSrcCorr i).toInt = (if neq < 32768 then 65536 else 0) + min ((neq : Int) - 32768) 32767 ∧
        (u.reg .entSrcMaxrun i).toNat = min maxrun 65535 ∧ (u.reg .entSrcAptmax i).toNat = aptmax ∧
        u.source i = { x with pos := x.pos + 1, recent := x.recent.filter (fun p => decide (65536 * (x.pos + 1) < p + 2 ^ 24)) }) ∧
      (fld (s.reg .entEst) 15 0 ≠ 0 →
        (fld (s.reg .entEst) 15 0 ≤ (min ((n1 : Int) - 32768) 32767).natAbs ∨
          fld (s.reg .entEst) 15 0 ≤ (min ((neq : Int) - 32768) 32767).natAbs) → ∃ u : State,
        exec (.estimatePeriodEnd i n1 neq maxrun aptmax) s = .next u.settle ∧ (u.source i).alarm = true)) ∧
    (s.ent.starting = true → s.ent.raw = false → (∀ j < 8, (s.source j).awaited = false) → s.ent.held = [] →
      exec .entropyStartTimeout s
        = .next (({ s with ent := { s.ent with starting := false, state := 4 } } : State).entUpdate).settle)

/-- R465, R466, R468, R469, R473 to R475: what the readers of entropy are answered, and what enabling, disabling and raw mode do. -/
def Obligations.EntropyReadersAndControl : Prop :=
  ∀ (s : State) (f : Nat),
    (∀ (id : Nat) (r : Req), s.req id = some r → s.live = true → r.entWaits = true → s.palBytes = 0 →
      exec (.entropyWaitTimeout id) s = .next (s.fail r stEntropyUnavailable 0).settle) ∧
    (s.port.stall = some (.entWord f) →
      exec .entWordTimeout s
        = .next ({ s.setFn f { s.fn f with entStatus := BitVec.ofNat 32 (2 ^ 31 + 2 ^ 16 + (s.fn f).entStatus.toNat % 0x10000) } with
            port := { s.port with stall := none, code := 0, data := 0 } } : State).settle) ∧
    (s.Open → f ≤ 16 →
      ((s.fn f).enabled = true → s.ent.state ≠ 6 → s.armedChecker ≠ some 0x69 → ∀ w rest, s.ent.pal = w :: rest → 4 < w.length →
        exec (.entWord f) s
          = .next ({ s.setFn f { s.fn f with entStatus := BitVec.ofNat 32 (((s.fn f).entStatus.toNat + 1) % 0x10000) } with
              ent := { s.ent with pal := w.drop 4 :: rest, palOff := s.ent.palOff + 4 }
              port := { s.port with waiting := false, stall := none, code := 0, data := BitVec.ofNat 32 (leNat (w.take 4)) } } : State).settle) ∧
      ((s.fn f).enabled = false → (s.fn f).resetting = false →
        exec (.entWord f) s
          = .next ((s.setFn f { s.fn f with
              entStatus := BitVec.ofNat 32 (2 ^ 31 + 3 * 2 ^ 16 + (s.fn f).entStatus.toNat % 0x10000) }).respond 0 0).settle)) ∧
    (s.Open → s.ent.enable = false → exec .entropyEnable s = .next s.entropyStart.ok.settle ∧
      s.entropyStart.ent.state = 1 ∧ s.entropyStart.ent.enable = true) ∧
    (s.Open → s.ent.enable = true → exec .entropyEnable s = .next s.ok.settle) ∧
    (s.Open → s.ent.enable = true → ∃ u : State, exec .entropyDisable s = .next u.ok.settle ∧
      u.ent.state = 0 ∧ u.ent.enable = false ∧ u.ent.raw = false ∧ u.ent.pal = [] ∧ u.ent.held = [] ∧
      u = { s with ent := u.ent, fab := u.fab } ∧ (∀ i, (u.source i).state = .off)) ∧
    (∀ sel : BitVec 4, s.Open → s.ent.enable = true → s.ent.raw = false → sel.toNat ≤ 11 →
      fld (s.reg .entRawLen) 24 0 % 32 = 0 → 32 ≤ fld (s.reg .entRawLen) 24 0 → fld (s.reg .entRawLen) 24 0 ≤ 16777216 →
      s.rawAddr % 32 = 0 → s.winFail 16 s.rawAddr (fld (s.reg .entRawLen) 24 0) true = none → ∃ u : State,
      exec (.rawModeEnter sel) s = .next u.ok.settle ∧ u.ent.state = 6 ∧ u.ent.raw = true ∧ u.ent.pal = [] ∧
      u.ent.rawLen = fld (s.reg .entRawLen) 24 0 ∧ u.ent.rawBytes = 0 ∧ u.ent.rawDone = false ∧
      u.gal.ext = s.gal.ext ++ [(31, natLE 8 sel.toNat ++ natLE 8 (fld (s.reg .entRawLen) 24 0) ++ natLE 8 s.now ++ zeros 40)]) ∧
    (∀ sel : BitVec 4, s.Open → s.ent.raw = false → 11 < sel.toNat → exec (.rawModeEnter sel) s = .next s.refuse.settle) ∧
    (∀ sel : BitVec 4, s.Open → s.ent.raw = true → sel.toNat = fld (s.reg .entRawCtrl) 3 0 → s.kindGone = false → ∃ u : State,
      exec (.rawModeExit sel) s = .next u.ok.settle ∧ u.ent.raw = false ∧ u.ent.state = 1 ∧ u.ent.starting = true ∧
      u = { s with ent := u.ent, fab := u.fab }) ∧
    (∀ data : BitVec 256, s.live = true → s.ent.raw = true → s.ent.rawErr = false → s.ent.rawIssued < s.ent.rawLen →
      s.gal.ext.any (fun e => e.1 == 31) = false → (s.fn 16).resetting = false → (s.fn 16).quiet = false → s.winFail 16 (s.rawAddr + s.ent.rawIssued) 32 true = none →
      exec (.rawCaptureBeat data) s
        = .next (({ s with ent := { s.ent with rawIssued := s.ent.rawIssued + 32 } } : State).queueWrite
            (s.rawAddr + s.ent.rawIssued) (natLE 32 data.toNat) 16 (.raw s.ent.rawCap 32)).settle)

-- faults ----------------------------------------------------------------------------------------------------------------------------

/-- The event that a capture records (R506). -/
def eventOf (s : State) (src detail tag : Nat) (inj : Bool) : Event :=
  { src := src, tag := tag, detail := detail % 0x10000, time := s.now, coarse := !s.islandUp 12, inj := inj, cycle := s.flt.cycle }

/-- R500, R502, R506, R514, R515: an event of a source whose recovery is the event itself reaches the capture stage with its tag and DETAIL;
a class below BLOCK_FATAL changes nothing else, BLOCK_FATAL freezes the block and ends a stalled read with ERROR; an armed injection
of that checker fires with the event; an event of the key lift for which no request is outstanding is recorded alone; an ID that is not
listed is never raised. -/
def Obligations.FaultEventsAreCaptured : Prop :=
  ∀ (s : State) (src : BitVec 8) (tag : BitVec 5) (detail : BitVec 16) (e : Event), s.blk.porLow = false →
    (faultFloor src.toNat = none → exec (.faultCapture src tag detail) s = .next s.settle) ∧
    (src.toNat ∈ [0x02, 0x03, 0x04, 0x08, 0x10, 0x11, 0x39, 0x47, 0x57, 0x58, 0x69, 0x70, 0x74, 0x75, 0x76, 0x77, 0x78, 0x79, 0x80, 0x8B,
                  0x91, 0x92, 0x93, 0xA0, 0xA1, 0xA2, 0xA3, 0xB0, 0xB2, 0xB3] →
      (src.toNat ∈ [0x74, 0x75, 0x76, 0x77] →
        s.kl.out.find? (fun k => k.slot == detail.toNat && k.tag == tag.toNat && !k.timedOut) = none) →
      (s.armedChecker ≠ some (faultChecker src.toNat) →
        e = eventOf s src.toNat (if detailZero src.toNat then 0 else detail.toNat) (if tagged src.toNat then tag.toNat else 31) false →
        (s.faultClass src.toNat < 4 →
          exec (.faultCapture src tag detail) s
            = .next ({ s with flt := { s.flt with captured := s.flt.captured ++ [e] } } : State).settle) ∧
        (s.faultClass src.toNat = 4 → s.awake = true →
          exec (.faultCapture src tag detail) s
            = .next ({ ({ s with flt := { s.flt with captured := s.flt.captured ++ [e] } } : State).endStall 1 0 with
                blk := { s.blk with frozen := true } } : State).settle) ∧
        (s.awake = false →
          exec (.faultCapture src tag detail) s
            = .next ({ s with flt := { s.flt with captured := s.flt.captured ++ [e] } } : State).settle)) ∧
      (s.armedChecker = some (faultChecker src.toNat) → s.faultClass src.toNat < 4 →
        e = eventOf s src.toNat (if detailZero src.toNat then 0 else detail.toNat) (if tagged src.toNat then tag.toNat else 31) true →
        exec (.faultCapture src tag detail) s
          = .next ({ s with flt := { s.flt with captured := s.flt.captured ++ [e], armed := false, injDone := true } } : State).settle))

/-- R501, R505, R507, R509, R515 to R517: one captured event is classified: it is counted; CORRECTED and ABSORBED update the last minor
event, REPORTED and above the empty latch or OVERFLOW; the pending bit is set; BLOCK_FATAL ends in the snowplough state, where nothing
secret is left, nothing is issued, and no clock is requested once the tally store has its last writes; in the snowplough state an event sets its pending bit and OVERFLOW alone. -/
def Obligations.FaultEventsAreClassified : Prop :=
  ∀ (s t : State) (e : Event) (c : Nat), s.blk.porLow = false → s.flt.captured = [e] → c = max (s.faultClass e.src) e.least →
    t = s.setReg .fltCount 0 e.src (BitVec.ofNat 32 (min ((s.reg .fltCount 0 e.src).toNat + 1) 0xFFFF)) →
    (s.blk.snow = 0 → isRetirement e.src = false → s.permUnit e.src = none →
      (c < 2 → exec .faultClassify s
        = .next ({ t with flt := { s.flt with captured := [], lastMinor := some (e, c)
                                              pend := s.flt.pend ||| (if bitOf (s.reg .fltReact 0 e.src) 3 then bit32 26 else 0) } } : State).settle) ∧
      (c = 2 → s.flt.first = none → exec .faultClassify s
        = .next ({ t with flt := { s.flt with captured := [], first := some (e, c), pend := s.flt.pend ||| bit32 24 } } : State).settle) ∧
      (c = 2 → s.flt.first ≠ none → exec .faultClassify s
        = .next ({ t with flt := { s.flt with captured := [], overflow := true, pend := s.flt.pend ||| bit32 24 } } : State).settle) ∧
      (c = 3 → e.tag ≤ 16 → s.flt.first = none → exec .faultClassify s
        = .next ({ t with flt := { s.flt with captured := [], first := some (e, c), pend := s.flt.pend ||| bit32 e.tag } } : State).settle) ∧
      (c = 4 → s.awake = true → ∃ u : State, exec .faultClassify s = .next u.settle ∧
        u.blk.st = .snowplough ∧ u.blk.phase = 9 ∧ (u.blk.snow = 1 ∨ u.blk.snow = 2) ∧ u.flt.pend = s.flt.pend ||| bit32 25 ∧
        u.flt.first = s.flt.first.or (some (e, 4)) ∧ u.ctx.keys = [] ∧ u.ctx.key = none ∧ u.ctx.cache = [] ∧ u.ctx.hmac = [] ∧
        u.ent.pal = [] ∧ u.fab.rdQ = [] ∧ u.fab.wrQ = [] ∧ (u.blk.snow = 2 → u.pwr.clkReq = 0) ∧ u.tly.cells = s.tly.cells ∧ u.gal.val = s.gal.val)) ∧
    (s.blk.snow ≠ 0 → c = 2 → exec .faultClassify s
      = .next ({ s with flt := { s.flt with captured := [], overflow := true, pend := s.flt.pend ||| bit32 24 } } : State).settle)

/-- R503, R504: COUNT events of a lane's comparator within WINDOW of its running time, injected ones aside, retire the lane: its bit in the
retirement map is set, and LANE_RETIRE is captured. -/
def Obligations.RepeatedFaultsRetireTheUnit : Prop :=
  ∀ (s : State) (n : Nat) (e : Event) (perm : List (Nat × Nat)), s.blk.porLow = false → s.blk.snow = 0 → n < 9 →
    s.flt.captured = [e] → e.src = 0x20 + n → e.least = 0 → s.faultClass e.src = 1 →
    perm = (s.flt.perm ++ [(e.src, s.runLane)]).filter
      (fun p => p.1 != e.src || decide (s.runLane ≤ p.2 + 1000 * max 1 (fld (s.reg .fltPermCfg) 15 0))) →
    (e.inj = true → s.retired n = false → ∃ u : State, exec .faultClassify s = .next u.settle ∧ u.retired n = false) ∧
    (e.inj = false → (perm.filter (fun p => p.1 == e.src)).length < max 2 (fld (s.reg .fltPermCfg) 19 16) → ∃ u : State,
      exec .faultClassify s = .next u.settle ∧ u.flt.perm = perm ∧ u.flt.retired = s.flt.retired ∧ u.flt.captured = []) ∧
    (e.inj = false → max 2 (fld (s.reg .fltPermCfg) 19 16) ≤ (perm.filter (fun p => p.1 == e.src)).length → s.retired n = false →
      ∃ u : State, exec .faultClassify s = .next u.settle ∧ u.retired n = true ∧ ∃ x ∈ u.flt.captured, x.src = 0x2A)

/-- R25, R70, R499, R512, R514, R515, R548: a scrubbed word waits for the clock of its domain; one that checks good leaves the block as it was
but for the pass of the scrubber, a correctable word is captured as its memory's source with its index; a disagreement of the collector's
copies is latched as BLOCK_FATAL and sends the block to the snowplough state. -/
def Obligations.ScrubberAndCollectorCopies : Prop :=
  ∀ (s b t : State) (m : ScrubMem) (idx : Nat),
    (s.live = true → m.ok = true → s.islandUp (scrubIsland m) = true →
      (∀ o, s.clkOk (scrubClock m) = false → exec (.scrub m idx o) s = .next (s.bgAsk (scrubClock m)).settle) ∧
      (s.clkOk (scrubClock m) = true → s.armedChecker ≠ some (scrubChecker m) → b = s.bgDone (scrubClock m) →
        t = (if Config.freeNat s.free % 2 = 1 then ({ b with free := s.free + 1 } : State).bump .scrubCount
             else ({ b with free := s.free + 1 } : State)) →
        exec (.scrub m idx .good) s = .next t.settle ∧
        (∀ src, (scrubSrc m).1 = some src → exec (.scrub m idx .correctable) s = .next (t.capture src idx).settle) ∧
        (scrubSrc m = (none, 0x02) → exec (.scrub m idx .uncorrectable) s = .next (t.capture 0x02 idx).settle))) ∧
    (∀ logic : Bool, s.blk.porLow = false → s.blk.snow = 0 → s.awake = true → s.armedChecker = none → ∃ u : State,
      exec (.collectorMismatch logic) s = .next u.settle ∧ u.blk.st = .snowplough ∧ u.blk.frozen = true ∧
      u.flt.pend.getLsbD 25 = true ∧
      (s.flt.first = none → u.flt.first = some ({ src := if logic then 1 else 0, time := s.now, coarse := !s.islandUp 12
                                                  cycle := s.flt.cycle }, 4)) ∧
      u.ctx.key = none ∧ u.ent.pal = [] ∧ (u.blk.snow = 2 → u.pwr.clkReq = 0))

/-- R515: from the capture of a fatal event nothing commits and nothing is issued, whatever command comes: grants and commits leave the block
as it was, and settling moves no request, transaction or key-lift request. -/
def Obligations.FrozenBlockCommitsAndIssuesNothing : Prop :=
  ∀ s : State, s.blk.frozen = true →
    (s.settle.reqs = s.reqs ∧ s.settle.fab = s.fab ∧ s.settle.kl = s.kl ∧ s.settle.ctx = s.ctx ∧ s.settle.ent = s.ent) ∧
    (∀ e : Engine, exec (.strokeGrant e) s = .next s.settle) ∧
    (∀ e : Nat, exec (.easelGrant e) s = .next s.settle) ∧
    (∀ e : Engine, exec (.strokeCommit e) s = .next s.settle)

-- the tally store -------------------------------------------------------------------------------------------------------------------------

/-- R520, R521: programming the cell that does not hold the current value makes the new value, with WEAR + 1, the register's value and
leaves the cell with the old one intact; a write that is asked for leaves every durable value as it was until it is durable, which takes
the tally clock (R70). -/
def Obligations.TallyWritesAreAtomicOverPairedCells : Prop :=
  (∀ (c : Cell × Cell) (cur : Cell) (v : Word), tlyPick c = some cur →
    tlyPick (tlyProgram c v) = some { val := v, wear := cur.wear + 1, gen := cur.gen + 1, good := true } ∧
    ((tlyProgram c v).1 = cur ∨ (tlyProgram c v).2 = cur)) ∧
  (∀ (s : State) (idx : Nat) (v : Word) (cls : Nat) (who : List TlyWho), (s.tlyWrite idx v cls who).tly.cells = s.tly.cells) ∧
  (∀ s : State, s.clkOk 12 = false → s.blk.snow ≠ 1 → exec .tallyWriteDurable s = .next s.settle) ∧
  (∀ (s : State) (w : TlyW), s.clkOk 12 = true → s.tly.cur = some w → s.tly.queue = [] → s.tly.wait = [] → w.who = [] → s.blk.snow ≠ 1 →
    exec .tallyWriteDurable s
      = .next ({ s with tly := { s.tly with
          cells := tset (fun _ => ({}, {})) s.tly.cells w.idx (tlyProgram (s.tlyCells w.idx) w.val)
          cur := none, writes := s.tly.writes + 1 } } : State).settle)

/-- R25, R514, R522, R523, R530: a scan reads every register whose cells are listed, once the tally clock runs: with both cells good nothing
changes; with one cell that fails its check it raises TLY_CORR, counts it and rewrites the cell; with neither valid TLY_LOST is raised. A
full powered hour raises LIFE_HOURS, 20 bits and saturating, by a write of class 4; a write past the endurance limit is refused. -/
def Obligations.TallyScanRepairsAndRefusals : Prop :=
  ∀ (s t : State) (i : Nat) (bad : List (Nat × Bool)),
    (s.blk.tlyRead = true → s.blk.snow = 0 →
      (s.clkOk 12 = true → t = (bad.filter (fun p => decide (p.1 < 1024))).foldl State.tlySpoil ((s.bgDone 12).tlyStrike 0) →
        exec (.tallyScan bad) s = .next ((t.tly.cells.map (·.1)).foldl State.tlyScanOne t).settle) ∧
      (s.clkOk 12 = false → exec (.tallyScan bad) s = .next (s.bgAsk 12).settle)) ∧
    (s.blk.tlyRead = false ∨ s.blk.snow ≠ 0 → exec (.tallyScan bad) s = .next s.settle) ∧
    ((s.tlyCells i).1.good = true → (s.tlyCells i).2.good = true → s.tlyScanOne i = s) ∧
    ((s.tlyCells i).1.good = false → (s.tlyCells i).2.good = false → s.tlyScanOne i = s.capture 0x91 i) ∧
    (∀ cur : Cell, cur = (if (s.tlyCells i).1.good then (s.tlyCells i).1 else (s.tlyCells i).2) →
      (s.tlyCells i).1.good ≠ (s.tlyCells i).2.good → s.blk.frozen = false → s.faultClass 0x90 < 4 → cur.wear < 1000000 → s.tlyAhead i = [] →
      s.tlyScanOne i
        = ((s.capture 0x90 i).bumpSat .tlyRepairCount).tlyEnqueue { idx := i, val := cur.val, cls := 5, who := [.repair] }) ∧
    (s.blk.tlyRead = true → s.blk.snow = 0 → s.blk.frozen = false → s.clkOk 12 = true → s.armedChecker ≠ some 0x90 → s.tly.cells = [] →
      s.tly.cur = none → s.tly.queue = [] → s.tly.wait = [] → i < 1024 → t = s.bgDone 12 →
      (∀ b : Bool, s.faultClass 0x90 < 4 → exec (.tallyScan [(i, b)]) s
        = .next ((({ t with tly := { t.tly with
            cells := [(i, if b then ({}, { good := false }) else ({ good := false }, {}))] } } : State).capture 0x90 i).bumpSat .tlyRepairCount
            |>.tlyEnqueue { idx := i, val := 0, cls := 5, who := [.repair] }).settle) ∧
      exec (.tallyScan [(i, false), (i, true)]) s
        = .next (({ t with tly := { t.tly with cells := [(i, ({ good := false }, { good := false }))] } } : State).capture 0x91 i).settle) ∧
    (s.blk.porLow = false → s.blk.snow = 0 →
      exec .lifeHours s
        = .next (s.tlyWrite 161 (BitVec.ofNat 32 (min ((s.tlyNext 161).toNat % 2 ^ 20 + 1) (2 ^ 20 - 1))) 4 [.plan]).settle ∧
      ((s.tlyNext 161).toNat < 0xFFFFF →
        exec .lifeHours s = .next (s.tlyEnqueue { idx := 161, val := s.tlyNext 161 + 1, cls := 4, who := [.plan] }).settle)) ∧
    (s.blk.porLow = true ∨ s.blk.snow ≠ 0 → exec .lifeHours s = .next s.settle) ∧
    (∀ w : TlyW, s.tly.cur = none → s.tly.queue = [] → s.tly.wait = [] → 1000000 ≤ s.tlyWearOf w.idx → w.who = [] →
      s.tlyEnqueue w = ({ s with tly := { s.tly with refused := some w.idx } } : State).capture 0x92 w.idx)

-- background activities -----------------------------------------------------------------------------------------------------------------------

/-- R25, R36, R532, R534, R545, R546, R549: rotation passes the reserve role to the next lane and tests it where that is enabled, and waits for
the end of that lane's stroke; a field test takes the next unit out of service; a measurement waits for the clock of its unit; a measurement with slack to spare records the slack; a snapshot copies the counters of a running function. -/
def Obligations.BackgroundActivities : Prop :=
  ∀ s : State, s.live = true → s.blk.st = .service →
    (∀ m n : Nat, s.reserve = some m → m < 9 → n = (m + 1) % 9 → (∀ u < 9, s.retired u = false) → s.sched.laneRetry = [] →
      (s.lane n = {} → s.lane m = {} → ∃ u : State, exec .rotation s = .next u.settle ∧ u.reserve = some n ∧
        (u.lane n).test = bitOf (s.reg .bistFieldCfg) 31 ∧ (u.lane m).test = false ∧ u.reqs = s.reqs.map (fun r =>
          if opLane (dOp r.d) ∧ r.home.contains n then { r with home := r.home.map (fun h => if h = n then m else h) } else r)) ∧
      ((s.lane n).run ≠ none → exec .rotation s = .next ({ s with sched := { s.sched with rotate := true } } : State).settle)) ∧
    (s.bist.field = [] → s.bist.lastField < 9 → s.retired 9 = false → bitOf (s.reg .bistFieldCfg) 30 = true →
      exec .fieldSelfTest s
        = .next (({ s with bist := { s.bist with field := [(9, [1, 0, 2])], lastField := 9 } } : State).setDig 0 { s.dig 0 with test := true }).settle) ∧
    (∀ (u : Nat) (slack : BitVec 10), u ≤ 18 → s.retired u = false → (u < 17 → s.unitIdle u = true) → s.laneTurn u = true →
      s.islandUp (unitIsland u) = true → s.clkOk (unitClock u) = true → fld (s.reg .ageCfg) 9 0 ≤ slack.toNat →
      ∃ t : State, exec (.ageMeasurement u slack) s = .next t.settle ∧
        (t.ageU u).valid = true ∧ (t.ageU u).slack = slack.toNat ∧ (t.ageU u).hour4 = s.lifeHours / 4 ∧
        (t.ageU u).step = (s.ageU u).step ∧ t.reqs = s.reqs ∧ t.tly.cells = s.tly.cells) ∧
    (∀ (u : Nat) (slack : BitVec 10), u ≤ 18 → s.retired u = false → (u < 17 → s.unitIdle u = true) → s.laneTurn u = true →
      s.islandUp (unitIsland u) = true → s.clkOk (unitClock u) = false →
      exec (.ageMeasurement u slack) s = .next (s.bgAsk (unitClock u)).settle) ∧
    (∀ f ≤ 16, s.Running f → fld (s.reg .bgCfg) 31 16 ≠ 0 → ∃ t : State, exec (.telemetrySnapshot f) s = .next t.settle ∧
      t.reg .telSeq f = s.reg .telSeq f + 1 ∧ t.reg .telTimeLo f = BitVec.ofNat 32 s.now ∧
      t.reg .telDone f = BitVec.ofNat 32 ((s.fn f).live.getD 0 0) ∧ t.reg .telOther f = BitVec.ofNat 32 ((s.fn f).live.getD 7 0) ∧
      t.reg .telBytesLo f = BitVec.ofNat 32 (s.fn f).liveBytes ∧ t = { s with regs := t.regs })

-- the gate list ------------------------------------------------------------------------------------------------------------------------------------

/-- R207, R208, R210 to R217: SWAP with a legal admin list is taken, and receives ERROR otherwise; a swap that takes effect, at the first
instant that may take it, puts the admin list in operation; an interval of a gate begins with its t_open and binds the requests of the gate
that wait without one; it ends when the window that lies LEAD ahead is no longer its own: started requests fall to the priority class,
others wait for a later interval and are LATE; a prewake wakes the core and the lowest lanes in service. -/
def Obligations.GateListEvents : Prop :=
  ∀ (s : State) (g : Fin 8),
    (∀ v : Word, s.Open → fld v 7 4 ≤ 8 →
      (s.gate.pending = false → s.swapOk = true →
        exec (.gateSwap v) s
          = .next ({ (s.setReg .gateCtrl 0 0 (merge (s.reg .gateCtrl) (1 ||| v) RegName.gateCtrl.row.rw)) with
              gate := { s.gate with pending := true } } : State).ok.settle) ∧
      (s.gate.pending = true ∨ s.swapOk = false → exec (.gateSwap v) s = .next s.refuse.settle)) ∧
    (s.gate.pending = false ∨ s.thisMicro s.swapAt = none → exec .gateSwapEffect s = .next s.settle) ∧
    (∀ at_, s.gate.pending = true → s.thisMicro s.swapAt = some at_ → ∃ u : State, exec .gateSwapEffect s = .next u.settle ∧
      u.gate.oper = true ∧ u.gate.pending = false ∧
      u.gate.since = at_ ∧ u.reg .gateOperCycle = s.reg .gateAdminCycle ∧ u.reg .gateOperLen = s.reg .gateAdminLen ∧
      u.reg .gateOperBaseLo = s.reg .gateAdminBaseLo ∧ u.reg .gateOperBaseHi = s.reg .gateAdminBaseHi ∧
      (∀ i < 64, u.reg .gateOperIvl 0 i = s.reg .gateAdminIvl 0 i ∧ u.reg .gateOperGates 0 i = s.reg .gateAdminGates 0 i)) ∧
    (∀ i t lead, s.gate.oper = true → s.gate.elig.any (fun e => e.g == g.val) = false → lead = fld (s.reg .gateLead) 19 0 →
      s.thisMicro (fun x => (s.windowAt g.val (x + lead)).isSome) = some i → s.windowAt g.val (i + lead) = some t →
      exec (.eligibilityStart g) s
        = .next ({ s with gate := { s.gate with elig := s.gate.elig ++ [{ g := g.val, opens := t, lead := lead }] }
                          reqs := s.reqs.map (fun r =>
                            if r.cls = 2 ∧ opGranted (dOp r.d) ∧ r.inFlight ∧ ¬ r.started ∧ ¬ r.fallen ∧ r.bound.isNone ∧ s.gateOf r.f r.n = g.val
                            then { r with bound := some t } else r) } : State).settle) ∧
    (∀ e, s.gate.elig.find? (fun e => e.g == g.val) = some e →
      (s.thisMicro (fun x => s.windowAt g.val (x + e.lead) != some e.opens) = none → exec (.eligibilityEnd g) s = .next s.settle) ∧
      (s.thisMicro (fun x => s.windowAt g.val (x + e.lead) != some e.opens) ≠ none →
        exec (.eligibilityEnd g) s
          = .next ({ s with gate := { s.gate with elig := s.gate.elig.filter (fun e => e.g != g.val) }
                            reqs := s.reqs.map (fun r =>
                              if r.cls = 2 ∧ opGranted (dOp r.d) ∧ r.inFlight ∧ s.gateOf r.f r.n = g.val then
                                (if r.started then { r with fallen := true }
                                 else if r.bound.isSome then { r with bound := none, late := true } else r)
                              else r) } : State).settle)) ∧
    (s.gate.oper = true → bitOf (s.reg .gateCtrl) (8 + g.val) = true → s.live = true →
      exec (.prewake g) s
        = .next ((((List.range 9).filter s.laneIn).take (fld (s.reg .gateCtrl) 7 4)).foldl State.islWake (s.islWake 12)).settle)

-- operations on the lanes and the digest engines -------------------------------------------------------------------------------------

/-- No other lane or digest engine holds a stroke of request `id` without its output; the partner lane of a CCM stroke has none to
give. -/
def onlyOnLane (s : State) (id n : Nat) : Prop :=
  (∀ m < 9, m ≠ n → ∀ w, (s.lane m).run = some w → w.id = id → w.out ≠ none) ∧
  (∀ e < 4, ∀ w, (s.dig e).run = some w → w.id = id → w.out ≠ none)

/-- R70, R272, R286, R337, R349, R351: a lane operation gives the stroke that a lane holds its output, once its source has been read: the bytes
of its span in the output over the payload read so far. Every other part of the block stays. -/
def Obligations.LaneOperationsComputeTheirStroke : Prop :=
  ∀ (s : State) (id n : Nat) (r : Req) (w : Run), s.live = true → s.clkOk 4 = true → n < 9 → s.req id = some r →
    (s.lane n).run = some w → w.id = id → w.src ≠ none → w.out = none → onlyOnLane s id n →
    (∀ p ∈ [(Instr.ecbEncrypt id, 0x10), (.ecbDecrypt id, 0x11), (.cbcEncrypt id, 0x12), (.cbcDecrypt id, 0x13), (.ctr id, 0x14),
            (.xtsEncrypt id, 0x15), (.xtsDecrypt id, 0x16), (.gcmEncrypt id, 0x18), (.gcmDecrypt id, 0x19), (.ccmEncrypt id, 0x1A),
            (.ccmDecrypt id, 0x1B), (.gmacGenerate id, 0x1C), (.gmacVerify id, 0x1D), (.cmacGenerate id, 0x1E), (.cmacVerify id, 0x1F),
            (.chacha20 id, 0x20), (.chachaPolyEncrypt id, 0x21), (.chachaPolyDecrypt id, 0x22), (.keyWrap id, 0x23),
            (.keyUnwrap id, 0x24), (.cbcHmacEncrypt id, 0x40), (.cbcHmacVerifyDecrypt id, 0x41), (.ctrHmac id, 0x42),
            (.stencilOut id, 0x50), (.stencilIn id, 0x51), (.sealRecord id, 0x52), (.sealCheck id, 0x53)],
      dOp r.d = p.2 →
      exec p.1 s = .next (s.setLane n { s.lane n with run := some { w with out := some (s.strokeOut r w.k) } }).settle) ∧
    (0x10 ≤ dOp r.d → dOp r.d ≤ 0x24 → w.k < passStrokes r.d → (s.outSpan r w.k).1 < (s.outSpan r w.k).2 →
      s.strokeOut r w.k
        = ((r.text ((r.srcTo 0 w.k).drop (dAad r.d))).drop (s.outSpan r w.k).1).take ((s.outSpan r w.k).2 - (s.outSpan r w.k).1))

/-- R274, R275, R277: what the counter modes encrypt they decrypt, under any AES key and counter block, and under any ChaCha20 key and nonce;
so GCM and the AEAD of ChaCha20 give back the payload. -/
def Obligations.CounterModesDecryptWhatTheyEncrypt : Prop :=
  (∀ (key blk p : Bytes) (wd : Nat), key.length = 16 ∨ key.length = 24 ∨ key.length = 32 →
    ctrAt key wd blk 0 (ctrAt key wd blk 0 p) = p) ∧
  (∀ (key nonce p : Bytes) (c : Nat), key.length = 32 → nonce.length = 12 → chachaAt key nonce c 0 (chachaAt key nonce c 0 p) = p) ∧
  (∀ (r q : Req) (p : Bytes), (r.key 0).length = 16 ∨ (r.key 0).length = 24 ∨ (r.key 0).length = 32 → q.key 0 = r.key 0 →
    q.nonce = r.nonce → dOp r.d = 0x18 → dOp q.d = 0x19 → q.text (r.text p) = p)

/-- R299, R308 to R311, R313 to R315: a digest operation gives the stroke that an engine holds its output; a hash without pad check or
continuation is the algorithm's digest of the source, its first 32 bytes in RESULT and a longer one at AUX; the state of a partial hash
continues to the same state as the whole message. -/
def Obligations.DigestOperationsComputeTheirStroke : Prop :=
  (∀ (s : State) (id e : Nat) (r : Req) (w : Run), s.live = true → s.clkOk 5 = true → e < 4 → s.req id = some r →
    (s.dig e).run = some w → w.id = id → w.src ≠ none → w.out = none → (∀ m < 9, ∀ v, (s.lane m).run = some v → v.id ≠ id) →
    (∀ m < 4, m ≠ e → ∀ v, (s.dig m).run = some v → v.id = id → v.out ≠ none) →
    ∀ p ∈ [(Instr.hash id, 0x30), (.hashPartial id, 0x31), (.hmac id, 0x32), (.hmacVerify id, 0x33), (.hmacPartial id, 0x34)],
      dOp r.d = p.2 →
      exec p.1 s = .next (s.setDig e { s.dig e with run := some { w with out := some (s.strokeOut r w.k) } }).settle) ∧
  (∀ (r : Req) (a : Halg), dOp r.d = 0x30 → dCont r.d = false → dPadCheck r.d = false → Halg.ofCode (dHalg r.d) = some a →
    a.isShake = false →
    r.digFinish.result = (a.output a.digest (a.absorb a.init r.source)).take 32 ∧ r.digFinish.status = stOk ∧
    r.digFinish.aux = (if 32 < a.digest then a.output a.digest (a.absorb a.init r.source) else [])) ∧
  (∀ (a : Halg) (st x y : Bytes), x.length % a.block = 0 → a.absorb (a.absorb st x) y = a.absorb st (x ++ y))

-- the scheduler ---------------------------------------------------------------------------------------------------------------------------

/-- R201, R202, R206, R220, R387: a grant of an arbiter with a candidate starts the request's first stroke or computation on the engine that
took it, or the next stroke of a request that has started; with no candidate nothing changes. -/
def Obligations.GrantsStartWork : Prop :=
  (∀ (s : State) (n : Nat), s.live = true → s.laneIn n = true → s.laneIdle n = true → s.leaving ≠ some n →
    (s.cands (fun r => s.readyLane r n) = [] → exec (.strokeGrant (.lane n)) s = .next s.settle) ∧
    (∀ (t : State) (c : Cand) (r : Req), s.arbitrate 0 (s.cands (fun r => s.readyLane r n)) = (t, some c) → t.req c.id = some r →
      (r.started = false → dOp r.d ≠ 0x52 → dPair r.d = false → ¬ (0x40 ≤ dOp r.d ∧ dOp r.d ≤ 0x42) → ∃ u : State,
        exec (.strokeGrant (.lane n)) s = .next u.settle ∧ (u.lane n).run = some { id := r.id, k := 0 } ∧
        u.nextId = t.nextId + 1 ∧ u.ctx = t.ctx ∧ u.fab = t.fab) ∧
      (∀ k, r.started = true → t.nextOn r n = some k →
        exec (.strokeGrant (.lane n)) s
          = .next ((t.setReq { r with late := t.lateNow r }).startLane { r with late := t.lateNow r } n k).settle))) ∧
  (∀ (s : State) (e : Nat), s.live = true → s.digFree e = true →
    (s.cands (fun r => s.readyDig r e) = [] → exec (.strokeGrant (.dig e)) s = .next s.settle) ∧
    (∀ (t : State) (c : Cand) (r : Req), s.arbitrate 1 (s.cands (fun r => s.readyDig r e)) = (t, some c) → t.req c.id = some r →
      r.started = false → ∃ u : State, exec (.strokeGrant (.dig e)) s = .next u.settle ∧
        (u.dig e).run = some { id := r.id, k := 0 } ∧ r.id ∈ (u.dig e).banks)) ∧
  (∀ (s : State) (e : Nat), s.live = true → e < 4 → s.easelIdle e = true → s.sched.easelMove = [] →
    (s.cands (fun r => s.readyEasel r e) = [] → exec (.easelGrant e) s = .next s.settle) ∧
    (∀ (t : State) (c : Cand) (r : Req), s.arbitrate 2 (s.cands (fun r => s.readyEasel r e)) = (t, some c) → t.req c.id = some r →
      r.started = false → ∃ (u : State) (x : Comp), exec (.easelGrant e) s = .next u.settle ∧
        (u.easel e).running = some r.id ∧ (u.easel e).comps = (t.easel e).comps ++ [x] ∧ x.id = r.id ∧ x.f = r.f ∧ x.attempt = 1))

/-- R18, R30 to R33, R291, R292, R297: a stroke that is not the last of its request commits: it leaves its lane, is counted, and its bytes
drain; a duplicate mismatch is captured and the stroke is retried on the reserve with the bytes it has read; the third failure is
LANE_THIRD. The cycles of the stopped stroke are a free value (log entry 32). -/
def Obligations.StrokesCommitOrAreRetried : Prop :=
  (∀ (s : State) (n : Nat) (w : Run) (r : Req) (out : Bytes), s.live = true → s.clkOk 4 = true → s.bufferFull n = false →
    (s.lane n).run = some w → w.pair = none → w.digest = none → w.failed = [] → w.failedDig = [] → w.out = some out →
    s.req w.id = some r → r.id = w.id → s.fnRuns r.f = true → s.armedChecker ≠ some (0x20 + n) → s.armedChecker ≠ some 0x39 →
    s.ended { r with committed := r.committed ++ [w.k] } = none →
    bitOf (s.reg .laneCntCtrl n) 0 = false → ∃ u : State, exec (.strokeCommit (.lane n)) s = .next u.settle ∧
      (u.lane n).run = none ∧
      u.req r.id = some { r with committed := r.committed ++ [w.k], written := r.written + out.length
                                 wrote := r.wrote ++ (segPlace (tget (fun _ => []) r.dsts w.k) out).map (fun p => (p.1, p.2.length)) } ∧
      u.fab.wrQ = (s.writeStroke r n w.k out).fab.wrQ ∧ u.reg .laneStrokeCount n = s.reg .laneStrokeCount n + 1 ∧
      u.ctx = s.ctx ∧ u.flt = s.flt) ∧
  (∀ (s : State) (n m : Nat) (w : Run) (r : Req), s.live = true → n < 9 → m < 9 → m ≠ n → (s.lane n).run = some w → w.pair = none →
    s.req w.id = some r → ¬ (0x40 ≤ dOp r.d ∧ dOp r.d ≤ 0x42) → s.faultClass (0x20 + n) = 1 →
    (w.attempt < 3 → s.reserve = some m → m ∉ w.failed → (s.lane m).run = none → s.islandUp m = true → s.clkOk 4 = true →
      s.sched.laneRetry = [] → s.sched.digRetry = [] → s.sched.digMove = [] → ∃ u : State,
      exec (.duplicateMismatch (.lane n)) s = .next u.settle ∧ (u.lane n).run = none ∧
      (u.lane m).run = some { w with attempt := w.attempt + 1, failed := w.failed ++ [n], out := none, digest := none } ∧
      u.flt.captured = s.flt.captured ++ [{ src := 0x20 + n, time := s.now, coarse := !s.islandUp 12, cycle := s.flt.cycle }] ∧
      u.reqs = s.reqs ∧ u.fab = s.fab ∧ u.ctx = s.ctx) ∧
    (3 ≤ w.attempt → ∃ u : State, exec (.duplicateMismatch (.lane n)) s = .next u.settle ∧ (u.lane n).run = none ∧
      (∃ x ∈ u.flt.captured, x.src = 0x29) ∧ u.reqs = s.reqs ∧ u.fab = s.fab ∧ u.ctx = s.ctx))

-- operations on the easels ------------------------------------------------------------------------------------------------------------------

/-- R18, R365, R366, R373 to R375, R381 to R383, R392 to R394, R402: a built-in computation ends on its easel with the outcome of its
operation's rules, written and committed; a failed compare runs it again from its inputs as the second attempt, in recovery mode;
SKETCH_CALL starts the called library entry on its canvas. -/
def Obligations.EaselOperationsEndRestartAndStart : Prop :=
  (∀ (s : State) (id e : Nat) (r : Req) (c : Comp), s.live = true → s.clkOk 6 = true → s.req id = some r → s.easelRunning id = some e →
    (s.easel e).comp = some c → s.fnRuns r.f = true → s.armedChecker ≠ some (0x50 + e) → s.armedChecker ≠ some 0x57 →
    ∀ p ∈ [(Instr.ecdsaVerify id, 0x60), (.eddsaVerify id, 0x61), (.eddsaBatch id, 0x62), (.rsaVerifyPss id, 0x63),
           (.rsaVerifyPkcs1 id, 0x64), (.rsaPublic id, 0x65), (.modexpPublic id, 0x66), (.pointCheck id, 0x67), (.curveLoad id, 0x68)],
      dOp r.d = p.2 →
      (∀ x : Finish, s.easelFinish r = x →
        exec (p.1 true) s = .next (
          if c.part < Config.builtinYields r.d r.inputs (s.recovering e) then
            ((s.builtinRun e r c).setEasel e ((s.easel e).setComp { c with part := c.part + 1 })).skYielded e id
          else if s.checkAgrees e r x = false then s.failEasel e false
          else match s.hashed r x with
            | none => (s.setEasel e ((s.easel e).setComp { c with hashing := true })).islWake 9
            | some g => (g.builtinRun e r c).builtinEnd e r x).settle) ∧
      (∀ (g a b t : State) (x : Finish), (p.2 = 0x68 → x.status ≠ stOk) →
        a = (if x.status = stInputReject then g.easelCount e .easelRejectCount true else g) →
        b = (if rsaLegacy r.d r.staged = true ∧ x.status ≠ stInputReject then a.bumpSat .easelLegacyCount else a) →
        b.dstFail r 0 x.dst.length = none →
        t = ((b.setEasel e { b.easel e with running := none }).easelCount e .easelCompCount false).recovered e →
        g.builtinEnd e r x = (t.writeData r 0 x.dst).commit
          { r with outBytes := x.dst.length, result := x.result, written := x.dst.length } x.status x.detail) ∧
      (p.2 = 0x68 → s.dstFail r 0 0 = none → ∃ u : State, s.builtinEnd e r {} = u.loadCurve r ∧ u.tables = s.tables) ∧
      exec (p.1 false) s = .next (s.failEasel e false).settle) ∧
  (∀ (s : State) (r : Req) (e : Nat),
    (dOp r.d = 0x60 → s.easelFinish r = runEcdsa r.d (s.curveOf r.d) ((s.anchor (dAuxLen r.d)).getD []) r.param r.staged) ∧
    (dOp r.d = 0x66 → s.easelFinish r = runModexp r.d r.staged) ∧
    (∀ c : Comp, (s.easel e).comp = some c → c.attempt = 1 → c.cx = none → s.blk.frozen = false → s.faultClass (0x50 + e) < 4 → ∃ u : State, u = s.failEasel e false ∧
      (u.easel e).recover = fld (s.reg .easelRecover) 8 0 ∧
      (u.easel e).comps = (s.easel e).comps.map (fun y => if y.id = c.id ∧ ¬ y.dead then
        { id := c.id, f := c.f, entry := c.entry, attempt := 2, pages := c.pages } else y)) ∧
    (∀ (id i : Nat) (c : Comp), s.req id = some r → s.easelRunning id = some e → (s.easel e).comp = some c → c.entry = some i →
      s.live = true → s.clkOk 6 = true → s.fnRuns r.f = true → c.segs = [] →
      exec (.sketchCall id) s
        = .next (s.setEasel e ((s.easel e).setComp
            { (Comp.start c.id c.f c.attempt i (libEntryB s.tables.library i) r.param) with pages := c.pages })).settle))

-- operations without a grant ----------------------------------------------------------------------------------------------------------------------

/-- R158, R162, R201, R204, R233, R245 to R256, R465, R467, R471, R472: an operation that takes no grant runs when it is its turn and takes its effect; one
that needs entropy waits for its bytes, or ends with ENTROPY_UNAVAILABLE where there will be none. -/
def Obligations.UngrantedOperationsRunInTheirTurn : Prop :=
  ∀ (s t : State) (id : Nat) (r q : Req), s.req id = some r → s.mayRun r = true → q = { r with started := true } → t = s.setReq q →
    (∀ p ∈ [(Instr.nop id, 0x00), (.fence id, 0x01)], dOp r.d = p.2 →
      (dParam r.d = 0 → exec p.1 s = .next (t.commit q stOk 0).settle) ∧
      (dParam r.d ≠ 0 → exec p.1 s = .next (t.fail q stFormatMismatch 0x0004).settle)) ∧
    (∀ p ∈ [(Instr.randomFill id, 0x70), (.randomKey id, 0x71), (.ctxRotate id, 0x82)], dOp r.d = p.2 → r.got.length < t.entNeed q →
      (t.entGone = false → exec p.1 s = .next (t.setReq { q with stage := .running, entWaits := true }).settle) ∧
      (t.entGone = true → exec p.1 s = .next (t.fail q stEntropyUnavailable 0).settle)) ∧
    (∀ (b : Bytes) (iv : Bytes) (hdr : Hdr), dOp r.d = 0x80 → iv = dIv r.d →
      hdr = { alg := fieldLE iv 0 1, format := 1, scrub := nbit (fieldLE iv 1 1) 0, exp := nbit (fieldLE iv 1 1) 1
              cmode := fieldLE iv 1 1 / 4 % 4, ext := fieldLE iv 2 1 % 8 } →
      hdr.ext = 0 → q.bytes (t.lineAddr (dCtx r.d)) 64 = some b → b.length = 64 → allZero b = true → t.ctx.cache = [] →
      exec (.ctxCreate id) s = .next (((t.dropInline (dCtx r.d)).putLines r.id
        [(dCtx r.d, { hdr with owner := r.f, epoch := t.epoch r.f, version := 0 }, slice iv 8 8 ++ slice iv 4 4 ++ slice r.param 0 28)] []).commit
          q stOk 0).settle) ∧
    (∀ (p : Bytes) (k : Nat) (hdr : Hdr), dOp r.d = 0x84 → kwpUnwrap (q.key 0) r.param = some p → k = (dLen r.d - 72) / 40 →
      hdr = Hdr.ofNat (fieldLE p 0 8) →
      (importOk k p = false → exec (.ctxImport id) s = .next (t.fail q stFormatMismatch 0x0004).settle) ∧
      (importOk k p = true → q.bytes (t.lineAddr (dCtx r.d)) (64 * (1 + k)) = none → exec (.ctxImport id) s = .next (t.reread q).settle) ∧
      (importOk k p = true → q.bytes (t.lineAddr (dCtx r.d)) (64 * (1 + k)) ≠ none →
        (hdr.inline = false → exec (.ctxImport id) s = .next (t.installCtx q hdr (slice p 8 40) (p.drop 64)).settle) ∧
        (hdr.inline = true → exec (.ctxImport id) s = .next (t.withStates hdr.alg (fun s => s.installCtx q hdr (slice p 8 40)
          (overwrite (p.drop 64) 0 ((inlineArea hdr.alg (slice p 16 32)).take (40 * k))))).settle))) ∧
    (dOp r.d = 0x84 → kwpUnwrap (q.key 0) r.param = none → exec (.ctxImport id) s = .next (t.fail q stAuthFail 0).settle) ∧
    (∀ (u : State) (l : CLine), t.lookup q = .go u l →
      (dOp r.d = 0x71 → t.entNeed q ≤ r.got.length → exec (.randomKey id) s = .next (u.randomKey q l r.got).settle) ∧
      (dOp r.d = 0x82 → t.entNeed q ≤ r.got.length → exec (.ctxRotate id) s = .next (u.ctxRotate q l r.got).settle) ∧
      (dOp r.d = 0x85 → exec (.ctxSnapshot id) s
        = .next (u.commit { q with result := natLE 8 l.counter ++ natLE 8 l.memCtr ++ natLE 4 l.hdr.version
                                   seqUsed := l.counter % 2 ^ 32 } stOk 0).settle) ∧
      (dOp r.d = 0x81 → l.canWrite = true → exec (.ctxDestroy id) s = .next ((u.freeLines q l []).commit q stOk 0).settle) ∧
      (dOp r.d = 0x83 → dPbit r.d 8 = false →
        u.dstFail q 0 (kwpWrap (q.key 0) (natLE 8 ({ l.hdr with owner := 0, epoch := 0, version := 0 } : Hdr).toNat ++ natLE 8 l.counter
          ++ slice (u.lineKey l) 0 32 ++ zeros 16 ++ l.pay)).length = none → ∃ out : Bytes,
        out = kwpWrap (q.key 0) (natLE 8 ({ l.hdr with owner := 0, epoch := 0, version := 0 } : Hdr).toNat ++ natLE 8 l.counter
          ++ slice (u.lineKey l) 0 32 ++ zeros 16 ++ l.pay) ∧
        exec (.ctxExport id) s = .next ((u.writeData q 0 out).commit { q with outBytes := out.length } stOk 0).settle)) ∧
    (∀ l : CLine, dOp r.d = 0x86 → t.ctx.cache = [l] → dPbit r.d 8 = true → l.hdr.owner = r.f →
      (l.dirty = false ∨ l.canPut (if l.res then l.work else l.memCtr) l.pay = true →
        exec (.ctxFlush id) s = .next ((((t.evict l (.ctxOp r.id l.h)).dropInline l.h).commit q stOk 0)).settle) ∧
      (l.dirty = true → l.canPut (if l.res then l.work else l.memCtr) l.pay = false →
        exec (.ctxFlush id) s = .next (t.fail q stSeqExhausted 0).settle))

/-- R465, R471: a turn of the palette gives the waiting request whose turn it is the oldest bytes, in order and at most 64 of them; a
RANDOM_FILL writes them behind the bytes that it has, and is committed with the last one. -/
def Obligations.EntropyTurnFillsTheRequest : Prop :=
  ∀ (s t : State) (r : Req) (k : Nat), s.ent.state ≠ 6 → s.entTurn = some r → dOp r.d = 0x70 → r.got.length < dLen r.d →
    k = min (min 64 (dLen r.d - r.got.length)) s.palBytes → 0 < k →
    t = { s with ent := { s.ent with pal := palDrop k s.ent.pal, palOff := palOffAfter k s.ent.palOff s.ent.pal, turn := r.adm } } →
    (s.ent.pal.flatten.take k).length = k ∧ (palDrop k s.ent.pal).flatten = s.ent.pal.flatten.drop k ∧
    (t.dstFail r r.got.length k = none → r.got.length + k < dLen r.d → ∃ q : Req,
      q = { r with got := r.got ++ s.ent.pal.flatten.take k, written := r.got.length + k, entWaits := true } ∧
      s.serveOne = some ((t.setReq q).writeData q r.got.length (s.ent.pal.flatten.take k))) ∧
    (t.dstFail r r.got.length k = none → r.got.length + k = dLen r.d → ∃ q : Req,
      q = { r with got := r.got ++ s.ent.pal.flatten.take k, written := dLen r.d, entWaits := false } ∧
      s.serveOne = some (((t.setReq q).writeData q r.got.length (s.ent.pal.flatten.take k)).commit
        { q with entWaits := r.entWaits, outBytes := dLen r.d } stOk 0))

-- the block as a whole -----------------------------------------------------------------------------------------------------------------

/-- A step with a command at the front of the queue is that command's effect on the state with the queue's rest. That an empty queue lets
one tick of `aon_clk` pass is the model's choice (log entry 1): the count of ticks rises while `por_n` is high, and nothing moves while
it is low. -/
def Obligations.StepRunsTheFrontCommand : Prop :=
  (∀ (s : State) (c : Instr) (rest : List Instr), s.pending = c :: rest → step s = exec c { s with pending := rest }) ∧
  (∀ s : State, s.pending = [] → s.blk.porLow = true → step s = .next s) ∧
  (∀ s : State, s.pending = [] → s.blk.porLow = false → ∃ u : State, step s = .next u.settle ∧
    u.ticks = s.ticks + 1 ∧ s.time.count ≤ u.time.count)

/-- No step stops, and each takes exactly one command, the first, off the queue: commands are carried out first in, first out. -/
def Obligations.EveryStepTakesOneCommandInOrder : Prop :=
  ∀ s : State, ∃ t : State, step s = .next t ∧ t.pending = s.pending.tail

/-- R40, R79, R112, R520: the state after reset is sound: its tables are canonical, nothing is outstanding, M alone is enabled, every register
reads its reset value, the tally store reads 0 with WEAR 0, and no clock or power is requested. -/
def Obligations.ResetStateIsSound : Prop :=
  State.reset.Sound ∧ State.reset.pending = [] ∧ State.reset.blk.st = .reset ∧
  (∀ f, (State.reset.fn f).enabled = (f == 16) ∧ (State.reset.fn f).halted = false ∧ (State.reset.fn f).resetting = false) ∧
  (∀ (n : RegName) (i j : Nat), State.reset.reg n i j = regDefault (regKey n i j)) ∧
  (∀ i, State.reset.tlyVal i = 0 ∧ State.reset.tlyWearOf i = 0) ∧
  State.reset.pwr.clkReq = 0 ∧ (∀ i, (State.reset.isl i).req = false) ∧ State.reset.ent.state = 0 ∧ State.reset.now = 0

/-- R45, R50, R59, R524: every step keeps a sound state sound: the tables stay canonical, an ERROR response carries no data, the outstanding
transactions of a port keep distinct numbers within its limits, at most four key-lift requests are owed an answer, and at most 16
tally writes are queued. -/
def Obligations.EveryStepKeepsTheStateSound : Prop :=
  ∀ s t : State, s.Sound → step s = .next t → t.Sound

/-- The column value of data bit `i` (R497): the (i + 1)-th smallest integer from 3 to 255 that is not a power of two. -/
def columnValue (i : Nat) : Nat :=
  ((List.range 256).filter (fun v => decide (3 ≤ v) && [4, 8, 16, 32, 64, 128].all (· != v))).getD i 0

/-- R499: the reader's outcome by the parity s_P of all 137 bits and the syndrome s_H, for every word, check bits and word number. R497, R498: a
word read at its own address as it was written is good, one inverted data bit is corrected, two are uncorrectable, and so is a word from
an address with another key. -/
def Obligations.WordReaderFollowsTheSyndromeTable : Prop :=
  ∀ (w : Nat) (d : BitVec 128) (c c' : BitVec 9) (sH : Nat) (sP : Bool), c' = c ^^^ wordKey w →
    sH = Nat.xor ((wordCode d).toNat % 256) (c'.toNat % 256) → sP = (parity128 d != parity128 (c'.setWidth 128)) →
    (sP = false → sH = 0 → readWord w d c = .good d) ∧
    (∀ i < 128, sP = true → sH = columnValue i → readWord w d c = .corrected (d ^^^ BitVec.ofNat 128 (2 ^ i))) ∧
    (∀ j < 8, sP = true → sH = 2 ^ j → readWord w d c = .corrected d) ∧
    (sP = true → sH = 0 → readWord w d c = .corrected d) ∧
    (sP = true → sH ≠ 0 → (∀ i < 128, sH ≠ columnValue i) → (∀ j < 8, sH ≠ 2 ^ j) → readWord w d c = .bad) ∧
    (sP = false → sH ≠ 0 → readWord w d c = .bad) ∧
    readWord w d (storedCode w d) = .good d ∧
    (∀ i < 128, readWord w (d ^^^ BitVec.ofNat 128 (2 ^ i)) (storedCode w d) = .corrected d) ∧
    (∀ i < 128, ∀ j < 128, i ≠ j →
      readWord w (d ^^^ BitVec.ofNat 128 (2 ^ i) ^^^ BitVec.ofNat 128 (2 ^ j)) (storedCode w d) = .bad) ∧
    (∀ v : Nat, wordKey v ≠ wordKey w → readWord v d (storedCode w d) = .bad)
end

