-- ==== Sys2Proof/Laws/Table.lean ====
section
/-! SUPPORT. Sparse tables: what a write changes, and that every operation keeps the canonical form. -/
namespace Sys2Proof.Machine

variable {α : Type}

/-- An element put in its place adds itself and nothing else. -/
theorem putBy_perm (le : α → α → Bool) (x : α) (l : List α) : (putBy le x l).Perm (x :: l) := by
  induction l with
  | nil => exact .refl _
  | cons y t ih =>
    unfold putBy
    split
    · exact .refl _
    · exact (List.Perm.cons y ih).trans (.swap x y t)

/-- Sorting keeps every element. -/
theorem sortBy_perm (le : α → α → Bool) (l : List α) : (sortBy le l).Perm l := by
  induction l with
  | nil => exact .refl _
  | cons x t ih => exact (putBy_perm le x _).trans (.cons x ih)

@[simp] theorem mem_sortBy (le : α → α → Bool) (l : List α) (x : α) : x ∈ sortBy le l ↔ x ∈ l := (sortBy_perm le l).mem_iff

@[simp] theorem tget_nil (d : Nat → α) (i : Nat) : tget d [] i = d i := rfl

/-- An erased key reads as the default. -/
@[simp] theorem tget_terase_self (d : Nat → α) (t : Tbl α) (i : Nat) : tget d (terase i t) i = d i := by
  induction t with
  | nil => rfl
  | cons e t ih => by_cases h : e.1 = i <;> simp [terase, tget, h, ih]

/-- Erasing a key leaves the others. -/
theorem tget_terase_ne (d : Nat → α) (t : Tbl α) {i j : Nat} (h : j ≠ i) : tget d (terase i t) j = tget d t j := by
  induction t with
  | nil => rfl
  | cons e t ih =>
    by_cases h1 : e.1 = i
    · simp [terase, tget, h1, ih, Ne.symm h]
    · by_cases h2 : e.1 = j
      · subst h2; simp [terase, tget, h]
      · simp [terase, tget, h1, h2, ih]

/-- Keys of a table without key `i`. -/
theorem terase_key_ne (t : Tbl α) (i : Nat) : ∀ e ∈ terase i t, e.1 ≠ i := by
  induction t with
  | nil => simp [terase]
  | cons e t ih =>
    by_cases h : e.1 = i
    · simpa [terase, h] using ih
    · simpa [terase, h] using ih

/-- An inserted key reads as its value, where it was not there. -/
theorem tget_tinsert_self (d : Nat → α) (t : Tbl α) (i : Nat) (x : α) (h : ∀ e ∈ t, e.1 ≠ i) : tget d (tinsert i x t) i = x := by
  induction t with
  | nil => simp [tinsert, tget]
  | cons e t ih =>
    have h1 : e.1 ≠ i := h e (by simp)
    by_cases h2 : i < e.1
    · simp [tinsert, tget, h2]
    · simp [tinsert, tget, h2, h1, ih (fun e he => h e (by simp [he]))]

/-- Inserting a key leaves the others. -/
theorem tget_tinsert_ne (d : Nat → α) (t : Tbl α) {i j : Nat} (x : α) (h : j ≠ i) : tget d (tinsert i x t) j = tget d t j := by
  induction t with
  | nil => simp [tinsert, tget, Ne.symm h]
  | cons e t ih =>
    by_cases h2 : i < e.1
    · simp [tinsert, tget, h2, Ne.symm h]
    · by_cases h3 : e.1 = j
      · subst h3; simp [tinsert, tget, h2]
      · simp [tinsert, tget, h2, h3, ih]

/-- A read after a write of the same key. -/
@[simp] theorem tget_tset_self [DecidableEq α] (d : Nat → α) (t : Tbl α) (i : Nat) (x : α) : tget d (tset d t i x) i = x := by
  unfold tset
  split
  · next h => simp [h]
  · exact tget_tinsert_self d _ i x (terase_key_ne t i)

/-- A write leaves every other key. -/
theorem tget_tset_ne [DecidableEq α] (d : Nat → α) (t : Tbl α) {i j : Nat} (x : α) (h : j ≠ i) :
    tget d (tset d t i x) j = tget d t j := by
  unfold tset
  split
  · exact tget_terase_ne d t h
  · rw [tget_tinsert_ne d _ x h, tget_terase_ne d t h]

/-- A read after a write, by cases on the key. -/
theorem tget_tset [DecidableEq α] (d : Nat → α) (t : Tbl α) (i j : Nat) (x : α) :
    tget d (tset d t i x) j = if j = i then x else tget d t j := by
  split
  · next h => subst h; simp
  · next h => exact tget_tset_ne d t x h

-- the canonical form ------------------------------------------------------------------------------------------------------

/-- A key above every key of a table stays so when a key is erased. -/
theorem tabove_terase {k : Nat} {t : Tbl α} (i : Nat) (h : tabove k t = true) : tabove k (terase i t) = true := by
  induction t with
  | nil => simp [terase, tabove]
  | cons e t ih =>
    simp only [tabove, List.all_cons, Bool.and_eq_true] at h
    have := ih (by simpa [tabove] using h.2)
    by_cases h1 : e.1 = i
    · simpa [terase, h1] using this
    · have h3 := h.1
      simp only [tabove] at this ⊢
      simp only [terase, h1, if_false, List.all_cons, this, Bool.and_true]
      exact h3

/-- A key above every key of a table stays so when a higher one is inserted. -/
theorem tabove_tinsert {k i : Nat} {t : Tbl α} {x : α} (h : tabove k t = true) (hk : k < i) : tabove k (tinsert i x t) = true := by
  induction t with
  | nil => simp [tinsert, tabove, hk]
  | cons e t ih =>
    simp only [tabove, List.all_cons, Bool.and_eq_true, decide_eq_true_eq] at h
    by_cases h2 : i < e.1
    · simp [tinsert, tabove, h2, hk, h.1]
      simpa [tabove] using h.2
    · have := ih (by simpa [tabove] using h.2)
      simp only [tabove] at this
      simp only [tinsert, h2, if_false, tabove, List.all_cons, this, Bool.and_true, decide_eq_true_eq]
      exact h.1

/-- A lower key lies below whatever a higher one lies below. -/
theorem tabove_mono {i k : Nat} {t : Tbl α} (h : tabove k t = true) (hk : i < k) : tabove i t = true := by
  simp only [tabove, List.all_eq_true, decide_eq_true_eq] at h ⊢
  exact fun e he => Nat.lt_trans hk (h e he)

variable [DecidableEq α]

/-- Erasing keeps the canonical form. -/
theorem wf_terase {d : Nat → α} {t : Tbl α} (i : Nat) (h : Tbl.wf d t = true) : Tbl.wf d (terase i t) = true := by
  induction t with
  | nil => rfl
  | cons e t ih =>
    simp only [Tbl.wf, Bool.and_eq_true, decide_eq_true_eq] at h
    by_cases h1 : e.1 = i
    · simpa [terase, h1] using ih h.2
    · simp only [terase, h1, if_false, Tbl.wf, Bool.and_eq_true, decide_eq_true_eq]
      exact ⟨⟨h.1.1, tabove_terase i h.1.2⟩, ih h.2⟩

/-- Inserting a value that is not the default keeps the canonical form, where the key was not there. -/
theorem wf_tinsert {d : Nat → α} {t : Tbl α} {i : Nat} {x : α} (h : Tbl.wf d t = true) (hi : ∀ e ∈ t, e.1 ≠ i) (hx : x ≠ d i) :
    Tbl.wf d (tinsert i x t) = true := by
  induction t with
  | nil => simp [tinsert, Tbl.wf, tabove, hx]
  | cons e t ih =>
    simp only [Tbl.wf, Bool.and_eq_true, decide_eq_true_eq] at h
    have hne : e.1 ≠ i := hi e (by simp)
    by_cases h2 : i < e.1
    · simp only [tinsert, h2, if_true, Tbl.wf, Bool.and_eq_true, decide_eq_true_eq]
      refine ⟨⟨hx, ?_⟩, h.1, h.2⟩
      have := tabove_mono h.1.2 h2
      simp only [tabove] at this
      simp [tabove, h2, this]
    · simp only [tinsert, h2, if_false, Tbl.wf, Bool.and_eq_true, decide_eq_true_eq]
      exact ⟨⟨h.1.1, tabove_tinsert h.1.2 (by omega)⟩, ih h.2 (fun e he => hi e (by simp [he]))⟩

/-- A write keeps the canonical form. -/
theorem wf_tset {d : Nat → α} {t : Tbl α} (i : Nat) (x : α) (h : Tbl.wf d t = true) : Tbl.wf d (tset d t i x) = true := by
  unfold tset
  split
  · exact wf_terase i h
  · next hx => exact wf_tinsert (wf_terase i h) (terase_key_ne t i) hx

/-- Keeping some of the entries keeps the canonical form. -/
theorem wf_filter {d : Nat → α} {t : Tbl α} (p : Nat × α → Bool) (h : Tbl.wf d t = true) : Tbl.wf d (t.filter p) = true := by
  induction t with
  | nil => rfl
  | cons e t ih =>
    simp only [Tbl.wf, Bool.and_eq_true, decide_eq_true_eq] at h
    by_cases hp : p e
    · simp only [List.filter_cons, hp, if_true, Tbl.wf, Bool.and_eq_true, decide_eq_true_eq]
      refine ⟨⟨h.1.1, ?_⟩, ih h.2⟩
      simp only [tabove, List.all_eq_true, decide_eq_true_eq] at h ⊢
      exact fun x hx => h.1.2 x (List.mem_of_mem_filter hx)
    · simpa [List.filter_cons, hp] using ih h.2

/-- Changing or dropping entries under their keys keeps the canonical form, where what is left is not the default. -/
theorem wf_filterMap {d : Nat → α} {t : Tbl α} (g : Nat × α → Option (Nat × α)) (h : Tbl.wf d t = true)
    (hg : ∀ e ∈ t, ∀ y, g e = some y → y.1 = e.1 ∧ y.2 ≠ d y.1) : Tbl.wf d (t.filterMap g) = true := by
  induction t with
  | nil => rfl
  | cons e t ih =>
    simp only [Tbl.wf, Bool.and_eq_true, decide_eq_true_eq] at h
    have ht := ih h.2 (fun x hx => hg x (by simp [hx]))
    cases hy : g e with
    | none => simpa [List.filterMap_cons, hy] using ht
    | some y =>
      have hk := hg e (by simp) y hy
      simp only [List.filterMap_cons, hy, Tbl.wf, Bool.and_eq_true, decide_eq_true_eq]
      refine ⟨⟨hk.2, ?_⟩, ht⟩
      simp only [tabove, List.all_eq_true, decide_eq_true_eq] at h ⊢
      intro x hx
      obtain ⟨z, hz, hzx⟩ := List.mem_filterMap.1 hx
      have h1 := (hg z (by simp [hz]) x hzx).1
      have h2 := h.1.2 z hz
      rw [h1, hk.1]; exact h2

/-- Changing entries under their keys keeps the canonical form, where none becomes the default. -/
theorem wf_map {d : Nat → α} {t : Tbl α} (g : Nat × α → α) (h : Tbl.wf d t = true) (hg : ∀ e ∈ t, g e ≠ d e.1) :
    Tbl.wf d (t.map (fun e => (e.1, g e))) = true := by
  have := wf_filterMap (fun e => some (e.1, g e)) h (fun e he y hy => by
    cases hy; exact ⟨rfl, hg e he⟩)
  simpa [List.filterMap_eq_map'] using this

end Sys2Proof.Machine
end

