-- ==== Sys2Proof/Laws/State.lean ====
section
/-! SUPPORT. What each named update of the state leaves as it was, field by field, and what reading after a write gives. -/
namespace Sys2Proof.Machine

variable (s : State)

-- setReg
@[simp] theorem State.setReg_pending (n : RegName) (i j : Nat) (v : Word) : (s.setReg n i j v).pending = s.pending := by unfold State.setReg; rfl
@[simp] theorem State.setReg_blk (n : RegName) (i j : Nat) (v : Word) : (s.setReg n i j v).blk = s.blk := by unfold State.setReg; rfl
@[simp] theorem State.setReg_pwr (n : RegName) (i j : Nat) (v : Word) : (s.setReg n i j v).pwr = s.pwr := by unfold State.setReg; rfl
@[simp] theorem State.setReg_port (n : RegName) (i j : Nat) (v : Word) : (s.setReg n i j v).port = s.port := by unfold State.setReg; rfl
@[simp] theorem State.setReg_fab (n : RegName) (i j : Nat) (v : Word) : (s.setReg n i j v).fab = s.fab := by unfold State.setReg; rfl
@[simp] theorem State.setReg_kl (n : RegName) (i j : Nat) (v : Word) : (s.setReg n i j v).kl = s.kl := by unfold State.setReg; rfl
@[simp] theorem State.setReg_primer (n : RegName) (i j : Nat) (v : Word) : (s.setReg n i j v).primer = s.primer := by unfold State.setReg; rfl
@[simp] theorem State.setReg_time (n : RegName) (i j : Nat) (v : Word) : (s.setReg n i j v).time = s.time := by unfold State.setReg; rfl
@[simp] theorem State.setReg_flt (n : RegName) (i j : Nat) (v : Word) : (s.setReg n i j v).flt = s.flt := by unfold State.setReg; rfl
@[simp] theorem State.setReg_tly (n : RegName) (i j : Nat) (v : Word) : (s.setReg n i j v).tly = s.tly := by unfold State.setReg; rfl
@[simp] theorem State.setReg_fns (n : RegName) (i j : Nat) (v : Word) : (s.setReg n i j v).fns = s.fns := by unfold State.setReg; rfl
@[simp] theorem State.setReg_vpend (n : RegName) (i j : Nat) (v : Word) : (s.setReg n i j v).vpend = s.vpend := by unfold State.setReg; rfl
@[simp] theorem State.setReg_rings (n : RegName) (i j : Nat) (v : Word) : (s.setReg n i j v).rings = s.rings := by unfold State.setReg; rfl
@[simp] theorem State.setReg_reqs (n : RegName) (i j : Nat) (v : Word) : (s.setReg n i j v).reqs = s.reqs := by unfold State.setReg; rfl
@[simp] theorem State.setReg_sched (n : RegName) (i j : Nat) (v : Word) : (s.setReg n i j v).sched = s.sched := by unfold State.setReg; rfl
@[simp] theorem State.setReg_gate (n : RegName) (i j : Nat) (v : Word) : (s.setReg n i j v).gate = s.gate := by unfold State.setReg; rfl
@[simp] theorem State.setReg_ctx (n : RegName) (i j : Nat) (v : Word) : (s.setReg n i j v).ctx = s.ctx := by unfold State.setReg; rfl
@[simp] theorem State.setReg_lanes (n : RegName) (i j : Nat) (v : Word) : (s.setReg n i j v).lanes = s.lanes := by unfold State.setReg; rfl
@[simp] theorem State.setReg_reserve (n : RegName) (i j : Nat) (v : Word) : (s.setReg n i j v).reserve = s.reserve := by unfold State.setReg; rfl
@[simp] theorem State.setReg_digs (n : RegName) (i j : Nat) (v : Word) : (s.setReg n i j v).digs = s.digs := by unfold State.setReg; rfl
@[simp] theorem State.setReg_gal (n : RegName) (i j : Nat) (v : Word) : (s.setReg n i j v).gal = s.gal := by unfold State.setReg; rfl
@[simp] theorem State.setReg_easels (n : RegName) (i j : Nat) (v : Word) : (s.setReg n i j v).easels = s.easels := by unfold State.setReg; rfl
@[simp] theorem State.setReg_tables (n : RegName) (i j : Nat) (v : Word) : (s.setReg n i j v).tables = s.tables := by unfold State.setReg; rfl
@[simp] theorem State.setReg_ent (n : RegName) (i j : Nat) (v : Word) : (s.setReg n i j v).ent = s.ent := by unfold State.setReg; rfl
@[simp] theorem State.setReg_bist (n : RegName) (i j : Nat) (v : Word) : (s.setReg n i j v).bist = s.bist := by unfold State.setReg; rfl
@[simp] theorem State.setReg_age (n : RegName) (i j : Nat) (v : Word) : (s.setReg n i j v).age = s.age := by unfold State.setReg; rfl
@[simp] theorem State.setReg_ticks (n : RegName) (i j : Nat) (v : Word) : (s.setReg n i j v).ticks = s.ticks := by unfold State.setReg; rfl
@[simp] theorem State.setReg_runLane (n : RegName) (i j : Nat) (v : Word) : (s.setReg n i j v).runLane = s.runLane := by unfold State.setReg; rfl
@[simp] theorem State.setReg_runDig (n : RegName) (i j : Nat) (v : Word) : (s.setReg n i j v).runDig = s.runDig := by unfold State.setReg; rfl
@[simp] theorem State.setReg_runPke (n : RegName) (i j : Nat) (v : Word) : (s.setReg n i j v).runPke = s.runPke := by unfold State.setReg; rfl
@[simp] theorem State.setReg_busyRest (n : RegName) (i j : Nat) (v : Word) : (s.setReg n i j v).busyRest = s.busyRest := by unfold State.setReg; rfl
@[simp] theorem State.setReg_free (n : RegName) (i j : Nat) (v : Word) : (s.setReg n i j v).free = s.free := by unfold State.setReg; rfl
@[simp] theorem State.setReg_nextId (n : RegName) (i j : Nat) (v : Word) : (s.setReg n i j v).nextId = s.nextId := by unfold State.setReg; rfl

-- bump
@[simp] theorem State.bump_pending (n : RegName) (i j : Nat) : (s.bump n i j).pending = s.pending := by unfold State.bump; simp
@[simp] theorem State.bump_blk (n : RegName) (i j : Nat) : (s.bump n i j).blk = s.blk := by unfold State.bump; simp
@[simp] theorem State.bump_pwr (n : RegName) (i j : Nat) : (s.bump n i j).pwr = s.pwr := by unfold State.bump; simp
@[simp] theorem State.bump_port (n : RegName) (i j : Nat) : (s.bump n i j).port = s.port := by unfold State.bump; simp
@[simp] theorem State.bump_fab (n : RegName) (i j : Nat) : (s.bump n i j).fab = s.fab := by unfold State.bump; simp
@[simp] theorem State.bump_kl (n : RegName) (i j : Nat) : (s.bump n i j).kl = s.kl := by unfold State.bump; simp
@[simp] theorem State.bump_primer (n : RegName) (i j : Nat) : (s.bump n i j).primer = s.primer := by unfold State.bump; simp
@[simp] theorem State.bump_time (n : RegName) (i j : Nat) : (s.bump n i j).time = s.time := by unfold State.bump; simp
@[simp] theorem State.bump_flt (n : RegName) (i j : Nat) : (s.bump n i j).flt = s.flt := by unfold State.bump; simp
@[simp] theorem State.bump_tly (n : RegName) (i j : Nat) : (s.bump n i j).tly = s.tly := by unfold State.bump; simp
@[simp] theorem State.bump_fns (n : RegName) (i j : Nat) : (s.bump n i j).fns = s.fns := by unfold State.bump; simp
@[simp] theorem State.bump_vpend (n : RegName) (i j : Nat) : (s.bump n i j).vpend = s.vpend := by unfold State.bump; simp
@[simp] theorem State.bump_rings (n : RegName) (i j : Nat) : (s.bump n i j).rings = s.rings := by unfold State.bump; simp
@[simp] theorem State.bump_reqs (n : RegName) (i j : Nat) : (s.bump n i j).reqs = s.reqs := by unfold State.bump; simp
@[simp] theorem State.bump_sched (n : RegName) (i j : Nat) : (s.bump n i j).sched = s.sched := by unfold State.bump; simp
@[simp] theorem State.bump_gate (n : RegName) (i j : Nat) : (s.bump n i j).gate = s.gate := by unfold State.bump; simp
@[simp] theorem State.bump_ctx (n : RegName) (i j : Nat) : (s.bump n i j).ctx = s.ctx := by unfold State.bump; simp
@[simp] theorem State.bump_lanes (n : RegName) (i j : Nat) : (s.bump n i j).lanes = s.lanes := by unfold State.bump; simp
@[simp] theorem State.bump_reserve (n : RegName) (i j : Nat) : (s.bump n i j).reserve = s.reserve := by unfold State.bump; simp
@[simp] theorem State.bump_digs (n : RegName) (i j : Nat) : (s.bump n i j).digs = s.digs := by unfold State.bump; simp
@[simp] theorem State.bump_gal (n : RegName) (i j : Nat) : (s.bump n i j).gal = s.gal := by unfold State.bump; simp
@[simp] theorem State.bump_easels (n : RegName) (i j : Nat) : (s.bump n i j).easels = s.easels := by unfold State.bump; simp
@[simp] theorem State.bump_tables (n : RegName) (i j : Nat) : (s.bump n i j).tables = s.tables := by unfold State.bump; simp
@[simp] theorem State.bump_ent (n : RegName) (i j : Nat) : (s.bump n i j).ent = s.ent := by unfold State.bump; simp
@[simp] theorem State.bump_bist (n : RegName) (i j : Nat) : (s.bump n i j).bist = s.bist := by unfold State.bump; simp
@[simp] theorem State.bump_age (n : RegName) (i j : Nat) : (s.bump n i j).age = s.age := by unfold State.bump; simp
@[simp] theorem State.bump_ticks (n : RegName) (i j : Nat) : (s.bump n i j).ticks = s.ticks := by unfold State.bump; simp
@[simp] theorem State.bump_runLane (n : RegName) (i j : Nat) : (s.bump n i j).runLane = s.runLane := by unfold State.bump; simp
@[simp] theorem State.bump_runDig (n : RegName) (i j : Nat) : (s.bump n i j).runDig = s.runDig := by unfold State.bump; simp
@[simp] theorem State.bump_runPke (n : RegName) (i j : Nat) : (s.bump n i j).runPke = s.runPke := by unfold State.bump; simp
@[simp] theorem State.bump_busyRest (n : RegName) (i j : Nat) : (s.bump n i j).busyRest = s.busyRest := by unfold State.bump; simp
@[simp] theorem State.bump_free (n : RegName) (i j : Nat) : (s.bump n i j).free = s.free := by unfold State.bump; simp
@[simp] theorem State.bump_nextId (n : RegName) (i j : Nat) : (s.bump n i j).nextId = s.nextId := by unfold State.bump; simp

-- bumpSat
@[simp] theorem State.bumpSat_pending (n : RegName) (i j k : Nat) : (s.bumpSat n i j k).pending = s.pending := by unfold State.bumpSat; simp
@[simp] theorem State.bumpSat_blk (n : RegName) (i j k : Nat) : (s.bumpSat n i j k).blk = s.blk := by unfold State.bumpSat; simp
@[simp] theorem State.bumpSat_pwr (n : RegName) (i j k : Nat) : (s.bumpSat n i j k).pwr = s.pwr := by unfold State.bumpSat; simp
@[simp] theorem State.bumpSat_port (n : RegName) (i j k : Nat) : (s.bumpSat n i j k).port = s.port := by unfold State.bumpSat; simp
@[simp] theorem State.bumpSat_fab (n : RegName) (i j k : Nat) : (s.bumpSat n i j k).fab = s.fab := by unfold State.bumpSat; simp
@[simp] theorem State.bumpSat_kl (n : RegName) (i j k : Nat) : (s.bumpSat n i j k).kl = s.kl := by unfold State.bumpSat; simp
@[simp] theorem State.bumpSat_primer (n : RegName) (i j k : Nat) : (s.bumpSat n i j k).primer = s.primer := by unfold State.bumpSat; simp
@[simp] theorem State.bumpSat_time (n : RegName) (i j k : Nat) : (s.bumpSat n i j k).time = s.time := by unfold State.bumpSat; simp
@[simp] theorem State.bumpSat_flt (n : RegName) (i j k : Nat) : (s.bumpSat n i j k).flt = s.flt := by unfold State.bumpSat; simp
@[simp] theorem State.bumpSat_tly (n : RegName) (i j k : Nat) : (s.bumpSat n i j k).tly = s.tly := by unfold State.bumpSat; simp
@[simp] theorem State.bumpSat_fns (n : RegName) (i j k : Nat) : (s.bumpSat n i j k).fns = s.fns := by unfold State.bumpSat; simp
@[simp] theorem State.bumpSat_vpend (n : RegName) (i j k : Nat) : (s.bumpSat n i j k).vpend = s.vpend := by unfold State.bumpSat; simp
@[simp] theorem State.bumpSat_rings (n : RegName) (i j k : Nat) : (s.bumpSat n i j k).rings = s.rings := by unfold State.bumpSat; simp
@[simp] theorem State.bumpSat_reqs (n : RegName) (i j k : Nat) : (s.bumpSat n i j k).reqs = s.reqs := by unfold State.bumpSat; simp
@[simp] theorem State.bumpSat_sched (n : RegName) (i j k : Nat) : (s.bumpSat n i j k).sched = s.sched := by unfold State.bumpSat; simp
@[simp] theorem State.bumpSat_gate (n : RegName) (i j k : Nat) : (s.bumpSat n i j k).gate = s.gate := by unfold State.bumpSat; simp
@[simp] theorem State.bumpSat_ctx (n : RegName) (i j k : Nat) : (s.bumpSat n i j k).ctx = s.ctx := by unfold State.bumpSat; simp
@[simp] theorem State.bumpSat_lanes (n : RegName) (i j k : Nat) : (s.bumpSat n i j k).lanes = s.lanes := by unfold State.bumpSat; simp
@[simp] theorem State.bumpSat_reserve (n : RegName) (i j k : Nat) : (s.bumpSat n i j k).reserve = s.reserve := by unfold State.bumpSat; simp
@[simp] theorem State.bumpSat_digs (n : RegName) (i j k : Nat) : (s.bumpSat n i j k).digs = s.digs := by unfold State.bumpSat; simp
@[simp] theorem State.bumpSat_gal (n : RegName) (i j k : Nat) : (s.bumpSat n i j k).gal = s.gal := by unfold State.bumpSat; simp
@[simp] theorem State.bumpSat_easels (n : RegName) (i j k : Nat) : (s.bumpSat n i j k).easels = s.easels := by unfold State.bumpSat; simp
@[simp] theorem State.bumpSat_tables (n : RegName) (i j k : Nat) : (s.bumpSat n i j k).tables = s.tables := by unfold State.bumpSat; simp
@[simp] theorem State.bumpSat_ent (n : RegName) (i j k : Nat) : (s.bumpSat n i j k).ent = s.ent := by unfold State.bumpSat; simp
@[simp] theorem State.bumpSat_bist (n : RegName) (i j k : Nat) : (s.bumpSat n i j k).bist = s.bist := by unfold State.bumpSat; simp
@[simp] theorem State.bumpSat_age (n : RegName) (i j k : Nat) : (s.bumpSat n i j k).age = s.age := by unfold State.bumpSat; simp
@[simp] theorem State.bumpSat_ticks (n : RegName) (i j k : Nat) : (s.bumpSat n i j k).ticks = s.ticks := by unfold State.bumpSat; simp
@[simp] theorem State.bumpSat_runLane (n : RegName) (i j k : Nat) : (s.bumpSat n i j k).runLane = s.runLane := by unfold State.bumpSat; simp
@[simp] theorem State.bumpSat_runDig (n : RegName) (i j k : Nat) : (s.bumpSat n i j k).runDig = s.runDig := by unfold State.bumpSat; simp
@[simp] theorem State.bumpSat_runPke (n : RegName) (i j k : Nat) : (s.bumpSat n i j k).runPke = s.runPke := by unfold State.bumpSat; simp
@[simp] theorem State.bumpSat_busyRest (n : RegName) (i j k : Nat) : (s.bumpSat n i j k).busyRest = s.busyRest := by unfold State.bumpSat; simp
@[simp] theorem State.bumpSat_free (n : RegName) (i j k : Nat) : (s.bumpSat n i j k).free = s.free := by unfold State.bumpSat; simp
@[simp] theorem State.bumpSat_nextId (n : RegName) (i j k : Nat) : (s.bumpSat n i j k).nextId = s.nextId := by unfold State.bumpSat; simp

-- setFn
@[simp] theorem State.setFn_pending (f : Nat) (x : Fn) : (s.setFn f x).pending = s.pending := by unfold State.setFn; rfl
@[simp] theorem State.setFn_blk (f : Nat) (x : Fn) : (s.setFn f x).blk = s.blk := by unfold State.setFn; rfl
@[simp] theorem State.setFn_pwr (f : Nat) (x : Fn) : (s.setFn f x).pwr = s.pwr := by unfold State.setFn; rfl
@[simp] theorem State.setFn_port (f : Nat) (x : Fn) : (s.setFn f x).port = s.port := by unfold State.setFn; rfl
@[simp] theorem State.setFn_regs (f : Nat) (x : Fn) : (s.setFn f x).regs = s.regs := by unfold State.setFn; rfl
@[simp] theorem State.setFn_fab (f : Nat) (x : Fn) : (s.setFn f x).fab = s.fab := by unfold State.setFn; rfl
@[simp] theorem State.setFn_kl (f : Nat) (x : Fn) : (s.setFn f x).kl = s.kl := by unfold State.setFn; rfl
@[simp] theorem State.setFn_primer (f : Nat) (x : Fn) : (s.setFn f x).primer = s.primer := by unfold State.setFn; rfl
@[simp] theorem State.setFn_time (f : Nat) (x : Fn) : (s.setFn f x).time = s.time := by unfold State.setFn; rfl
@[simp] theorem State.setFn_flt (f : Nat) (x : Fn) : (s.setFn f x).flt = s.flt := by unfold State.setFn; rfl
@[simp] theorem State.setFn_tly (f : Nat) (x : Fn) : (s.setFn f x).tly = s.tly := by unfold State.setFn; rfl
@[simp] theorem State.setFn_vpend (f : Nat) (x : Fn) : (s.setFn f x).vpend = s.vpend := by unfold State.setFn; rfl
@[simp] theorem State.setFn_rings (f : Nat) (x : Fn) : (s.setFn f x).rings = s.rings := by unfold State.setFn; rfl
@[simp] theorem State.setFn_reqs (f : Nat) (x : Fn) : (s.setFn f x).reqs = s.reqs := by unfold State.setFn; rfl
@[simp] theorem State.setFn_sched (f : Nat) (x : Fn) : (s.setFn f x).sched = s.sched := by unfold State.setFn; rfl
@[simp] theorem State.setFn_gate (f : Nat) (x : Fn) : (s.setFn f x).gate = s.gate := by unfold State.setFn; rfl
@[simp] theorem State.setFn_ctx (f : Nat) (x : Fn) : (s.setFn f x).ctx = s.ctx := by unfold State.setFn; rfl
@[simp] theorem State.setFn_lanes (f : Nat) (x : Fn) : (s.setFn f x).lanes = s.lanes := by unfold State.setFn; rfl
@[simp] theorem State.setFn_reserve (f : Nat) (x : Fn) : (s.setFn f x).reserve = s.reserve := by unfold State.setFn; rfl
@[simp] theorem State.setFn_digs (f : Nat) (x : Fn) : (s.setFn f x).digs = s.digs := by unfold State.setFn; rfl
@[simp] theorem State.setFn_gal (f : Nat) (x : Fn) : (s.setFn f x).gal = s.gal := by unfold State.setFn; rfl
@[simp] theorem State.setFn_easels (f : Nat) (x : Fn) : (s.setFn f x).easels = s.easels := by unfold State.setFn; rfl
@[simp] theorem State.setFn_tables (f : Nat) (x : Fn) : (s.setFn f x).tables = s.tables := by unfold State.setFn; rfl
@[simp] theorem State.setFn_ent (f : Nat) (x : Fn) : (s.setFn f x).ent = s.ent := by unfold State.setFn; rfl
@[simp] theorem State.setFn_bist (f : Nat) (x : Fn) : (s.setFn f x).bist = s.bist := by unfold State.setFn; rfl
@[simp] theorem State.setFn_age (f : Nat) (x : Fn) : (s.setFn f x).age = s.age := by unfold State.setFn; rfl
@[simp] theorem State.setFn_ticks (f : Nat) (x : Fn) : (s.setFn f x).ticks = s.ticks := by unfold State.setFn; rfl
@[simp] theorem State.setFn_runLane (f : Nat) (x : Fn) : (s.setFn f x).runLane = s.runLane := by unfold State.setFn; rfl
@[simp] theorem State.setFn_runDig (f : Nat) (x : Fn) : (s.setFn f x).runDig = s.runDig := by unfold State.setFn; rfl
@[simp] theorem State.setFn_runPke (f : Nat) (x : Fn) : (s.setFn f x).runPke = s.runPke := by unfold State.setFn; rfl
@[simp] theorem State.setFn_busyRest (f : Nat) (x : Fn) : (s.setFn f x).busyRest = s.busyRest := by unfold State.setFn; rfl
@[simp] theorem State.setFn_free (f : Nat) (x : Fn) : (s.setFn f x).free = s.free := by unfold State.setFn; rfl
@[simp] theorem State.setFn_nextId (f : Nat) (x : Fn) : (s.setFn f x).nextId = s.nextId := by unfold State.setFn; rfl

-- setRing
@[simp] theorem State.setRing_pending (g : Nat) (x : Ring) : (s.setRing g x).pending = s.pending := by unfold State.setRing; rfl
@[simp] theorem State.setRing_blk (g : Nat) (x : Ring) : (s.setRing g x).blk = s.blk := by unfold State.setRing; rfl
@[simp] theorem State.setRing_pwr (g : Nat) (x : Ring) : (s.setRing g x).pwr = s.pwr := by unfold State.setRing; rfl
@[simp] theorem State.setRing_port (g : Nat) (x : Ring) : (s.setRing g x).port = s.port := by unfold State.setRing; rfl
@[simp] theorem State.setRing_regs (g : Nat) (x : Ring) : (s.setRing g x).regs = s.regs := by unfold State.setRing; rfl
@[simp] theorem State.setRing_fab (g : Nat) (x : Ring) : (s.setRing g x).fab = s.fab := by unfold State.setRing; rfl
@[simp] theorem State.setRing_kl (g : Nat) (x : Ring) : (s.setRing g x).kl = s.kl := by unfold State.setRing; rfl
@[simp] theorem State.setRing_primer (g : Nat) (x : Ring) : (s.setRing g x).primer = s.primer := by unfold State.setRing; rfl
@[simp] theorem State.setRing_time (g : Nat) (x : Ring) : (s.setRing g x).time = s.time := by unfold State.setRing; rfl
@[simp] theorem State.setRing_flt (g : Nat) (x : Ring) : (s.setRing g x).flt = s.flt := by unfold State.setRing; rfl
@[simp] theorem State.setRing_tly (g : Nat) (x : Ring) : (s.setRing g x).tly = s.tly := by unfold State.setRing; rfl
@[simp] theorem State.setRing_fns (g : Nat) (x : Ring) : (s.setRing g x).fns = s.fns := by unfold State.setRing; rfl
@[simp] theorem State.setRing_vpend (g : Nat) (x : Ring) : (s.setRing g x).vpend = s.vpend := by unfold State.setRing; rfl
@[simp] theorem State.setRing_reqs (g : Nat) (x : Ring) : (s.setRing g x).reqs = s.reqs := by unfold State.setRing; rfl
@[simp] theorem State.setRing_sched (g : Nat) (x : Ring) : (s.setRing g x).sched = s.sched := by unfold State.setRing; rfl
@[simp] theorem State.setRing_gate (g : Nat) (x : Ring) : (s.setRing g x).gate = s.gate := by unfold State.setRing; rfl
@[simp] theorem State.setRing_ctx (g : Nat) (x : Ring) : (s.setRing g x).ctx = s.ctx := by unfold State.setRing; rfl
@[simp] theorem State.setRing_lanes (g : Nat) (x : Ring) : (s.setRing g x).lanes = s.lanes := by unfold State.setRing; rfl
@[simp] theorem State.setRing_reserve (g : Nat) (x : Ring) : (s.setRing g x).reserve = s.reserve := by unfold State.setRing; rfl
@[simp] theorem State.setRing_digs (g : Nat) (x : Ring) : (s.setRing g x).digs = s.digs := by unfold State.setRing; rfl
@[simp] theorem State.setRing_gal (g : Nat) (x : Ring) : (s.setRing g x).gal = s.gal := by unfold State.setRing; rfl
@[simp] theorem State.setRing_easels (g : Nat) (x : Ring) : (s.setRing g x).easels = s.easels := by unfold State.setRing; rfl
@[simp] theorem State.setRing_tables (g : Nat) (x : Ring) : (s.setRing g x).tables = s.tables := by unfold State.setRing; rfl
@[simp] theorem State.setRing_ent (g : Nat) (x : Ring) : (s.setRing g x).ent = s.ent := by unfold State.setRing; rfl
@[simp] theorem State.setRing_bist (g : Nat) (x : Ring) : (s.setRing g x).bist = s.bist := by unfold State.setRing; rfl
@[simp] theorem State.setRing_age (g : Nat) (x : Ring) : (s.setRing g x).age = s.age := by unfold State.setRing; rfl
@[simp] theorem State.setRing_ticks (g : Nat) (x : Ring) : (s.setRing g x).ticks = s.ticks := by unfold State.setRing; rfl
@[simp] theorem State.setRing_runLane (g : Nat) (x : Ring) : (s.setRing g x).runLane = s.runLane := by unfold State.setRing; rfl
@[simp] theorem State.setRing_runDig (g : Nat) (x : Ring) : (s.setRing g x).runDig = s.runDig := by unfold State.setRing; rfl
@[simp] theorem State.setRing_runPke (g : Nat) (x : Ring) : (s.setRing g x).runPke = s.runPke := by unfold State.setRing; rfl
@[simp] theorem State.setRing_busyRest (g : Nat) (x : Ring) : (s.setRing g x).busyRest = s.busyRest := by unfold State.setRing; rfl
@[simp] theorem State.setRing_free (g : Nat) (x : Ring) : (s.setRing g x).free = s.free := by unfold State.setRing; rfl
@[simp] theorem State.setRing_nextId (g : Nat) (x : Ring) : (s.setRing g x).nextId = s.nextId := by unfold State.setRing; rfl

-- setLane
@[simp] theorem State.setLane_pending (n : Nat) (x : Eng) : (s.setLane n x).pending = s.pending := by unfold State.setLane; rfl
@[simp] theorem State.setLane_blk (n : Nat) (x : Eng) : (s.setLane n x).blk = s.blk := by unfold State.setLane; rfl
@[simp] theorem State.setLane_pwr (n : Nat) (x : Eng) : (s.setLane n x).pwr = s.pwr := by unfold State.setLane; rfl
@[simp] theorem State.setLane_port (n : Nat) (x : Eng) : (s.setLane n x).port = s.port := by unfold State.setLane; rfl
@[simp] theorem State.setLane_regs (n : Nat) (x : Eng) : (s.setLane n x).regs = s.regs := by unfold State.setLane; rfl
@[simp] theorem State.setLane_fab (n : Nat) (x : Eng) : (s.setLane n x).fab = s.fab := by unfold State.setLane; rfl
@[simp] theorem State.setLane_kl (n : Nat) (x : Eng) : (s.setLane n x).kl = s.kl := by unfold State.setLane; rfl
@[simp] theorem State.setLane_primer (n : Nat) (x : Eng) : (s.setLane n x).primer = s.primer := by unfold State.setLane; rfl
@[simp] theorem State.setLane_time (n : Nat) (x : Eng) : (s.setLane n x).time = s.time := by unfold State.setLane; rfl
@[simp] theorem State.setLane_flt (n : Nat) (x : Eng) : (s.setLane n x).flt = s.flt := by unfold State.setLane; rfl
@[simp] theorem State.setLane_tly (n : Nat) (x : Eng) : (s.setLane n x).tly = s.tly := by unfold State.setLane; rfl
@[simp] theorem State.setLane_fns (n : Nat) (x : Eng) : (s.setLane n x).fns = s.fns := by unfold State.setLane; rfl
@[simp] theorem State.setLane_vpend (n : Nat) (x : Eng) : (s.setLane n x).vpend = s.vpend := by unfold State.setLane; rfl
@[simp] theorem State.setLane_rings (n : Nat) (x : Eng) : (s.setLane n x).rings = s.rings := by unfold State.setLane; rfl
@[simp] theorem State.setLane_reqs (n : Nat) (x : Eng) : (s.setLane n x).reqs = s.reqs := by unfold State.setLane; rfl
@[simp] theorem State.setLane_sched (n : Nat) (x : Eng) : (s.setLane n x).sched = s.sched := by unfold State.setLane; rfl
@[simp] theorem State.setLane_gate (n : Nat) (x : Eng) : (s.setLane n x).gate = s.gate := by unfold State.setLane; rfl
@[simp] theorem State.setLane_ctx (n : Nat) (x : Eng) : (s.setLane n x).ctx = s.ctx := by unfold State.setLane; rfl
@[simp] theorem State.setLane_reserve (n : Nat) (x : Eng) : (s.setLane n x).reserve = s.reserve := by unfold State.setLane; rfl
@[simp] theorem State.setLane_digs (n : Nat) (x : Eng) : (s.setLane n x).digs = s.digs := by unfold State.setLane; rfl
@[simp] theorem State.setLane_gal (n : Nat) (x : Eng) : (s.setLane n x).gal = s.gal := by unfold State.setLane; rfl
@[simp] theorem State.setLane_easels (n : Nat) (x : Eng) : (s.setLane n x).easels = s.easels := by unfold State.setLane; rfl
@[simp] theorem State.setLane_tables (n : Nat) (x : Eng) : (s.setLane n x).tables = s.tables := by unfold State.setLane; rfl
@[simp] theorem State.setLane_ent (n : Nat) (x : Eng) : (s.setLane n x).ent = s.ent := by unfold State.setLane; rfl
@[simp] theorem State.setLane_bist (n : Nat) (x : Eng) : (s.setLane n x).bist = s.bist := by unfold State.setLane; rfl
@[simp] theorem State.setLane_age (n : Nat) (x : Eng) : (s.setLane n x).age = s.age := by unfold State.setLane; rfl
@[simp] theorem State.setLane_ticks (n : Nat) (x : Eng) : (s.setLane n x).ticks = s.ticks := by unfold State.setLane; rfl
@[simp] theorem State.setLane_runLane (n : Nat) (x : Eng) : (s.setLane n x).runLane = s.runLane := by unfold State.setLane; rfl
@[simp] theorem State.setLane_runDig (n : Nat) (x : Eng) : (s.setLane n x).runDig = s.runDig := by unfold State.setLane; rfl
@[simp] theorem State.setLane_runPke (n : Nat) (x : Eng) : (s.setLane n x).runPke = s.runPke := by unfold State.setLane; rfl
@[simp] theorem State.setLane_busyRest (n : Nat) (x : Eng) : (s.setLane n x).busyRest = s.busyRest := by unfold State.setLane; rfl
@[simp] theorem State.setLane_free (n : Nat) (x : Eng) : (s.setLane n x).free = s.free := by unfold State.setLane; rfl
@[simp] theorem State.setLane_nextId (n : Nat) (x : Eng) : (s.setLane n x).nextId = s.nextId := by unfold State.setLane; rfl

-- setDig
@[simp] theorem State.setDig_pending (e : Nat) (x : Eng) : (s.setDig e x).pending = s.pending := by unfold State.setDig; rfl
@[simp] theorem State.setDig_blk (e : Nat) (x : Eng) : (s.setDig e x).blk = s.blk := by unfold State.setDig; rfl
@[simp] theorem State.setDig_pwr (e : Nat) (x : Eng) : (s.setDig e x).pwr = s.pwr := by unfold State.setDig; rfl
@[simp] theorem State.setDig_port (e : Nat) (x : Eng) : (s.setDig e x).port = s.port := by unfold State.setDig; rfl
@[simp] theorem State.setDig_regs (e : Nat) (x : Eng) : (s.setDig e x).regs = s.regs := by unfold State.setDig; rfl
@[simp] theorem State.setDig_fab (e : Nat) (x : Eng) : (s.setDig e x).fab = s.fab := by unfold State.setDig; rfl
@[simp] theorem State.setDig_kl (e : Nat) (x : Eng) : (s.setDig e x).kl = s.kl := by unfold State.setDig; rfl
@[simp] theorem State.setDig_primer (e : Nat) (x : Eng) : (s.setDig e x).primer = s.primer := by unfold State.setDig; rfl
@[simp] theorem State.setDig_time (e : Nat) (x : Eng) : (s.setDig e x).time = s.time := by unfold State.setDig; rfl
@[simp] theorem State.setDig_flt (e : Nat) (x : Eng) : (s.setDig e x).flt = s.flt := by unfold State.setDig; rfl
@[simp] theorem State.setDig_tly (e : Nat) (x : Eng) : (s.setDig e x).tly = s.tly := by unfold State.setDig; rfl
@[simp] theorem State.setDig_fns (e : Nat) (x : Eng) : (s.setDig e x).fns = s.fns := by unfold State.setDig; rfl
@[simp] theorem State.setDig_vpend (e : Nat) (x : Eng) : (s.setDig e x).vpend = s.vpend := by unfold State.setDig; rfl
@[simp] theorem State.setDig_rings (e : Nat) (x : Eng) : (s.setDig e x).rings = s.rings := by unfold State.setDig; rfl
@[simp] theorem State.setDig_reqs (e : Nat) (x : Eng) : (s.setDig e x).reqs = s.reqs := by unfold State.setDig; rfl
@[simp] theorem State.setDig_sched (e : Nat) (x : Eng) : (s.setDig e x).sched = s.sched := by unfold State.setDig; rfl
@[simp] theorem State.setDig_gate (e : Nat) (x : Eng) : (s.setDig e x).gate = s.gate := by unfold State.setDig; rfl
@[simp] theorem State.setDig_ctx (e : Nat) (x : Eng) : (s.setDig e x).ctx = s.ctx := by unfold State.setDig; rfl
@[simp] theorem State.setDig_lanes (e : Nat) (x : Eng) : (s.setDig e x).lanes = s.lanes := by unfold State.setDig; rfl
@[simp] theorem State.setDig_reserve (e : Nat) (x : Eng) : (s.setDig e x).reserve = s.reserve := by unfold State.setDig; rfl
@[simp] theorem State.setDig_gal (e : Nat) (x : Eng) : (s.setDig e x).gal = s.gal := by unfold State.setDig; rfl
@[simp] theorem State.setDig_easels (e : Nat) (x : Eng) : (s.setDig e x).easels = s.easels := by unfold State.setDig; rfl
@[simp] theorem State.setDig_tables (e : Nat) (x : Eng) : (s.setDig e x).tables = s.tables := by unfold State.setDig; rfl
@[simp] theorem State.setDig_ent (e : Nat) (x : Eng) : (s.setDig e x).ent = s.ent := by unfold State.setDig; rfl
@[simp] theorem State.setDig_bist (e : Nat) (x : Eng) : (s.setDig e x).bist = s.bist := by unfold State.setDig; rfl
@[simp] theorem State.setDig_age (e : Nat) (x : Eng) : (s.setDig e x).age = s.age := by unfold State.setDig; rfl
@[simp] theorem State.setDig_ticks (e : Nat) (x : Eng) : (s.setDig e x).ticks = s.ticks := by unfold State.setDig; rfl
@[simp] theorem State.setDig_runLane (e : Nat) (x : Eng) : (s.setDig e x).runLane = s.runLane := by unfold State.setDig; rfl
@[simp] theorem State.setDig_runDig (e : Nat) (x : Eng) : (s.setDig e x).runDig = s.runDig := by unfold State.setDig; rfl
@[simp] theorem State.setDig_runPke (e : Nat) (x : Eng) : (s.setDig e x).runPke = s.runPke := by unfold State.setDig; rfl
@[simp] theorem State.setDig_busyRest (e : Nat) (x : Eng) : (s.setDig e x).busyRest = s.busyRest := by unfold State.setDig; rfl
@[simp] theorem State.setDig_free (e : Nat) (x : Eng) : (s.setDig e x).free = s.free := by unfold State.setDig; rfl
@[simp] theorem State.setDig_nextId (e : Nat) (x : Eng) : (s.setDig e x).nextId = s.nextId := by unfold State.setDig; rfl

-- setEasel
@[simp] theorem State.setEasel_pending (e : Nat) (x : Easel) : (s.setEasel e x).pending = s.pending := by unfold State.setEasel; rfl
@[simp] theorem State.setEasel_blk (e : Nat) (x : Easel) : (s.setEasel e x).blk = s.blk := by unfold State.setEasel; rfl
@[simp] theorem State.setEasel_pwr (e : Nat) (x : Easel) : (s.setEasel e x).pwr = s.pwr := by unfold State.setEasel; rfl
@[simp] theorem State.setEasel_port (e : Nat) (x : Easel) : (s.setEasel e x).port = s.port := by unfold State.setEasel; rfl
@[simp] theorem State.setEasel_regs (e : Nat) (x : Easel) : (s.setEasel e x).regs = s.regs := by unfold State.setEasel; rfl
@[simp] theorem State.setEasel_fab (e : Nat) (x : Easel) : (s.setEasel e x).fab = s.fab := by unfold State.setEasel; rfl
@[simp] theorem State.setEasel_kl (e : Nat) (x : Easel) : (s.setEasel e x).kl = s.kl := by unfold State.setEasel; rfl
@[simp] theorem State.setEasel_primer (e : Nat) (x : Easel) : (s.setEasel e x).primer = s.primer := by unfold State.setEasel; rfl
@[simp] theorem State.setEasel_time (e : Nat) (x : Easel) : (s.setEasel e x).time = s.time := by unfold State.setEasel; rfl
@[simp] theorem State.setEasel_flt (e : Nat) (x : Easel) : (s.setEasel e x).flt = s.flt := by unfold State.setEasel; rfl
@[simp] theorem State.setEasel_tly (e : Nat) (x : Easel) : (s.setEasel e x).tly = s.tly := by unfold State.setEasel; rfl
@[simp] theorem State.setEasel_fns (e : Nat) (x : Easel) : (s.setEasel e x).fns = s.fns := by unfold State.setEasel; rfl
@[simp] theorem State.setEasel_vpend (e : Nat) (x : Easel) : (s.setEasel e x).vpend = s.vpend := by unfold State.setEasel; rfl
@[simp] theorem State.setEasel_rings (e : Nat) (x : Easel) : (s.setEasel e x).rings = s.rings := by unfold State.setEasel; rfl
@[simp] theorem State.setEasel_reqs (e : Nat) (x : Easel) : (s.setEasel e x).reqs = s.reqs := by unfold State.setEasel; rfl
@[simp] theorem State.setEasel_sched (e : Nat) (x : Easel) : (s.setEasel e x).sched = s.sched := by unfold State.setEasel; rfl
@[simp] theorem State.setEasel_gate (e : Nat) (x : Easel) : (s.setEasel e x).gate = s.gate := by unfold State.setEasel; rfl
@[simp] theorem State.setEasel_ctx (e : Nat) (x : Easel) : (s.setEasel e x).ctx = s.ctx := by unfold State.setEasel; rfl
@[simp] theorem State.setEasel_lanes (e : Nat) (x : Easel) : (s.setEasel e x).lanes = s.lanes := by unfold State.setEasel; rfl
@[simp] theorem State.setEasel_reserve (e : Nat) (x : Easel) : (s.setEasel e x).reserve = s.reserve := by unfold State.setEasel; rfl
@[simp] theorem State.setEasel_digs (e : Nat) (x : Easel) : (s.setEasel e x).digs = s.digs := by unfold State.setEasel; rfl
@[simp] theorem State.setEasel_gal (e : Nat) (x : Easel) : (s.setEasel e x).gal = s.gal := by unfold State.setEasel; rfl
@[simp] theorem State.setEasel_tables (e : Nat) (x : Easel) : (s.setEasel e x).tables = s.tables := by unfold State.setEasel; rfl
@[simp] theorem State.setEasel_ent (e : Nat) (x : Easel) : (s.setEasel e x).ent = s.ent := by unfold State.setEasel; rfl
@[simp] theorem State.setEasel_bist (e : Nat) (x : Easel) : (s.setEasel e x).bist = s.bist := by unfold State.setEasel; rfl
@[simp] theorem State.setEasel_age (e : Nat) (x : Easel) : (s.setEasel e x).age = s.age := by unfold State.setEasel; rfl
@[simp] theorem State.setEasel_ticks (e : Nat) (x : Easel) : (s.setEasel e x).ticks = s.ticks := by unfold State.setEasel; rfl
@[simp] theorem State.setEasel_runLane (e : Nat) (x : Easel) : (s.setEasel e x).runLane = s.runLane := by unfold State.setEasel; rfl
@[simp] theorem State.setEasel_runDig (e : Nat) (x : Easel) : (s.setEasel e x).runDig = s.runDig := by unfold State.setEasel; rfl
@[simp] theorem State.setEasel_runPke (e : Nat) (x : Easel) : (s.setEasel e x).runPke = s.runPke := by unfold State.setEasel; rfl
@[simp] theorem State.setEasel_busyRest (e : Nat) (x : Easel) : (s.setEasel e x).busyRest = s.busyRest := by unfold State.setEasel; rfl
@[simp] theorem State.setEasel_free (e : Nat) (x : Easel) : (s.setEasel e x).free = s.free := by unfold State.setEasel; rfl
@[simp] theorem State.setEasel_nextId (e : Nat) (x : Easel) : (s.setEasel e x).nextId = s.nextId := by unfold State.setEasel; rfl

-- setIsl
@[simp] theorem State.setIsl_pending (i : Nat) (x : Isl) : (s.setIsl i x).pending = s.pending := by unfold State.setIsl; rfl
@[simp] theorem State.setIsl_blk (i : Nat) (x : Isl) : (s.setIsl i x).blk = s.blk := by unfold State.setIsl; rfl
@[simp] theorem State.setIsl_port (i : Nat) (x : Isl) : (s.setIsl i x).port = s.port := by unfold State.setIsl; rfl
@[simp] theorem State.setIsl_regs (i : Nat) (x : Isl) : (s.setIsl i x).regs = s.regs := by unfold State.setIsl; rfl
@[simp] theorem State.setIsl_fab (i : Nat) (x : Isl) : (s.setIsl i x).fab = s.fab := by unfold State.setIsl; rfl
@[simp] theorem State.setIsl_kl (i : Nat) (x : Isl) : (s.setIsl i x).kl = s.kl := by unfold State.setIsl; rfl
@[simp] theorem State.setIsl_primer (i : Nat) (x : Isl) : (s.setIsl i x).primer = s.primer := by unfold State.setIsl; rfl
@[simp] theorem State.setIsl_time (i : Nat) (x : Isl) : (s.setIsl i x).time = s.time := by unfold State.setIsl; rfl
@[simp] theorem State.setIsl_flt (i : Nat) (x : Isl) : (s.setIsl i x).flt = s.flt := by unfold State.setIsl; rfl
@[simp] theorem State.setIsl_tly (i : Nat) (x : Isl) : (s.setIsl i x).tly = s.tly := by unfold State.setIsl; rfl
@[simp] theorem State.setIsl_fns (i : Nat) (x : Isl) : (s.setIsl i x).fns = s.fns := by unfold State.setIsl; rfl
@[simp] theorem State.setIsl_vpend (i : Nat) (x : Isl) : (s.setIsl i x).vpend = s.vpend := by unfold State.setIsl; rfl
@[simp] theorem State.setIsl_rings (i : Nat) (x : Isl) : (s.setIsl i x).rings = s.rings := by unfold State.setIsl; rfl
@[simp] theorem State.setIsl_reqs (i : Nat) (x : Isl) : (s.setIsl i x).reqs = s.reqs := by unfold State.setIsl; rfl
@[simp] theorem State.setIsl_sched (i : Nat) (x : Isl) : (s.setIsl i x).sched = s.sched := by unfold State.setIsl; rfl
@[simp] theorem State.setIsl_gate (i : Nat) (x : Isl) : (s.setIsl i x).gate = s.gate := by unfold State.setIsl; rfl
@[simp] theorem State.setIsl_ctx (i : Nat) (x : Isl) : (s.setIsl i x).ctx = s.ctx := by unfold State.setIsl; rfl
@[simp] theorem State.setIsl_lanes (i : Nat) (x : Isl) : (s.setIsl i x).lanes = s.lanes := by unfold State.setIsl; rfl
@[simp] theorem State.setIsl_reserve (i : Nat) (x : Isl) : (s.setIsl i x).reserve = s.reserve := by unfold State.setIsl; rfl
@[simp] theorem State.setIsl_digs (i : Nat) (x : Isl) : (s.setIsl i x).digs = s.digs := by unfold State.setIsl; rfl
@[simp] theorem State.setIsl_gal (i : Nat) (x : Isl) : (s.setIsl i x).gal = s.gal := by unfold State.setIsl; rfl
@[simp] theorem State.setIsl_easels (i : Nat) (x : Isl) : (s.setIsl i x).easels = s.easels := by unfold State.setIsl; rfl
@[simp] theorem State.setIsl_tables (i : Nat) (x : Isl) : (s.setIsl i x).tables = s.tables := by unfold State.setIsl; rfl
@[simp] theorem State.setIsl_ent (i : Nat) (x : Isl) : (s.setIsl i x).ent = s.ent := by unfold State.setIsl; rfl
@[simp] theorem State.setIsl_bist (i : Nat) (x : Isl) : (s.setIsl i x).bist = s.bist := by unfold State.setIsl; rfl
@[simp] theorem State.setIsl_age (i : Nat) (x : Isl) : (s.setIsl i x).age = s.age := by unfold State.setIsl; rfl
@[simp] theorem State.setIsl_ticks (i : Nat) (x : Isl) : (s.setIsl i x).ticks = s.ticks := by unfold State.setIsl; rfl
@[simp] theorem State.setIsl_runLane (i : Nat) (x : Isl) : (s.setIsl i x).runLane = s.runLane := by unfold State.setIsl; rfl
@[simp] theorem State.setIsl_runDig (i : Nat) (x : Isl) : (s.setIsl i x).runDig = s.runDig := by unfold State.setIsl; rfl
@[simp] theorem State.setIsl_runPke (i : Nat) (x : Isl) : (s.setIsl i x).runPke = s.runPke := by unfold State.setIsl; rfl
@[simp] theorem State.setIsl_busyRest (i : Nat) (x : Isl) : (s.setIsl i x).busyRest = s.busyRest := by unfold State.setIsl; rfl
@[simp] theorem State.setIsl_free (i : Nat) (x : Isl) : (s.setIsl i x).free = s.free := by unfold State.setIsl; rfl
@[simp] theorem State.setIsl_nextId (i : Nat) (x : Isl) : (s.setIsl i x).nextId = s.nextId := by unfold State.setIsl; rfl

-- setSource
@[simp] theorem State.setSource_pending (i : Nat) (x : Src) : (s.setSource i x).pending = s.pending := by unfold State.setSource; rfl
@[simp] theorem State.setSource_blk (i : Nat) (x : Src) : (s.setSource i x).blk = s.blk := by unfold State.setSource; rfl
@[simp] theorem State.setSource_pwr (i : Nat) (x : Src) : (s.setSource i x).pwr = s.pwr := by unfold State.setSource; rfl
@[simp] theorem State.setSource_port (i : Nat) (x : Src) : (s.setSource i x).port = s.port := by unfold State.setSource; rfl
@[simp] theorem State.setSource_regs (i : Nat) (x : Src) : (s.setSource i x).regs = s.regs := by unfold State.setSource; rfl
@[simp] theorem State.setSource_fab (i : Nat) (x : Src) : (s.setSource i x).fab = s.fab := by unfold State.setSource; rfl
@[simp] theorem State.setSource_kl (i : Nat) (x : Src) : (s.setSource i x).kl = s.kl := by unfold State.setSource; rfl
@[simp] theorem State.setSource_primer (i : Nat) (x : Src) : (s.setSource i x).primer = s.primer := by unfold State.setSource; rfl
@[simp] theorem State.setSource_time (i : Nat) (x : Src) : (s.setSource i x).time = s.time := by unfold State.setSource; rfl
@[simp] theorem State.setSource_flt (i : Nat) (x : Src) : (s.setSource i x).flt = s.flt := by unfold State.setSource; rfl
@[simp] theorem State.setSource_tly (i : Nat) (x : Src) : (s.setSource i x).tly = s.tly := by unfold State.setSource; rfl
@[simp] theorem State.setSource_fns (i : Nat) (x : Src) : (s.setSource i x).fns = s.fns := by unfold State.setSource; rfl
@[simp] theorem State.setSource_vpend (i : Nat) (x : Src) : (s.setSource i x).vpend = s.vpend := by unfold State.setSource; rfl
@[simp] theorem State.setSource_rings (i : Nat) (x : Src) : (s.setSource i x).rings = s.rings := by unfold State.setSource; rfl
@[simp] theorem State.setSource_reqs (i : Nat) (x : Src) : (s.setSource i x).reqs = s.reqs := by unfold State.setSource; rfl
@[simp] theorem State.setSource_sched (i : Nat) (x : Src) : (s.setSource i x).sched = s.sched := by unfold State.setSource; rfl
@[simp] theorem State.setSource_gate (i : Nat) (x : Src) : (s.setSource i x).gate = s.gate := by unfold State.setSource; rfl
@[simp] theorem State.setSource_ctx (i : Nat) (x : Src) : (s.setSource i x).ctx = s.ctx := by unfold State.setSource; rfl
@[simp] theorem State.setSource_lanes (i : Nat) (x : Src) : (s.setSource i x).lanes = s.lanes := by unfold State.setSource; rfl
@[simp] theorem State.setSource_reserve (i : Nat) (x : Src) : (s.setSource i x).reserve = s.reserve := by unfold State.setSource; rfl
@[simp] theorem State.setSource_digs (i : Nat) (x : Src) : (s.setSource i x).digs = s.digs := by unfold State.setSource; rfl
@[simp] theorem State.setSource_gal (i : Nat) (x : Src) : (s.setSource i x).gal = s.gal := by unfold State.setSource; rfl
@[simp] theorem State.setSource_easels (i : Nat) (x : Src) : (s.setSource i x).easels = s.easels := by unfold State.setSource; rfl
@[simp] theorem State.setSource_tables (i : Nat) (x : Src) : (s.setSource i x).tables = s.tables := by unfold State.setSource; rfl
@[simp] theorem State.setSource_bist (i : Nat) (x : Src) : (s.setSource i x).bist = s.bist := by unfold State.setSource; rfl
@[simp] theorem State.setSource_age (i : Nat) (x : Src) : (s.setSource i x).age = s.age := by unfold State.setSource; rfl
@[simp] theorem State.setSource_ticks (i : Nat) (x : Src) : (s.setSource i x).ticks = s.ticks := by unfold State.setSource; rfl
@[simp] theorem State.setSource_runLane (i : Nat) (x : Src) : (s.setSource i x).runLane = s.runLane := by unfold State.setSource; rfl
@[simp] theorem State.setSource_runDig (i : Nat) (x : Src) : (s.setSource i x).runDig = s.runDig := by unfold State.setSource; rfl
@[simp] theorem State.setSource_runPke (i : Nat) (x : Src) : (s.setSource i x).runPke = s.runPke := by unfold State.setSource; rfl
@[simp] theorem State.setSource_busyRest (i : Nat) (x : Src) : (s.setSource i x).busyRest = s.busyRest := by unfold State.setSource; rfl
@[simp] theorem State.setSource_free (i : Nat) (x : Src) : (s.setSource i x).free = s.free := by unfold State.setSource; rfl
@[simp] theorem State.setSource_nextId (i : Nat) (x : Src) : (s.setSource i x).nextId = s.nextId := by unfold State.setSource; rfl

-- setAgeU
@[simp] theorem State.setAgeU_pending (u : Nat) (x : AgeU) : (s.setAgeU u x).pending = s.pending := by unfold State.setAgeU; rfl
@[simp] theorem State.setAgeU_blk (u : Nat) (x : AgeU) : (s.setAgeU u x).blk = s.blk := by unfold State.setAgeU; rfl
@[simp] theorem State.setAgeU_pwr (u : Nat) (x : AgeU) : (s.setAgeU u x).pwr = s.pwr := by unfold State.setAgeU; rfl
@[simp] theorem State.setAgeU_port (u : Nat) (x : AgeU) : (s.setAgeU u x).port = s.port := by unfold State.setAgeU; rfl
@[simp] theorem State.setAgeU_regs (u : Nat) (x : AgeU) : (s.setAgeU u x).regs = s.regs := by unfold State.setAgeU; rfl
@[simp] theorem State.setAgeU_fab (u : Nat) (x : AgeU) : (s.setAgeU u x).fab = s.fab := by unfold State.setAgeU; rfl
@[simp] theorem State.setAgeU_kl (u : Nat) (x : AgeU) : (s.setAgeU u x).kl = s.kl := by unfold State.setAgeU; rfl
@[simp] theorem State.setAgeU_primer (u : Nat) (x : AgeU) : (s.setAgeU u x).primer = s.primer := by unfold State.setAgeU; rfl
@[simp] theorem State.setAgeU_time (u : Nat) (x : AgeU) : (s.setAgeU u x).time = s.time := by unfold State.setAgeU; rfl
@[simp] theorem State.setAgeU_flt (u : Nat) (x : AgeU) : (s.setAgeU u x).flt = s.flt := by unfold State.setAgeU; rfl
@[simp] theorem State.setAgeU_tly (u : Nat) (x : AgeU) : (s.setAgeU u x).tly = s.tly := by unfold State.setAgeU; rfl
@[simp] theorem State.setAgeU_fns (u : Nat) (x : AgeU) : (s.setAgeU u x).fns = s.fns := by unfold State.setAgeU; rfl
@[simp] theorem State.setAgeU_vpend (u : Nat) (x : AgeU) : (s.setAgeU u x).vpend = s.vpend := by unfold State.setAgeU; rfl
@[simp] theorem State.setAgeU_rings (u : Nat) (x : AgeU) : (s.setAgeU u x).rings = s.rings := by unfold State.setAgeU; rfl
@[simp] theorem State.setAgeU_reqs (u : Nat) (x : AgeU) : (s.setAgeU u x).reqs = s.reqs := by unfold State.setAgeU; rfl
@[simp] theorem State.setAgeU_sched (u : Nat) (x : AgeU) : (s.setAgeU u x).sched = s.sched := by unfold State.setAgeU; rfl
@[simp] theorem State.setAgeU_gate (u : Nat) (x : AgeU) : (s.setAgeU u x).gate = s.gate := by unfold State.setAgeU; rfl
@[simp] theorem State.setAgeU_ctx (u : Nat) (x : AgeU) : (s.setAgeU u x).ctx = s.ctx := by unfold State.setAgeU; rfl
@[simp] theorem State.setAgeU_lanes (u : Nat) (x : AgeU) : (s.setAgeU u x).lanes = s.lanes := by unfold State.setAgeU; rfl
@[simp] theorem State.setAgeU_reserve (u : Nat) (x : AgeU) : (s.setAgeU u x).reserve = s.reserve := by unfold State.setAgeU; rfl
@[simp] theorem State.setAgeU_digs (u : Nat) (x : AgeU) : (s.setAgeU u x).digs = s.digs := by unfold State.setAgeU; rfl
@[simp] theorem State.setAgeU_gal (u : Nat) (x : AgeU) : (s.setAgeU u x).gal = s.gal := by unfold State.setAgeU; rfl
@[simp] theorem State.setAgeU_easels (u : Nat) (x : AgeU) : (s.setAgeU u x).easels = s.easels := by unfold State.setAgeU; rfl
@[simp] theorem State.setAgeU_tables (u : Nat) (x : AgeU) : (s.setAgeU u x).tables = s.tables := by unfold State.setAgeU; rfl
@[simp] theorem State.setAgeU_ent (u : Nat) (x : AgeU) : (s.setAgeU u x).ent = s.ent := by unfold State.setAgeU; rfl
@[simp] theorem State.setAgeU_bist (u : Nat) (x : AgeU) : (s.setAgeU u x).bist = s.bist := by unfold State.setAgeU; rfl
@[simp] theorem State.setAgeU_ticks (u : Nat) (x : AgeU) : (s.setAgeU u x).ticks = s.ticks := by unfold State.setAgeU; rfl
@[simp] theorem State.setAgeU_runLane (u : Nat) (x : AgeU) : (s.setAgeU u x).runLane = s.runLane := by unfold State.setAgeU; rfl
@[simp] theorem State.setAgeU_runDig (u : Nat) (x : AgeU) : (s.setAgeU u x).runDig = s.runDig := by unfold State.setAgeU; rfl
@[simp] theorem State.setAgeU_runPke (u : Nat) (x : AgeU) : (s.setAgeU u x).runPke = s.runPke := by unfold State.setAgeU; rfl
@[simp] theorem State.setAgeU_busyRest (u : Nat) (x : AgeU) : (s.setAgeU u x).busyRest = s.busyRest := by unfold State.setAgeU; rfl
@[simp] theorem State.setAgeU_free (u : Nat) (x : AgeU) : (s.setAgeU u x).free = s.free := by unfold State.setAgeU; rfl
@[simp] theorem State.setAgeU_nextId (u : Nat) (x : AgeU) : (s.setAgeU u x).nextId = s.nextId := by unfold State.setAgeU; rfl

-- setReq
@[simp] theorem State.setReq_pending (r : Req) : (s.setReq r).pending = s.pending := by unfold State.setReq; rfl
@[simp] theorem State.setReq_blk (r : Req) : (s.setReq r).blk = s.blk := by unfold State.setReq; rfl
@[simp] theorem State.setReq_pwr (r : Req) : (s.setReq r).pwr = s.pwr := by unfold State.setReq; rfl
@[simp] theorem State.setReq_port (r : Req) : (s.setReq r).port = s.port := by unfold State.setReq; rfl
@[simp] theorem State.setReq_regs (r : Req) : (s.setReq r).regs = s.regs := by unfold State.setReq; rfl
@[simp] theorem State.setReq_fab (r : Req) : (s.setReq r).fab = s.fab := by unfold State.setReq; rfl
@[simp] theorem State.setReq_kl (r : Req) : (s.setReq r).kl = s.kl := by unfold State.setReq; rfl
@[simp] theorem State.setReq_primer (r : Req) : (s.setReq r).primer = s.primer := by unfold State.setReq; rfl
@[simp] theorem State.setReq_time (r : Req) : (s.setReq r).time = s.time := by unfold State.setReq; rfl
@[simp] theorem State.setReq_flt (r : Req) : (s.setReq r).flt = s.flt := by unfold State.setReq; rfl
@[simp] theorem State.setReq_tly (r : Req) : (s.setReq r).tly = s.tly := by unfold State.setReq; rfl
@[simp] theorem State.setReq_fns (r : Req) : (s.setReq r).fns = s.fns := by unfold State.setReq; rfl
@[simp] theorem State.setReq_vpend (r : Req) : (s.setReq r).vpend = s.vpend := by unfold State.setReq; rfl
@[simp] theorem State.setReq_rings (r : Req) : (s.setReq r).rings = s.rings := by unfold State.setReq; rfl
@[simp] theorem State.setReq_sched (r : Req) : (s.setReq r).sched = s.sched := by unfold State.setReq; rfl
@[simp] theorem State.setReq_gate (r : Req) : (s.setReq r).gate = s.gate := by unfold State.setReq; rfl
@[simp] theorem State.setReq_ctx (r : Req) : (s.setReq r).ctx = s.ctx := by unfold State.setReq; rfl
@[simp] theorem State.setReq_lanes (r : Req) : (s.setReq r).lanes = s.lanes := by unfold State.setReq; rfl
@[simp] theorem State.setReq_reserve (r : Req) : (s.setReq r).reserve = s.reserve := by unfold State.setReq; rfl
@[simp] theorem State.setReq_digs (r : Req) : (s.setReq r).digs = s.digs := by unfold State.setReq; rfl
@[simp] theorem State.setReq_gal (r : Req) : (s.setReq r).gal = s.gal := by unfold State.setReq; rfl
@[simp] theorem State.setReq_easels (r : Req) : (s.setReq r).easels = s.easels := by unfold State.setReq; rfl
@[simp] theorem State.setReq_tables (r : Req) : (s.setReq r).tables = s.tables := by unfold State.setReq; rfl
@[simp] theorem State.setReq_ent (r : Req) : (s.setReq r).ent = s.ent := by unfold State.setReq; rfl
@[simp] theorem State.setReq_bist (r : Req) : (s.setReq r).bist = s.bist := by unfold State.setReq; rfl
@[simp] theorem State.setReq_age (r : Req) : (s.setReq r).age = s.age := by unfold State.setReq; rfl
@[simp] theorem State.setReq_ticks (r : Req) : (s.setReq r).ticks = s.ticks := by unfold State.setReq; rfl
@[simp] theorem State.setReq_runLane (r : Req) : (s.setReq r).runLane = s.runLane := by unfold State.setReq; rfl
@[simp] theorem State.setReq_runDig (r : Req) : (s.setReq r).runDig = s.runDig := by unfold State.setReq; rfl
@[simp] theorem State.setReq_runPke (r : Req) : (s.setReq r).runPke = s.runPke := by unfold State.setReq; rfl
@[simp] theorem State.setReq_busyRest (r : Req) : (s.setReq r).busyRest = s.busyRest := by unfold State.setReq; rfl
@[simp] theorem State.setReq_free (r : Req) : (s.setReq r).free = s.free := by unfold State.setReq; rfl
@[simp] theorem State.setReq_nextId (r : Req) : (s.setReq r).nextId = s.nextId := by unfold State.setReq; rfl

-- injFired
@[simp] theorem State.injFired_pending : (s.injFired).pending = s.pending := by unfold State.injFired; rfl
@[simp] theorem State.injFired_blk : (s.injFired).blk = s.blk := by unfold State.injFired; rfl
@[simp] theorem State.injFired_pwr : (s.injFired).pwr = s.pwr := by unfold State.injFired; rfl
@[simp] theorem State.injFired_port : (s.injFired).port = s.port := by unfold State.injFired; rfl
@[simp] theorem State.injFired_regs : (s.injFired).regs = s.regs := by unfold State.injFired; rfl
@[simp] theorem State.injFired_fab : (s.injFired).fab = s.fab := by unfold State.injFired; rfl
@[simp] theorem State.injFired_kl : (s.injFired).kl = s.kl := by unfold State.injFired; rfl
@[simp] theorem State.injFired_primer : (s.injFired).primer = s.primer := by unfold State.injFired; rfl
@[simp] theorem State.injFired_time : (s.injFired).time = s.time := by unfold State.injFired; rfl
@[simp] theorem State.injFired_tly : (s.injFired).tly = s.tly := by unfold State.injFired; rfl
@[simp] theorem State.injFired_fns : (s.injFired).fns = s.fns := by unfold State.injFired; rfl
@[simp] theorem State.injFired_vpend : (s.injFired).vpend = s.vpend := by unfold State.injFired; rfl
@[simp] theorem State.injFired_rings : (s.injFired).rings = s.rings := by unfold State.injFired; rfl
@[simp] theorem State.injFired_reqs : (s.injFired).reqs = s.reqs := by unfold State.injFired; rfl
@[simp] theorem State.injFired_sched : (s.injFired).sched = s.sched := by unfold State.injFired; rfl
@[simp] theorem State.injFired_gate : (s.injFired).gate = s.gate := by unfold State.injFired; rfl
@[simp] theorem State.injFired_ctx : (s.injFired).ctx = s.ctx := by unfold State.injFired; rfl
@[simp] theorem State.injFired_lanes : (s.injFired).lanes = s.lanes := by unfold State.injFired; rfl
@[simp] theorem State.injFired_reserve : (s.injFired).reserve = s.reserve := by unfold State.injFired; rfl
@[simp] theorem State.injFired_digs : (s.injFired).digs = s.digs := by unfold State.injFired; rfl
@[simp] theorem State.injFired_gal : (s.injFired).gal = s.gal := by unfold State.injFired; rfl
@[simp] theorem State.injFired_easels : (s.injFired).easels = s.easels := by unfold State.injFired; rfl
@[simp] theorem State.injFired_tables : (s.injFired).tables = s.tables := by unfold State.injFired; rfl
@[simp] theorem State.injFired_ent : (s.injFired).ent = s.ent := by unfold State.injFired; rfl
@[simp] theorem State.injFired_bist : (s.injFired).bist = s.bist := by unfold State.injFired; rfl
@[simp] theorem State.injFired_age : (s.injFired).age = s.age := by unfold State.injFired; rfl
@[simp] theorem State.injFired_ticks : (s.injFired).ticks = s.ticks := by unfold State.injFired; rfl
@[simp] theorem State.injFired_runLane : (s.injFired).runLane = s.runLane := by unfold State.injFired; rfl
@[simp] theorem State.injFired_runDig : (s.injFired).runDig = s.runDig := by unfold State.injFired; rfl
@[simp] theorem State.injFired_runPke : (s.injFired).runPke = s.runPke := by unfold State.injFired; rfl
@[simp] theorem State.injFired_busyRest : (s.injFired).busyRest = s.busyRest := by unfold State.injFired; rfl
@[simp] theorem State.injFired_free : (s.injFired).free = s.free := by unfold State.injFired; rfl
@[simp] theorem State.injFired_nextId : (s.injFired).nextId = s.nextId := by unfold State.injFired; rfl

-- respond
@[simp] theorem State.respond_pending (c : Nat) (v : Word) : (s.respond c v).pending = s.pending := by unfold State.respond; rfl
@[simp] theorem State.respond_blk (c : Nat) (v : Word) : (s.respond c v).blk = s.blk := by unfold State.respond; rfl
@[simp] theorem State.respond_pwr (c : Nat) (v : Word) : (s.respond c v).pwr = s.pwr := by unfold State.respond; rfl
@[simp] theorem State.respond_regs (c : Nat) (v : Word) : (s.respond c v).regs = s.regs := by unfold State.respond; rfl
@[simp] theorem State.respond_fab (c : Nat) (v : Word) : (s.respond c v).fab = s.fab := by unfold State.respond; rfl
@[simp] theorem State.respond_kl (c : Nat) (v : Word) : (s.respond c v).kl = s.kl := by unfold State.respond; rfl
@[simp] theorem State.respond_primer (c : Nat) (v : Word) : (s.respond c v).primer = s.primer := by unfold State.respond; rfl
@[simp] theorem State.respond_time (c : Nat) (v : Word) : (s.respond c v).time = s.time := by unfold State.respond; rfl
@[simp] theorem State.respond_flt (c : Nat) (v : Word) : (s.respond c v).flt = s.flt := by unfold State.respond; rfl
@[simp] theorem State.respond_tly (c : Nat) (v : Word) : (s.respond c v).tly = s.tly := by unfold State.respond; rfl
@[simp] theorem State.respond_fns (c : Nat) (v : Word) : (s.respond c v).fns = s.fns := by unfold State.respond; rfl
@[simp] theorem State.respond_vpend (c : Nat) (v : Word) : (s.respond c v).vpend = s.vpend := by unfold State.respond; rfl
@[simp] theorem State.respond_rings (c : Nat) (v : Word) : (s.respond c v).rings = s.rings := by unfold State.respond; rfl
@[simp] theorem State.respond_reqs (c : Nat) (v : Word) : (s.respond c v).reqs = s.reqs := by unfold State.respond; rfl
@[simp] theorem State.respond_sched (c : Nat) (v : Word) : (s.respond c v).sched = s.sched := by unfold State.respond; rfl
@[simp] theorem State.respond_gate (c : Nat) (v : Word) : (s.respond c v).gate = s.gate := by unfold State.respond; rfl
@[simp] theorem State.respond_ctx (c : Nat) (v : Word) : (s.respond c v).ctx = s.ctx := by unfold State.respond; rfl
@[simp] theorem State.respond_lanes (c : Nat) (v : Word) : (s.respond c v).lanes = s.lanes := by unfold State.respond; rfl
@[simp] theorem State.respond_reserve (c : Nat) (v : Word) : (s.respond c v).reserve = s.reserve := by unfold State.respond; rfl
@[simp] theorem State.respond_digs (c : Nat) (v : Word) : (s.respond c v).digs = s.digs := by unfold State.respond; rfl
@[simp] theorem State.respond_gal (c : Nat) (v : Word) : (s.respond c v).gal = s.gal := by unfold State.respond; rfl
@[simp] theorem State.respond_easels (c : Nat) (v : Word) : (s.respond c v).easels = s.easels := by unfold State.respond; rfl
@[simp] theorem State.respond_tables (c : Nat) (v : Word) : (s.respond c v).tables = s.tables := by unfold State.respond; rfl
@[simp] theorem State.respond_ent (c : Nat) (v : Word) : (s.respond c v).ent = s.ent := by unfold State.respond; rfl
@[simp] theorem State.respond_bist (c : Nat) (v : Word) : (s.respond c v).bist = s.bist := by unfold State.respond; rfl
@[simp] theorem State.respond_age (c : Nat) (v : Word) : (s.respond c v).age = s.age := by unfold State.respond; rfl
@[simp] theorem State.respond_ticks (c : Nat) (v : Word) : (s.respond c v).ticks = s.ticks := by unfold State.respond; rfl
@[simp] theorem State.respond_runLane (c : Nat) (v : Word) : (s.respond c v).runLane = s.runLane := by unfold State.respond; rfl
@[simp] theorem State.respond_runDig (c : Nat) (v : Word) : (s.respond c v).runDig = s.runDig := by unfold State.respond; rfl
@[simp] theorem State.respond_runPke (c : Nat) (v : Word) : (s.respond c v).runPke = s.runPke := by unfold State.respond; rfl
@[simp] theorem State.respond_busyRest (c : Nat) (v : Word) : (s.respond c v).busyRest = s.busyRest := by unfold State.respond; rfl
@[simp] theorem State.respond_free (c : Nat) (v : Word) : (s.respond c v).free = s.free := by unfold State.respond; rfl
@[simp] theorem State.respond_nextId (c : Nat) (v : Word) : (s.respond c v).nextId = s.nextId := by unfold State.respond; rfl

-- ok
@[simp] theorem State.ok_pending : (s.ok).pending = s.pending := by unfold State.ok; simp
@[simp] theorem State.ok_blk : (s.ok).blk = s.blk := by unfold State.ok; simp
@[simp] theorem State.ok_pwr : (s.ok).pwr = s.pwr := by unfold State.ok; simp
@[simp] theorem State.ok_regs : (s.ok).regs = s.regs := by unfold State.ok; simp
@[simp] theorem State.ok_fab : (s.ok).fab = s.fab := by unfold State.ok; simp
@[simp] theorem State.ok_kl : (s.ok).kl = s.kl := by unfold State.ok; simp
@[simp] theorem State.ok_primer : (s.ok).primer = s.primer := by unfold State.ok; simp
@[simp] theorem State.ok_time : (s.ok).time = s.time := by unfold State.ok; simp
@[simp] theorem State.ok_flt : (s.ok).flt = s.flt := by unfold State.ok; simp
@[simp] theorem State.ok_tly : (s.ok).tly = s.tly := by unfold State.ok; simp
@[simp] theorem State.ok_fns : (s.ok).fns = s.fns := by unfold State.ok; simp
@[simp] theorem State.ok_vpend : (s.ok).vpend = s.vpend := by unfold State.ok; simp
@[simp] theorem State.ok_rings : (s.ok).rings = s.rings := by unfold State.ok; simp
@[simp] theorem State.ok_reqs : (s.ok).reqs = s.reqs := by unfold State.ok; simp
@[simp] theorem State.ok_sched : (s.ok).sched = s.sched := by unfold State.ok; simp
@[simp] theorem State.ok_gate : (s.ok).gate = s.gate := by unfold State.ok; simp
@[simp] theorem State.ok_ctx : (s.ok).ctx = s.ctx := by unfold State.ok; simp
@[simp] theorem State.ok_lanes : (s.ok).lanes = s.lanes := by unfold State.ok; simp
@[simp] theorem State.ok_reserve : (s.ok).reserve = s.reserve := by unfold State.ok; simp
@[simp] theorem State.ok_digs : (s.ok).digs = s.digs := by unfold State.ok; simp
@[simp] theorem State.ok_gal : (s.ok).gal = s.gal := by unfold State.ok; simp
@[simp] theorem State.ok_easels : (s.ok).easels = s.easels := by unfold State.ok; simp
@[simp] theorem State.ok_tables : (s.ok).tables = s.tables := by unfold State.ok; simp
@[simp] theorem State.ok_ent : (s.ok).ent = s.ent := by unfold State.ok; simp
@[simp] theorem State.ok_bist : (s.ok).bist = s.bist := by unfold State.ok; simp
@[simp] theorem State.ok_age : (s.ok).age = s.age := by unfold State.ok; simp
@[simp] theorem State.ok_ticks : (s.ok).ticks = s.ticks := by unfold State.ok; simp
@[simp] theorem State.ok_runLane : (s.ok).runLane = s.runLane := by unfold State.ok; simp
@[simp] theorem State.ok_runDig : (s.ok).runDig = s.runDig := by unfold State.ok; simp
@[simp] theorem State.ok_runPke : (s.ok).runPke = s.runPke := by unfold State.ok; simp
@[simp] theorem State.ok_busyRest : (s.ok).busyRest = s.busyRest := by unfold State.ok; simp
@[simp] theorem State.ok_free : (s.ok).free = s.free := by unfold State.ok; simp
@[simp] theorem State.ok_nextId : (s.ok).nextId = s.nextId := by unfold State.ok; simp

-- refuse
@[simp] theorem State.refuse_pending : (s.refuse).pending = s.pending := by unfold State.refuse; simp
@[simp] theorem State.refuse_blk : (s.refuse).blk = s.blk := by unfold State.refuse; simp
@[simp] theorem State.refuse_pwr : (s.refuse).pwr = s.pwr := by unfold State.refuse; simp
@[simp] theorem State.refuse_regs : (s.refuse).regs = s.regs := by unfold State.refuse; simp
@[simp] theorem State.refuse_fab : (s.refuse).fab = s.fab := by unfold State.refuse; simp
@[simp] theorem State.refuse_kl : (s.refuse).kl = s.kl := by unfold State.refuse; simp
@[simp] theorem State.refuse_primer : (s.refuse).primer = s.primer := by unfold State.refuse; simp
@[simp] theorem State.refuse_time : (s.refuse).time = s.time := by unfold State.refuse; simp
@[simp] theorem State.refuse_flt : (s.refuse).flt = s.flt := by unfold State.refuse; simp
@[simp] theorem State.refuse_tly : (s.refuse).tly = s.tly := by unfold State.refuse; simp
@[simp] theorem State.refuse_fns : (s.refuse).fns = s.fns := by unfold State.refuse; simp
@[simp] theorem State.refuse_vpend : (s.refuse).vpend = s.vpend := by unfold State.refuse; simp
@[simp] theorem State.refuse_rings : (s.refuse).rings = s.rings := by unfold State.refuse; simp
@[simp] theorem State.refuse_reqs : (s.refuse).reqs = s.reqs := by unfold State.refuse; simp
@[simp] theorem State.refuse_sched : (s.refuse).sched = s.sched := by unfold State.refuse; simp
@[simp] theorem State.refuse_gate : (s.refuse).gate = s.gate := by unfold State.refuse; simp
@[simp] theorem State.refuse_ctx : (s.refuse).ctx = s.ctx := by unfold State.refuse; simp
@[simp] theorem State.refuse_lanes : (s.refuse).lanes = s.lanes := by unfold State.refuse; simp
@[simp] theorem State.refuse_reserve : (s.refuse).reserve = s.reserve := by unfold State.refuse; simp
@[simp] theorem State.refuse_digs : (s.refuse).digs = s.digs := by unfold State.refuse; simp
@[simp] theorem State.refuse_gal : (s.refuse).gal = s.gal := by unfold State.refuse; simp
@[simp] theorem State.refuse_easels : (s.refuse).easels = s.easels := by unfold State.refuse; simp
@[simp] theorem State.refuse_tables : (s.refuse).tables = s.tables := by unfold State.refuse; simp
@[simp] theorem State.refuse_ent : (s.refuse).ent = s.ent := by unfold State.refuse; simp
@[simp] theorem State.refuse_bist : (s.refuse).bist = s.bist := by unfold State.refuse; simp
@[simp] theorem State.refuse_age : (s.refuse).age = s.age := by unfold State.refuse; simp
@[simp] theorem State.refuse_ticks : (s.refuse).ticks = s.ticks := by unfold State.refuse; simp
@[simp] theorem State.refuse_runLane : (s.refuse).runLane = s.runLane := by unfold State.refuse; simp
@[simp] theorem State.refuse_runDig : (s.refuse).runDig = s.runDig := by unfold State.refuse; simp
@[simp] theorem State.refuse_runPke : (s.refuse).runPke = s.runPke := by unfold State.refuse; simp
@[simp] theorem State.refuse_busyRest : (s.refuse).busyRest = s.busyRest := by unfold State.refuse; simp
@[simp] theorem State.refuse_free : (s.refuse).free = s.free := by unfold State.refuse; simp
@[simp] theorem State.refuse_nextId : (s.refuse).nextId = s.nextId := by unfold State.refuse; simp

-- addBusy
@[simp] theorem State.addBusy_pending (u c : Nat) : (s.addBusy u c).pending = s.pending := by unfold State.addBusy; dsimp only; (repeat' split) <;> simp
@[simp] theorem State.addBusy_blk (u c : Nat) : (s.addBusy u c).blk = s.blk := by unfold State.addBusy; dsimp only; (repeat' split) <;> simp
@[simp] theorem State.addBusy_pwr (u c : Nat) : (s.addBusy u c).pwr = s.pwr := by unfold State.addBusy; dsimp only; (repeat' split) <;> simp
@[simp] theorem State.addBusy_port (u c : Nat) : (s.addBusy u c).port = s.port := by unfold State.addBusy; dsimp only; (repeat' split) <;> simp
@[simp] theorem State.addBusy_fab (u c : Nat) : (s.addBusy u c).fab = s.fab := by unfold State.addBusy; dsimp only; (repeat' split) <;> simp
@[simp] theorem State.addBusy_kl (u c : Nat) : (s.addBusy u c).kl = s.kl := by unfold State.addBusy; dsimp only; (repeat' split) <;> simp
@[simp] theorem State.addBusy_primer (u c : Nat) : (s.addBusy u c).primer = s.primer := by unfold State.addBusy; dsimp only; (repeat' split) <;> simp
@[simp] theorem State.addBusy_time (u c : Nat) : (s.addBusy u c).time = s.time := by unfold State.addBusy; dsimp only; (repeat' split) <;> simp
@[simp] theorem State.addBusy_flt (u c : Nat) : (s.addBusy u c).flt = s.flt := by unfold State.addBusy; dsimp only; (repeat' split) <;> simp
@[simp] theorem State.addBusy_tly (u c : Nat) : (s.addBusy u c).tly = s.tly := by unfold State.addBusy; dsimp only; (repeat' split) <;> simp
@[simp] theorem State.addBusy_fns (u c : Nat) : (s.addBusy u c).fns = s.fns := by unfold State.addBusy; dsimp only; (repeat' split) <;> simp
@[simp] theorem State.addBusy_vpend (u c : Nat) : (s.addBusy u c).vpend = s.vpend := by unfold State.addBusy; dsimp only; (repeat' split) <;> simp
@[simp] theorem State.addBusy_rings (u c : Nat) : (s.addBusy u c).rings = s.rings := by unfold State.addBusy; dsimp only; (repeat' split) <;> simp
@[simp] theorem State.addBusy_reqs (u c : Nat) : (s.addBusy u c).reqs = s.reqs := by unfold State.addBusy; dsimp only; (repeat' split) <;> simp
@[simp] theorem State.addBusy_sched (u c : Nat) : (s.addBusy u c).sched = s.sched := by unfold State.addBusy; dsimp only; (repeat' split) <;> simp
@[simp] theorem State.addBusy_gate (u c : Nat) : (s.addBusy u c).gate = s.gate := by unfold State.addBusy; dsimp only; (repeat' split) <;> simp
@[simp] theorem State.addBusy_ctx (u c : Nat) : (s.addBusy u c).ctx = s.ctx := by unfold State.addBusy; dsimp only; (repeat' split) <;> simp
@[simp] theorem State.addBusy_lanes (u c : Nat) : (s.addBusy u c).lanes = s.lanes := by unfold State.addBusy; dsimp only; (repeat' split) <;> simp
@[simp] theorem State.addBusy_reserve (u c : Nat) : (s.addBusy u c).reserve = s.reserve := by unfold State.addBusy; dsimp only; (repeat' split) <;> simp
@[simp] theorem State.addBusy_digs (u c : Nat) : (s.addBusy u c).digs = s.digs := by unfold State.addBusy; dsimp only; (repeat' split) <;> simp
@[simp] theorem State.addBusy_gal (u c : Nat) : (s.addBusy u c).gal = s.gal := by unfold State.addBusy; dsimp only; (repeat' split) <;> simp
@[simp] theorem State.addBusy_easels (u c : Nat) : (s.addBusy u c).easels = s.easels := by unfold State.addBusy; dsimp only; (repeat' split) <;> simp
@[simp] theorem State.addBusy_tables (u c : Nat) : (s.addBusy u c).tables = s.tables := by unfold State.addBusy; dsimp only; (repeat' split) <;> simp
@[simp] theorem State.addBusy_ent (u c : Nat) : (s.addBusy u c).ent = s.ent := by unfold State.addBusy; dsimp only; (repeat' split) <;> simp
@[simp] theorem State.addBusy_bist (u c : Nat) : (s.addBusy u c).bist = s.bist := by unfold State.addBusy; dsimp only; (repeat' split) <;> simp
@[simp] theorem State.addBusy_age (u c : Nat) : (s.addBusy u c).age = s.age := by unfold State.addBusy; dsimp only; (repeat' split) <;> simp
@[simp] theorem State.addBusy_ticks (u c : Nat) : (s.addBusy u c).ticks = s.ticks := by unfold State.addBusy; dsimp only; (repeat' split) <;> simp
@[simp] theorem State.addBusy_runLane (u c : Nat) : (s.addBusy u c).runLane = s.runLane := by unfold State.addBusy; dsimp only; (repeat' split) <;> simp
@[simp] theorem State.addBusy_runDig (u c : Nat) : (s.addBusy u c).runDig = s.runDig := by unfold State.addBusy; dsimp only; (repeat' split) <;> simp
@[simp] theorem State.addBusy_runPke (u c : Nat) : (s.addBusy u c).runPke = s.runPke := by unfold State.addBusy; dsimp only; (repeat' split) <;> simp
@[simp] theorem State.addBusy_free (u c : Nat) : (s.addBusy u c).free = s.free := by unfold State.addBusy; dsimp only; (repeat' split) <;> simp
@[simp] theorem State.addBusy_nextId (u c : Nat) : (s.addBusy u c).nextId = s.nextId := by unfold State.addBusy; dsimp only; (repeat' split) <;> simp

/-- A read after a write. -/
@[simp] theorem State.fn_setFn_self (i : Nat) (x : Fn) : (s.setFn i x).fn i = x := by
  simp [State.fn, State.setFn]
/-- A write leaves every other one. -/
theorem State.fn_setFn_ne {i j : Nat} (x : Fn) (h : j ≠ i) : (s.setFn i x).fn j = s.fn j := by
  simp [State.fn, State.setFn, tget_tset_ne _ _ _ h]

/-- A read after a write. -/
@[simp] theorem State.ring_setRing_self (i : Nat) (x : Ring) : (s.setRing i x).ring i = x := by
  simp [State.ring, State.setRing]
/-- A write leaves every other one. -/
theorem State.ring_setRing_ne {i j : Nat} (x : Ring) (h : j ≠ i) : (s.setRing i x).ring j = s.ring j := by
  simp [State.ring, State.setRing, tget_tset_ne _ _ _ h]

/-- A read after a write. -/
@[simp] theorem State.lane_setLane_self (i : Nat) (x : Eng) : (s.setLane i x).lane i = x := by
  simp [State.lane, State.setLane]
/-- A write leaves every other one. -/
theorem State.lane_setLane_ne {i j : Nat} (x : Eng) (h : j ≠ i) : (s.setLane i x).lane j = s.lane j := by
  simp [State.lane, State.setLane, tget_tset_ne _ _ _ h]

/-- A read after a write. -/
@[simp] theorem State.dig_setDig_self (i : Nat) (x : Eng) : (s.setDig i x).dig i = x := by
  simp [State.dig, State.setDig]
/-- A write leaves every other one. -/
theorem State.dig_setDig_ne {i j : Nat} (x : Eng) (h : j ≠ i) : (s.setDig i x).dig j = s.dig j := by
  simp [State.dig, State.setDig, tget_tset_ne _ _ _ h]

/-- A read after a write. -/
@[simp] theorem State.easel_setEasel_self (i : Nat) (x : Easel) : (s.setEasel i x).easel i = x := by
  simp [State.easel, State.setEasel]
/-- A write leaves every other one. -/
theorem State.easel_setEasel_ne {i j : Nat} (x : Easel) (h : j ≠ i) : (s.setEasel i x).easel j = s.easel j := by
  simp [State.easel, State.setEasel, tget_tset_ne _ _ _ h]

/-- A read after a write. -/
@[simp] theorem State.isl_setIsl_self (i : Nat) (x : Isl) : (s.setIsl i x).isl i = x := by
  simp [State.isl, State.setIsl]
/-- A write leaves every other one. -/
theorem State.isl_setIsl_ne {i j : Nat} (x : Isl) (h : j ≠ i) : (s.setIsl i x).isl j = s.isl j := by
  simp [State.isl, State.setIsl, tget_tset_ne _ _ _ h]

/-- A read after a write. -/
@[simp] theorem State.source_setSource_self (i : Nat) (x : Src) : (s.setSource i x).source i = x := by
  simp [State.source, State.setSource]
/-- A write leaves every other one. -/
theorem State.source_setSource_ne {i j : Nat} (x : Src) (h : j ≠ i) : (s.setSource i x).source j = s.source j := by
  simp [State.source, State.setSource, tget_tset_ne _ _ _ h]

/-- A read after a write. -/
@[simp] theorem State.ageU_setAgeU_self (i : Nat) (x : AgeU) : (s.setAgeU i x).ageU i = x := by
  simp [State.ageU, State.setAgeU]
/-- A write leaves every other one. -/
theorem State.ageU_setAgeU_ne {i j : Nat} (x : AgeU) (h : j ≠ i) : (s.setAgeU i x).ageU j = s.ageU j := by
  simp [State.ageU, State.setAgeU, tget_tset_ne _ _ _ h]

/-- A register reads as it was written. -/
@[simp] theorem State.reg_setReg_self (n : RegName) (i j : Nat) (v : Word) : (s.setReg n i j v).reg n i j = v := by
  simp [State.reg, State.setReg]
/-- A write leaves every register with another key. -/
theorem State.reg_setReg_ne {n m : RegName} {i j a b : Nat} (v : Word) (h : regKey m a b ≠ regKey n i j) :
    (s.setReg n i j v).reg m a b = s.reg m a b := by
  simp [State.reg, State.setReg, tget_tset_ne _ _ _ h]

@[simp] theorem State.setReg_fn (n' : RegName) (i' j' : Nat) (v : Word) (f : Nat) : (s.setReg n' i' j' v).fn f = s.fn f := by simp only [State.fn, State.setReg_fns]
@[simp] theorem State.setReg_ring (n' : RegName) (i' j' : Nat) (v : Word) (g : Nat) : (s.setReg n' i' j' v).ring g = s.ring g := by simp only [State.ring, State.setReg_rings]
@[simp] theorem State.setReg_lane (n' : RegName) (i' j' : Nat) (v : Word) (n : Nat) : (s.setReg n' i' j' v).lane n = s.lane n := by simp only [State.lane, State.setReg_lanes]
@[simp] theorem State.setReg_dig (n' : RegName) (i' j' : Nat) (v : Word) (e : Nat) : (s.setReg n' i' j' v).dig e = s.dig e := by simp only [State.dig, State.setReg_digs]
@[simp] theorem State.setReg_easel (n' : RegName) (i' j' : Nat) (v : Word) (e : Nat) : (s.setReg n' i' j' v).easel e = s.easel e := by simp only [State.easel, State.setReg_easels]
@[simp] theorem State.setReg_isl (n' : RegName) (i' j' : Nat) (v : Word) (i : Nat) : (s.setReg n' i' j' v).isl i = s.isl i := by simp only [State.isl, State.setReg_pwr]
@[simp] theorem State.setReg_source (n' : RegName) (i' j' : Nat) (v : Word) (i : Nat) : (s.setReg n' i' j' v).source i = s.source i := by simp only [State.source, State.setReg_ent]
@[simp] theorem State.setReg_req (n' : RegName) (i' j' : Nat) (v : Word) (id : Nat) : (s.setReg n' i' j' v).req id = s.req id := by simp only [State.req, State.setReg_reqs]
@[simp] theorem State.setFn_reg (f' : Nat) (x : Fn) (n : RegName) (i j : Nat) : (s.setFn f' x).reg n i j = s.reg n i j := by simp only [State.reg, State.setFn_regs]
@[simp] theorem State.setFn_ring (f' : Nat) (x : Fn) (g : Nat) : (s.setFn f' x).ring g = s.ring g := by simp only [State.ring, State.setFn_rings]
@[simp] theorem State.setFn_lane (f' : Nat) (x : Fn) (n : Nat) : (s.setFn f' x).lane n = s.lane n := by simp only [State.lane, State.setFn_lanes]
@[simp] theorem State.setFn_dig (f' : Nat) (x : Fn) (e : Nat) : (s.setFn f' x).dig e = s.dig e := by simp only [State.dig, State.setFn_digs]
@[simp] theorem State.setFn_easel (f' : Nat) (x : Fn) (e : Nat) : (s.setFn f' x).easel e = s.easel e := by simp only [State.easel, State.setFn_easels]
@[simp] theorem State.setFn_isl (f' : Nat) (x : Fn) (i : Nat) : (s.setFn f' x).isl i = s.isl i := by simp only [State.isl, State.setFn_pwr]
@[simp] theorem State.setFn_source (f' : Nat) (x : Fn) (i : Nat) : (s.setFn f' x).source i = s.source i := by simp only [State.source, State.setFn_ent]
@[simp] theorem State.setFn_req (f' : Nat) (x : Fn) (id : Nat) : (s.setFn f' x).req id = s.req id := by simp only [State.req, State.setFn_reqs]
@[simp] theorem State.setRing_reg (g' : Nat) (x : Ring) (n : RegName) (i j : Nat) : (s.setRing g' x).reg n i j = s.reg n i j := by simp only [State.reg, State.setRing_regs]
@[simp] theorem State.setRing_fn (g' : Nat) (x : Ring) (f : Nat) : (s.setRing g' x).fn f = s.fn f := by simp only [State.fn, State.setRing_fns]
@[simp] theorem State.setRing_lane (g' : Nat) (x : Ring) (n : Nat) : (s.setRing g' x).lane n = s.lane n := by simp only [State.lane, State.setRing_lanes]
@[simp] theorem State.setRing_dig (g' : Nat) (x : Ring) (e : Nat) : (s.setRing g' x).dig e = s.dig e := by simp only [State.dig, State.setRing_digs]
@[simp] theorem State.setRing_easel (g' : Nat) (x : Ring) (e : Nat) : (s.setRing g' x).easel e = s.easel e := by simp only [State.easel, State.setRing_easels]
@[simp] theorem State.setRing_isl (g' : Nat) (x : Ring) (i : Nat) : (s.setRing g' x).isl i = s.isl i := by simp only [State.isl, State.setRing_pwr]
@[simp] theorem State.setRing_source (g' : Nat) (x : Ring) (i : Nat) : (s.setRing g' x).source i = s.source i := by simp only [State.source, State.setRing_ent]
@[simp] theorem State.setRing_req (g' : Nat) (x : Ring) (id : Nat) : (s.setRing g' x).req id = s.req id := by simp only [State.req, State.setRing_reqs]
@[simp] theorem State.setLane_reg (n' : Nat) (x : Eng) (n : RegName) (i j : Nat) : (s.setLane n' x).reg n i j = s.reg n i j := by simp only [State.reg, State.setLane_regs]
@[simp] theorem State.setLane_fn (n' : Nat) (x : Eng) (f : Nat) : (s.setLane n' x).fn f = s.fn f := by simp only [State.fn, State.setLane_fns]
@[simp] theorem State.setLane_ring (n' : Nat) (x : Eng) (g : Nat) : (s.setLane n' x).ring g = s.ring g := by simp only [State.ring, State.setLane_rings]
@[simp] theorem State.setLane_dig (n' : Nat) (x : Eng) (e : Nat) : (s.setLane n' x).dig e = s.dig e := by simp only [State.dig, State.setLane_digs]
@[simp] theorem State.setLane_easel (n' : Nat) (x : Eng) (e : Nat) : (s.setLane n' x).easel e = s.easel e := by simp only [State.easel, State.setLane_easels]
@[simp] theorem State.setLane_isl (n' : Nat) (x : Eng) (i : Nat) : (s.setLane n' x).isl i = s.isl i := by simp only [State.isl, State.setLane_pwr]
@[simp] theorem State.setLane_source (n' : Nat) (x : Eng) (i : Nat) : (s.setLane n' x).source i = s.source i := by simp only [State.source, State.setLane_ent]
@[simp] theorem State.setLane_req (n' : Nat) (x : Eng) (id : Nat) : (s.setLane n' x).req id = s.req id := by simp only [State.req, State.setLane_reqs]
@[simp] theorem State.setDig_reg (e' : Nat) (x : Eng) (n : RegName) (i j : Nat) : (s.setDig e' x).reg n i j = s.reg n i j := by simp only [State.reg, State.setDig_regs]
@[simp] theorem State.setDig_fn (e' : Nat) (x : Eng) (f : Nat) : (s.setDig e' x).fn f = s.fn f := by simp only [State.fn, State.setDig_fns]
@[simp] theorem State.setDig_ring (e' : Nat) (x : Eng) (g : Nat) : (s.setDig e' x).ring g = s.ring g := by simp only [State.ring, State.setDig_rings]
@[simp] theorem State.setDig_lane (e' : Nat) (x : Eng) (n : Nat) : (s.setDig e' x).lane n = s.lane n := by simp only [State.lane, State.setDig_lanes]
@[simp] theorem State.setDig_easel (e' : Nat) (x : Eng) (e : Nat) : (s.setDig e' x).easel e = s.easel e := by simp only [State.easel, State.setDig_easels]
@[simp] theorem State.setDig_isl (e' : Nat) (x : Eng) (i : Nat) : (s.setDig e' x).isl i = s.isl i := by simp only [State.isl, State.setDig_pwr]
@[simp] theorem State.setDig_source (e' : Nat) (x : Eng) (i : Nat) : (s.setDig e' x).source i = s.source i := by simp only [State.source, State.setDig_ent]
@[simp] theorem State.setDig_req (e' : Nat) (x : Eng) (id : Nat) : (s.setDig e' x).req id = s.req id := by simp only [State.req, State.setDig_reqs]
@[simp] theorem State.setEasel_reg (e' : Nat) (x : Easel) (n : RegName) (i j : Nat) : (s.setEasel e' x).reg n i j = s.reg n i j := by simp only [State.reg, State.setEasel_regs]
@[simp] theorem State.setEasel_fn (e' : Nat) (x : Easel) (f : Nat) : (s.setEasel e' x).fn f = s.fn f := by simp only [State.fn, State.setEasel_fns]
@[simp] theorem State.setEasel_ring (e' : Nat) (x : Easel) (g : Nat) : (s.setEasel e' x).ring g = s.ring g := by simp only [State.ring, State.setEasel_rings]
@[simp] theorem State.setEasel_lane (e' : Nat) (x : Easel) (n : Nat) : (s.setEasel e' x).lane n = s.lane n := by simp only [State.lane, State.setEasel_lanes]
@[simp] theorem State.setEasel_dig (e' : Nat) (x : Easel) (e : Nat) : (s.setEasel e' x).dig e = s.dig e := by simp only [State.dig, State.setEasel_digs]
@[simp] theorem State.setEasel_isl (e' : Nat) (x : Easel) (i : Nat) : (s.setEasel e' x).isl i = s.isl i := by simp only [State.isl, State.setEasel_pwr]
@[simp] theorem State.setEasel_source (e' : Nat) (x : Easel) (i : Nat) : (s.setEasel e' x).source i = s.source i := by simp only [State.source, State.setEasel_ent]
@[simp] theorem State.setEasel_req (e' : Nat) (x : Easel) (id : Nat) : (s.setEasel e' x).req id = s.req id := by simp only [State.req, State.setEasel_reqs]
@[simp] theorem State.setIsl_reg (i' : Nat) (x : Isl) (n : RegName) (i j : Nat) : (s.setIsl i' x).reg n i j = s.reg n i j := by simp only [State.reg, State.setIsl_regs]
@[simp] theorem State.setIsl_fn (i' : Nat) (x : Isl) (f : Nat) : (s.setIsl i' x).fn f = s.fn f := by simp only [State.fn, State.setIsl_fns]
@[simp] theorem State.setIsl_ring (i' : Nat) (x : Isl) (g : Nat) : (s.setIsl i' x).ring g = s.ring g := by simp only [State.ring, State.setIsl_rings]
@[simp] theorem State.setIsl_lane (i' : Nat) (x : Isl) (n : Nat) : (s.setIsl i' x).lane n = s.lane n := by simp only [State.lane, State.setIsl_lanes]
@[simp] theorem State.setIsl_dig (i' : Nat) (x : Isl) (e : Nat) : (s.setIsl i' x).dig e = s.dig e := by simp only [State.dig, State.setIsl_digs]
@[simp] theorem State.setIsl_easel (i' : Nat) (x : Isl) (e : Nat) : (s.setIsl i' x).easel e = s.easel e := by simp only [State.easel, State.setIsl_easels]
@[simp] theorem State.setIsl_source (i' : Nat) (x : Isl) (i : Nat) : (s.setIsl i' x).source i = s.source i := by simp only [State.source, State.setIsl_ent]
@[simp] theorem State.setIsl_req (i' : Nat) (x : Isl) (id : Nat) : (s.setIsl i' x).req id = s.req id := by simp only [State.req, State.setIsl_reqs]
@[simp] theorem State.setSource_reg (i' : Nat) (x : Src) (n : RegName) (i j : Nat) : (s.setSource i' x).reg n i j = s.reg n i j := by simp only [State.reg, State.setSource_regs]
@[simp] theorem State.setSource_fn (i' : Nat) (x : Src) (f : Nat) : (s.setSource i' x).fn f = s.fn f := by simp only [State.fn, State.setSource_fns]
@[simp] theorem State.setSource_ring (i' : Nat) (x : Src) (g : Nat) : (s.setSource i' x).ring g = s.ring g := by simp only [State.ring, State.setSource_rings]
@[simp] theorem State.setSource_lane (i' : Nat) (x : Src) (n : Nat) : (s.setSource i' x).lane n = s.lane n := by simp only [State.lane, State.setSource_lanes]
@[simp] theorem State.setSource_dig (i' : Nat) (x : Src) (e : Nat) : (s.setSource i' x).dig e = s.dig e := by simp only [State.dig, State.setSource_digs]
@[simp] theorem State.setSource_easel (i' : Nat) (x : Src) (e : Nat) : (s.setSource i' x).easel e = s.easel e := by simp only [State.easel, State.setSource_easels]
@[simp] theorem State.setSource_isl (i' : Nat) (x : Src) (i : Nat) : (s.setSource i' x).isl i = s.isl i := by simp only [State.isl, State.setSource_pwr]
@[simp] theorem State.setSource_req (i' : Nat) (x : Src) (id : Nat) : (s.setSource i' x).req id = s.req id := by simp only [State.req, State.setSource_reqs]
@[simp] theorem State.setReq_reg (r : Req) (n : RegName) (i j : Nat) : (s.setReq r).reg n i j = s.reg n i j := by simp only [State.reg, State.setReq_regs]
@[simp] theorem State.setReq_fn (r : Req) (f : Nat) : (s.setReq r).fn f = s.fn f := by simp only [State.fn, State.setReq_fns]
@[simp] theorem State.setReq_ring (r : Req) (g : Nat) : (s.setReq r).ring g = s.ring g := by simp only [State.ring, State.setReq_rings]
@[simp] theorem State.setReq_lane (r : Req) (n : Nat) : (s.setReq r).lane n = s.lane n := by simp only [State.lane, State.setReq_lanes]
@[simp] theorem State.setReq_dig (r : Req) (e : Nat) : (s.setReq r).dig e = s.dig e := by simp only [State.dig, State.setReq_digs]
@[simp] theorem State.setReq_easel (r : Req) (e : Nat) : (s.setReq r).easel e = s.easel e := by simp only [State.easel, State.setReq_easels]
@[simp] theorem State.setReq_isl (r : Req) (i : Nat) : (s.setReq r).isl i = s.isl i := by simp only [State.isl, State.setReq_pwr]
@[simp] theorem State.setReq_source (r : Req) (i : Nat) : (s.setReq r).source i = s.source i := by simp only [State.source, State.setReq_ent]

end Sys2Proof.Machine
end

