-- ==== Sys2Proof/Laws/Keep.lean ====
section
/-! SUPPORT. `Keeps a t`: from `a` to `t` the queue of commands is the same and soundness is kept. One lemma per update. -/
namespace Sys2Proof.Machine

/-- From `a` to `t` the waiting commands are the same, and a sound state has become a sound one. -/
structure Keeps (a t : State) : Prop where
  queue : t.pending = a.pending
  sound : a.Sound → t.Sound

/-- What soundness and the queue look at. -/
def State.core (s : State) :=
  (s.pending, s.regs, s.fns, s.rings, s.lanes, s.digs, s.easels, s.pwr.isl, s.ent.src, s.age, s.tly.cells, s.gal.val, s.gal.count,
   s.port.code, s.port.data, s.fab.rd, s.fab.wr, s.kl.out, s.tly.queue)

theorem Keeps.refl (a : State) : Keeps a a := ⟨rfl, id⟩

theorem Keeps.trans {a b c : State} (h : Keeps a b) (h' : Keeps b c) : Keeps a c := ⟨h'.queue.trans h.queue, h'.sound ∘ h.sound⟩

theorem Keeps.core {a s t : State} (h : Keeps a s) (e : s.core = t.core) : Keeps a t := by
  simp only [State.core, Prod.mk.injEq] at e
  obtain ⟨e0, e1, e2, e3, e4, e5, e6, e7, e8, e9, e10, e11, e12, e13, e14, e15, e16, e17, e18⟩ := e
  refine ⟨e0.symm.trans h.queue, fun ha => ?_⟩
  obtain ⟨⟨c1, c2, c3, c4, c5, c6, c7, c8, c9, c10, c11, c12⟩, k1, k2, k3, k4, k5, k6⟩ := h.sound ha
  exact ⟨⟨e1 ▸ c1, e2 ▸ c2, e3 ▸ c3, e4 ▸ c4, e5 ▸ c5, e6 ▸ c6, e7 ▸ c7, e8 ▸ c8, e9 ▸ c9, e10 ▸ c10, e11 ▸ c11, e12 ▸ c12⟩,
    e13 ▸ k1, by rw [← e13, ← e14]; exact k2, e15 ▸ k3, e16 ▸ k4, e17 ▸ k5, e18 ▸ k6⟩

theorem Keeps.ite {a x y : State} {c : Prop} [Decidable c] (hx : Keeps a x) (hy : Keeps a y) : Keeps a (if c then x else y) := by
  split
  · exact hx
  · exact hy

theorem Keeps.foldl {α : Type} {a t : State} {f : State → α → State} {l : List α} (hf : ∀ u x, Keeps a u → Keeps a (f u x)) (h : Keeps a t) :
    Keeps a (l.foldl f t) := by
  induction l generalizing t with
  | nil => exact h
  | cons x l ih => exact ih (hf t x h)

/-- A state with other fields than those of `core`. -/
theorem Keeps.lit {a s : State} {blk pwr port fab kl primer time flt tly vpend reqs sched gate ctx reserve gal tables ent bist ticks l1 l2 l3 b fr ni}
    (h : Keeps a s) (e1 : pwr.isl = s.pwr.isl) (e2 : ent.src = s.ent.src) (e3 : tly.cells = s.tly.cells) (e4 : gal.val = s.gal.val)
    (e5 : gal.count = s.gal.count) (e6 : port.code = s.port.code) (e7 : port.data = s.port.data) (e8 : fab.rd = s.fab.rd)
    (e9 : fab.wr = s.fab.wr) (e10 : kl.out = s.kl.out) (e11 : tly.queue = s.tly.queue) :
    Keeps a ⟨s.pending, blk, pwr, port, s.regs, fab, kl, primer, time, flt, tly, s.fns, vpend, s.rings, reqs, sched, gate, ctx, s.lanes,
      reserve, s.digs, gal, s.easels, tables, ent, bist, s.age, ticks, l1, l2, l3, b, fr, ni⟩ := by
  refine Keeps.core h ?_
  simp only [State.core, e1, e2, e3, e4, e5, e6, e7, e8, e9, e10, e11]

/-- Every state that an operation may answer. -/
structure KeepsO (a : State) (o : Option State) : Prop where
  all : ∀ u, o = some u → Keeps a u

theorem KeepsO.none {a : State} : KeepsO a none := ⟨fun u e => by cases e⟩

theorem KeepsO.some {a t : State} (h : Keeps a t) : KeepsO a (some t) := ⟨fun u e => by cases e; exact h⟩

theorem KeepsO.map {a : State} {o : Option State} {g : State → State} (h : KeepsO a o) (hg : ∀ u, Keeps a u → Keeps a (g u)) :
    KeepsO a (o.map g) := by
  cases o with
  | none => exact KeepsO.none
  | some u => exact KeepsO.some (hg u (h.all u rfl))

theorem KeepsO.ite {a : State} {x y : Option State} {c : Prop} [Decidable c] (hx : KeepsO a x) (hy : KeepsO a y) :
    KeepsO a (if c then x else y) := by
  split
  · exact hx
  · exact hy

theorem Keeps.getD {a s : State} {o : Option State} (ho : KeepsO a o) (h : Keeps a s) : Keeps a (o.getD s) := by
  cases o with
  | none => exact h
  | some u => exact ho.all u rfl

/-- A pair of a state and a value: the state is kept. -/
structure KeepsP {α : Type} (a : State) (p : State × α) : Prop where
  fst : Keeps a p.1

theorem KeepsP.pair {α : Type} {a t : State} {x : α} (h : Keeps a t) : KeepsP a (t, x) := ⟨h⟩

theorem KeepsP.eq {α : Type} {a u : State} {p : State × α} {x : α} (h : KeepsP a p) (e : p = (u, x)) : Keeps a u := by
  have k := h.fst
  rw [e] at k
  exact k

theorem KeepsP.ite {α : Type} {a : State} {x y : State × α} {c : Prop} [Decidable c] (hx : KeepsP a x) (hy : KeepsP a y) :
    KeepsP a (if c then x else y) := by
  split
  · exact hx
  · exact hy

theorem KeepsP.foldl {α β : Type} {a : State} {f : State × α → β → State × α} {l : List β} {p : State × α}
    (hf : ∀ q x, KeepsP a q → KeepsP a (f q x)) (h : KeepsP a p) : KeepsP a (l.foldl f p) := by
  induction l generalizing p with
  | nil => exact h
  | cons x l ih => exact ih (hf p x h)

/-- Every state that a step of a request's preparation answers is kept. -/
structure KeepsQ {α : Type} (a : State) (p : Prep α) : Prop where
  go : ∀ u x, p = .go u x → Keeps a u
  wait : ∀ u, p = .wait u → Keeps a u
  stop : ∀ u, p = .stop u → Keeps a u

theorem KeepsQ.mkGo {α : Type} {a t : State} {x : α} (h : Keeps a t) : KeepsQ a (.go t x) :=
  ⟨fun u y e => (by cases e; exact h), fun u e => (by cases e), fun u e => by cases e⟩

theorem KeepsQ.mkWait {α : Type} {a t : State} (h : Keeps a t) : KeepsQ (α := α) a (.wait t) :=
  ⟨fun u y e => (by cases e), fun u e => (by cases e; exact h), fun u e => by cases e⟩

theorem KeepsQ.mkStop {α : Type} {a t : State} (h : Keeps a t) : KeepsQ (α := α) a (.stop t) :=
  ⟨fun u y e => (by cases e), fun u e => (by cases e), fun u e => by cases e; exact h⟩

theorem KeepsQ.ite {α : Type} {a : State} {x y : Prep α} {c : Prop} [Decidable c] (hx : KeepsQ a x) (hy : KeepsQ a y) :
    KeepsQ a (if c then x else y) := by
  split
  · exact hx
  · exact hy

theorem KeepsQ.bind {α β : Type} {a : State} {x : Prep α} {k : State → α → Prep β} (hx : KeepsQ a x)
    (hk : ∀ s v, Keeps a s → KeepsQ a (k s v)) : KeepsQ a (x.bind k) := by
  cases x with
  | go s v => exact hk s v (hx.go s v rfl)
  | wait s => exact KeepsQ.mkWait (hx.wait s rfl)
  | stop s => exact KeepsQ.mkStop (hx.stop s rfl)

theorem State.withReq_keeps {β : Type} {a s : State} {id : Nat} {k : Req → Prep β} (h : Keeps a s) (hk : ∀ r, KeepsQ a (k r)) :
    KeepsQ a (s.withReq id k) := by
  unfold State.withReq
  split
  · exact hk _
  · exact KeepsQ.mkStop h

/-- A command answers a next state, and that state is kept. -/
structure KeepsR (a : State) (o : Out) : Prop where
  next : ∃ u, o = .next u ∧ Keeps a u

theorem KeepsR.mkNext {a t : State} (h : Keeps a t) : KeepsR a (.next t) := ⟨t, rfl, h⟩

theorem KeepsR.ite {a : State} {x y : Out} {c : Prop} [Decidable c] (hx : KeepsR a x) (hy : KeepsR a y) :
    KeepsR a (if c then x else y) := by
  split
  · exact hx
  · exact hy

/-- As `lit`, with other transactions, key-lift requests and tally writes. -/
theorem Keeps.lit2 {a s : State} {blk pwr port fab kl primer time flt tly vpend reqs sched gate ctx reserve gal tables ent bist ticks l1 l2 l3 b fr ni}
    (h : Keeps a s) (e1 : pwr.isl = s.pwr.isl) (e2 : ent.src = s.ent.src) (e3 : tly.cells = s.tly.cells) (e4 : gal.val = s.gal.val)
    (e5 : gal.count = s.gal.count) (e6 : port.code = s.port.code) (e7 : port.data = s.port.data)
    (e8 : numbered s.fab.rd 256 → numbered fab.rd 256) (e9 : numbered s.fab.wr 128 → numbered fab.wr 128)
    (e10 : s.kl.out.length ≤ 4 → kl.out.length ≤ 4) (e11 : s.tly.queue.length ≤ 16 → tly.queue.length ≤ 16) :
    Keeps a ⟨s.pending, blk, pwr, port, s.regs, fab, kl, primer, time, flt, tly, s.fns, vpend, s.rings, reqs, sched, gate, ctx, s.lanes,
      reserve, s.digs, gal, s.easels, tables, ent, bist, s.age, ticks, l1, l2, l3, b, fr, ni⟩ := by
  refine ⟨h.queue, fun ha => ?_⟩
  obtain ⟨⟨c0, c1, c2, c3, c4, c5, c6, c7, c8, c9, c10, c11⟩, k1, k2, k3, k4, k5, k6⟩ := h.sound ha
  exact ⟨⟨c0, c1, c2, c3, c4, c5, e1 ▸ c6, e2 ▸ c7, c8, e3 ▸ c9, e4 ▸ c10, e5 ▸ c11⟩, e6 ▸ k1, by rw [e6, e7]; exact k2, e8 k3, e9 k4,
    e10 k5, e11 k6⟩

-- tables --------------------------------------------------------------------------------------------------------------------------

theorem State.setReg_keeps {a s : State} (h : Keeps a s) (n : RegName) (i j : Nat) (v : Word) : Keeps a (s.setReg n i j v) := by
  unfold State.setReg
  refine ⟨h.queue, fun ha => ?_⟩
  obtain ⟨⟨c0, c1, c2, c3, c4, c5, c6, c7, c8, c9, c10, c11⟩, k1, k2, k3, k4, k5, k6⟩ := h.sound ha
  exact ⟨⟨wf_tset _ _ c0, c1, c2, c3, c4, c5, c6, c7, c8, c9, c10, c11⟩, k1, k2, k3, k4, k5, k6⟩

theorem State.setFn_keeps {a s : State} (h : Keeps a s) (f : Nat) (x : Fn) : Keeps a (s.setFn f x) := by
  unfold State.setFn
  refine ⟨h.queue, fun ha => ?_⟩
  obtain ⟨⟨c0, c1, c2, c3, c4, c5, c6, c7, c8, c9, c10, c11⟩, k1, k2, k3, k4, k5, k6⟩ := h.sound ha
  exact ⟨⟨c0, wf_tset _ _ c1, c2, c3, c4, c5, c6, c7, c8, c9, c10, c11⟩, k1, k2, k3, k4, k5, k6⟩

theorem State.setRing_keeps {a s : State} (h : Keeps a s) (g : Nat) (x : Ring) : Keeps a (s.setRing g x) := by
  unfold State.setRing
  refine ⟨h.queue, fun ha => ?_⟩
  obtain ⟨⟨c0, c1, c2, c3, c4, c5, c6, c7, c8, c9, c10, c11⟩, k1, k2, k3, k4, k5, k6⟩ := h.sound ha
  exact ⟨⟨c0, c1, wf_tset _ _ c2, c3, c4, c5, c6, c7, c8, c9, c10, c11⟩, k1, k2, k3, k4, k5, k6⟩

theorem State.setLane_keeps {a s : State} (h : Keeps a s) (n : Nat) (x : Eng) : Keeps a (s.setLane n x) := by
  unfold State.setLane
  refine ⟨h.queue, fun ha => ?_⟩
  obtain ⟨⟨c0, c1, c2, c3, c4, c5, c6, c7, c8, c9, c10, c11⟩, k1, k2, k3, k4, k5, k6⟩ := h.sound ha
  exact ⟨⟨c0, c1, c2, wf_tset _ _ c3, c4, c5, c6, c7, c8, c9, c10, c11⟩, k1, k2, k3, k4, k5, k6⟩

theorem State.setDig_keeps {a s : State} (h : Keeps a s) (n : Nat) (x : Eng) : Keeps a (s.setDig n x) := by
  unfold State.setDig
  refine ⟨h.queue, fun ha => ?_⟩
  obtain ⟨⟨c0, c1, c2, c3, c4, c5, c6, c7, c8, c9, c10, c11⟩, k1, k2, k3, k4, k5, k6⟩ := h.sound ha
  exact ⟨⟨c0, c1, c2, c3, wf_tset _ _ c4, c5, c6, c7, c8, c9, c10, c11⟩, k1, k2, k3, k4, k5, k6⟩

theorem State.setEasel_keeps {a s : State} (h : Keeps a s) (n : Nat) (x : Easel) : Keeps a (s.setEasel n x) := by
  unfold State.setEasel
  refine ⟨h.queue, fun ha => ?_⟩
  obtain ⟨⟨c0, c1, c2, c3, c4, c5, c6, c7, c8, c9, c10, c11⟩, k1, k2, k3, k4, k5, k6⟩ := h.sound ha
  exact ⟨⟨c0, c1, c2, c3, c4, wf_tset _ _ c5, c6, c7, c8, c9, c10, c11⟩, k1, k2, k3, k4, k5, k6⟩

theorem State.setIsl_keeps {a s : State} (h : Keeps a s) (n : Nat) (x : Isl) : Keeps a (s.setIsl n x) := by
  unfold State.setIsl
  refine ⟨h.queue, fun ha => ?_⟩
  obtain ⟨⟨c0, c1, c2, c3, c4, c5, c6, c7, c8, c9, c10, c11⟩, k1, k2, k3, k4, k5, k6⟩ := h.sound ha
  exact ⟨⟨c0, c1, c2, c3, c4, c5, wf_tset _ _ c6, c7, c8, c9, c10, c11⟩, k1, k2, k3, k4, k5, k6⟩

theorem State.setSource_keeps {a s : State} (h : Keeps a s) (n : Nat) (x : Src) : Keeps a (s.setSource n x) := by
  unfold State.setSource
  refine ⟨h.queue, fun ha => ?_⟩
  obtain ⟨⟨c0, c1, c2, c3, c4, c5, c6, c7, c8, c9, c10, c11⟩, k1, k2, k3, k4, k5, k6⟩ := h.sound ha
  exact ⟨⟨c0, c1, c2, c3, c4, c5, c6, wf_tset _ _ c7, c8, c9, c10, c11⟩, k1, k2, k3, k4, k5, k6⟩

theorem State.setAgeU_keeps {a s : State} (h : Keeps a s) (n : Nat) (x : AgeU) : Keeps a (s.setAgeU n x) := by
  unfold State.setAgeU
  refine ⟨h.queue, fun ha => ?_⟩
  obtain ⟨⟨c0, c1, c2, c3, c4, c5, c6, c7, c8, c9, c10, c11⟩, k1, k2, k3, k4, k5, k6⟩ := h.sound ha
  exact ⟨⟨c0, c1, c2, c3, c4, c5, c6, c7, wf_tset _ _ c8, c9, c10, c11⟩, k1, k2, k3, k4, k5, k6⟩

end Sys2Proof.Machine
end

