-- ==== Sys2Proof/Laws/KeepRequests.lean ====
section
/-! SUPPORT. What keeps the queue of commands and soundness: power, tally store, bus, rings, contexts, requests. One lemma per function that changes the state. -/
namespace Sys2Proof.Machine

set_option linter.unreachableTactic false
set_option linter.unusedTactic false
set_option linter.tactic.unusedName false

-- Machine/Ops.lean ---------------------------------------------------------------------------------------------------------------------

theorem State.bump_keeps {a s : State} {n : RegName} {i : Nat} {j : Nat} (h : Keeps a s) : Keeps a (State.bump s n i j) := by
  unfold State.bump
  iterate 40 (try any_goals first | with_reducible assumption | with_reducible apply State.setReg_keeps)

theorem State.bumpSat_keeps {a s : State} {n : RegName} {i : Nat} {j : Nat} {k : Nat} (h : Keeps a s) : Keeps a (State.bumpSat s n i j k) := by
  unfold State.bumpSat
  iterate 40 (try any_goals first | with_reducible assumption | with_reducible apply State.setReg_keeps)

theorem State.injFired_keeps {a s : State} (h : Keeps a s) : Keeps a (State.injFired s) := by
  unfold State.injFired
  iterate 40 (try any_goals first | with_reducible assumption | (refine Keeps.lit ?_ rfl rfl rfl rfl rfl rfl rfl rfl rfl rfl rfl))

theorem State.recover_keeps {a s : State} {k : State → State} (h : Keeps a s) (hk : ∀ v0, Keeps a v0 → Keeps a (k v0)) :
    Keeps a (State.recover s k) := by
  unfold State.recover
  iterate 40 (try any_goals first | with_reducible assumption | with_reducible apply hk | with_reducible apply Keeps.ite)

theorem State.endStall_keeps {a s : State} {c : Nat} {v : Word} (h : Keeps a s) (hc : c ≤ 1) (hv : c = 1 → v = 0) :
    Keeps a (s.endStall c v) := by
  unfold State.endStall
  split
  · refine ⟨h.queue, fun ha => ?_⟩
    obtain ⟨⟨c0, c1, c2, c3, c4, c5, c6, c7, c8, c9, c10, c11⟩, k1, k2, k3, k4, k5, k6⟩ := h.sound ha
    exact ⟨⟨c0, c1, c2, c3, c4, c5, c6, c7, c8, c9, c10, c11⟩, hc, hv, k3, k4, k5, k6⟩
  · exact h

theorem State.endStall_ok {a s : State} {v : Word} (h : Keeps a s) : Keeps a (s.endStall 0 v) :=
  State.endStall_keeps h (by decide) (fun e => by cases e)

theorem State.endStall_error {a s : State} (h : Keeps a s) : Keeps a (s.endStall 1 0) :=
  State.endStall_keeps h (by decide) (fun _ => rfl)

theorem State.capture_keeps {a s : State} {src : Nat} {detail : Nat} {tag : Nat} {inj : Bool} {least : Nat} (h : Keeps a s) :
    Keeps a (State.capture s src detail tag inj least) := by
  unfold State.capture
  iterate 40 (try any_goals first
    | with_reducible assumption | with_reducible apply State.endStall_error | with_reducible apply Keeps.ite
    | (refine Keeps.lit ?_ rfl rfl rfl rfl rfl rfl rfl rfl rfl rfl rfl))

theorem State.singleStrike_keeps {a s : State} {c : Nat} {src : Nat} {idx : Nat} (h : Keeps a s) : Keeps a (State.singleStrike s c src idx) := by
  unfold State.singleStrike
  iterate 40 (try any_goals first
    | with_reducible assumption | with_reducible apply State.capture_keeps | with_reducible apply State.injFired_keeps
    | with_reducible apply Keeps.ite)

theorem State.setReq_keeps {a s : State} {r : Req} (h : Keeps a s) : Keeps a (State.setReq s r) := by
  unfold State.setReq
  iterate 40 (try any_goals first | with_reducible assumption | (refine Keeps.lit ?_ rfl rfl rfl rfl rfl rfl rfl rfl rfl rfl rfl))

theorem iterate_keeps {a s : State} {n : Nat} {g : State → State} (hg : ∀ u, Keeps a u → Keeps a (g u)) (h : Keeps a s) :
    Keeps a (iterate n g s) := by
  induction n generalizing s with
  | zero => exact h
  | succ n ih => exact ih (hg s h)

-- Machine/Power.lean -------------------------------------------------------------------------------------------------------------------

theorem State.islReady_keeps {a s : State} {i : Nat} (h : Keeps a s) : Keeps a (State.islReady s i) := by
  unfold State.islReady
  iterate 40 (try any_goals first
    | with_reducible assumption | with_reducible apply State.setIsl_keeps | with_reducible apply Keeps.ite
    | (refine Keeps.lit ?_ rfl rfl rfl rfl rfl rfl rfl rfl rfl rfl rfl))

theorem State.bgAsk_keeps {a s : State} {d : Nat} (h : Keeps a s) : Keeps a (State.bgAsk s d) := by
  unfold State.bgAsk
  iterate 40 (try any_goals first | with_reducible assumption | (refine Keeps.lit ?_ rfl rfl rfl rfl rfl rfl rfl rfl rfl rfl rfl))

theorem State.bgDone_keeps {a s : State} {d : Nat} (h : Keeps a s) : Keeps a (State.bgDone s d) := by
  unfold State.bgDone
  iterate 40 (try any_goals first | with_reducible assumption | (refine Keeps.lit ?_ rfl rfl rfl rfl rfl rfl rfl rfl rfl rfl rfl))

theorem State.islWake_keeps {a s : State} {i : Nat} (h : Keeps a s) : Keeps a (State.islWake s i) := by
  unfold State.islWake
  iterate 40 (try any_goals first
    | with_reducible assumption | ((fail_if_success (conv => arg 2; fun)); fail_if_no_progress extract_lets +onlyGivenNames y)
    | with_reducible apply State.setIsl_keeps | split)

theorem State.islLose_keeps {a s : State} {i : Nat} {kept : Bool} (h : Keeps a s) : Keeps a (State.islLose s i kept) := by
  unfold State.islLose
  iterate 40 (try any_goals first
    | with_reducible assumption | with_reducible apply State.setLane_keeps | with_reducible apply Keeps.ite
    | (refine Keeps.lit ?_ rfl rfl rfl rfl rfl rfl rfl rfl rfl rfl rfl))

theorem State.islDown_keeps {a s : State} {i : Nat} (h : Keeps a s) : Keeps a (State.islDown s i) := by
  unfold State.islDown
  iterate 40 (try any_goals first
    | with_reducible assumption | with_reducible apply State.islLose_keeps | with_reducible apply State.setIsl_keeps | with_reducible apply Keeps.ite)

theorem State.powerAck_keeps {a s : State} {i : Nat} {v : Bool} (h : Keeps a s) : Keeps a (State.powerAck s i v) := by
  unfold State.powerAck
  iterate 40 (try any_goals first
    | with_reducible assumption | ((fail_if_success (conv => arg 2; fun)); fail_if_no_progress extract_lets +onlyGivenNames y)
    | with_reducible apply State.setIsl_keeps | with_reducible apply State.islReady_keeps | with_reducible apply State.capture_keeps
    | with_reducible apply State.islWake_keeps | split)

theorem State.retAck_keeps {a s : State} {i : Nat} {v : Bool} (h : Keeps a s) : Keeps a (State.retAck s i v) := by
  unfold State.retAck
  iterate 40 (try any_goals first
    | with_reducible assumption | ((fail_if_success (conv => arg 2; fun)); fail_if_no_progress extract_lets +onlyGivenNames y)
    | with_reducible apply State.setIsl_keeps | with_reducible apply State.islReady_keeps | split)

theorem State.clockAck_keeps {a s : State} {d : Nat} {v : Bool} (h : Keeps a s) : Keeps a (State.clockAck s d v) := by
  unfold State.clockAck
  iterate 40 (try any_goals first
    | with_reducible assumption | with_reducible apply State.capture_keeps | with_reducible apply Keeps.ite
    | (refine Keeps.lit ?_ rfl rfl rfl rfl rfl rfl rfl rfl rfl rfl rfl))

theorem State.driveClocks_keeps {a s : State} {want : Nat → Bool} (h : Keeps a s) : Keeps a (State.driveClocks s want) := by
  unfold State.driveClocks
  iterate 40 (try any_goals first | with_reducible assumption | (refine Keeps.lit ?_ rfl rfl rfl rfl rfl rfl rfl rfl rfl rfl rfl))

theorem State.allOff_keeps {a s : State} (h : Keeps a s) : Keeps a s.allOff := by
  unfold State.allOff
  refine ⟨h.queue, fun ha => ?_⟩
  obtain ⟨⟨c0, c1, c2, c3, c4, c5, c6, c7, c8, c9, c10, c11⟩, k1, k2, k3, k4, k5, k6⟩ := h.sound ha
  refine ⟨⟨c0, c1, c2, c3, c4, c5, wf_filterMap _ c6 ?_, c7, c8, c9, c10, c11⟩, k1, k2, k3, k4, k5, k6⟩
  intro e _ y hy
  split at hy
  · next hb =>
    cases hy
    refine ⟨rfl, fun he => ?_⟩
    simp only [Isl.mk.injEq, Bool.or_eq_true] at he hb
    simp [he.2.2.1, he.2.2.2.2.1] at hb
  · cases hy

-- Machine/Tally.lean -------------------------------------------------------------------------------------------------------------------

theorem State.startSource_keeps {a s : State} {i : Nat} (h : Keeps a s) : Keeps a (State.startSource s i) := by
  unfold State.startSource
  iterate 40 (try any_goals first | with_reducible assumption | with_reducible apply State.setSource_keeps | with_reducible apply Keeps.ite)

theorem State.entropyStart_keeps {a s : State} (h : Keeps a s) : Keeps a (State.entropyStart s) := by
  unfold State.entropyStart
  iterate 40 (try any_goals first
    | with_reducible assumption | with_reducible apply State.islWake_keeps | with_reducible apply State.startSource_keeps
    | with_reducible apply Keeps.foldl | (refine Keeps.lit ?_ rfl rfl rfl rfl rfl rfl rfl rfl rfl rfl rfl))

theorem State.enterWarmup_keeps {a s : State} (h : Keeps a s) : Keeps a (State.enterWarmup s) := by
  unfold State.enterWarmup
  iterate 40 (try any_goals first
    | with_reducible assumption | with_reducible apply State.islWake_keeps | with_reducible apply State.entropyStart_keeps
    | with_reducible apply Keeps.foldl | (refine Keeps.lit ?_ rfl rfl rfl rfl rfl rfl rfl rfl rfl rfl rfl))

theorem State.usable_keeps {a s : State} (h : Keeps a s) : Keeps a (State.usable s) := by
  unfold State.usable
  iterate 40 (try any_goals first | with_reducible assumption | split | (refine Keeps.lit ?_ rfl rfl rfl rfl rfl rfl rfl rfl rfl rfl rfl))

/-- A state with another tally queue. -/
theorem Keeps.tly {a s : State} {x : Tly} (h : Keeps a s) (e : x.cells = s.tly.cells) (hq : s.tly.queue.length ≤ 16 → x.queue.length ≤ 16) :
    Keeps a { s with tly := x } := by
  refine ⟨h.queue, fun ha => ?_⟩
  obtain ⟨⟨c0, c1, c2, c3, c4, c5, c6, c7, c8, c9, c10, c11⟩, k1, k2, k3, k4, k5, k6⟩ := h.sound ha
  exact ⟨⟨c0, c1, c2, c3, c4, c5, c6, c7, c8, e ▸ c9, c10, c11⟩, k1, k2, k3, k4, k5, hq k6⟩

theorem State.tlyEffect_keeps {a s : State} {idx : Nat} {ok : Bool} {x1 : TlyWho} (h : Keeps a s) : Keeps a (State.tlyEffect s idx ok x1) := by
  unfold State.tlyEffect
  iterate 40 (try any_goals first
    | with_reducible assumption
    | ((fail_if_success (conv => arg 2; fun)); ((fail_if_no_progress extract_lets +onlyGivenNames y); have hy : Keeps a y := ?_; (try clear_value y); rotate_left; try unfold y))
    | ((fail_if_success (conv => arg 2; fun)); fail_if_no_progress extract_lets +onlyGivenNames y) | with_reducible apply State.enterWarmup_keeps
    | with_reducible apply State.setFn_keeps | with_reducible exact Keeps.tly (by assumption) rfl (fun k => (List.length_filter_le _ _).trans k)
    | split | (refine Keeps.lit ?_ rfl rfl rfl rfl rfl rfl rfl rfl rfl rfl rfl))

@[simp] theorem length_tlyInsert (w : TlyW) (l : List TlyW) : (tlyInsert w l).length = l.length + 1 := by
  induction l with
  | nil => rfl
  | cons x t ih =>
    unfold tlyInsert
    split <;> simp [*]

theorem length_tlyMerge (w : TlyW) (l : List TlyW) : (tlyMerge w l).length ≤ l.length := by
  unfold tlyMerge
  split
  · exact le_refl _
  · next x hx =>
    have hm := List.mem_of_find?_eq_some hx
    have hi : x.idx = w.idx := by simpa using List.find?_some hx
    dsimp only
    split
    · simp
    · have hs : (l.filter (fun y => y.idx != w.idx)).length < l.length := by
        apply List.length_filter_lt_length_iff_exists.2
        exact ⟨x, hm, by simp [hi]⟩
      simp only [length_tlyInsert]
      omega

/-- Filling leaves at most 16 writes in the queue (R524). -/
theorem length_tlyFillF (n : Nat) (q w : List TlyW) (h : q.length ≤ 16) : (tlyFillF n q w).1.length ≤ 16 := by
  induction n generalizing q w with
  | zero => exact h
  | succ n ih =>
    cases w with
    | nil => exact h
    | cons x t =>
      unfold tlyFillF
      split
      · exact ih _ _ (by simp only [length_tlyInsert]; omega)
      · exact h

theorem State.tlyStartF_keeps {a s : State} {n : Nat} (h : Keeps a s) : Keeps a (State.tlyStartF n s) := by
  induction n generalizing s with
  | zero => exact h
  | succ n ih =>
    unfold State.tlyStartF
    split
    · next w t hc hq =>
      have hf : Keeps a { s with tly := { s.tly with queue := (tlyFillF s.tly.wait.length t s.tly.wait).1
                                                     wait := (tlyFillF s.tly.wait.length t s.tly.wait).2 } } := by
        refine Keeps.tly h rfl (fun k => length_tlyFillF _ _ _ ?_)
        rw [hq] at k
        simp only [List.length_cons] at k
        omega
      revert hf
      cases tlyFillF s.tly.wait.length t s.tly.wait with
      | mk q wt =>
        intro hf
        dsimp only at hf ⊢
        split
        · refine ih (Keeps.foldl (fun u x hu => State.tlyEffect_keeps hu) (State.capture_keeps ?_))
          exact Keeps.core hf rfl
        · exact Keeps.core hf rfl
    · exact h

theorem State.tlyStart_keeps {a s : State} (h : Keeps a s) : Keeps a (State.tlyStart s) := by
  unfold State.tlyStart
  iterate 40 (try any_goals first | with_reducible assumption | with_reducible apply State.tlyStartF_keeps)

theorem State.tlyEnqueue_keeps {a s : State} {w : TlyW} (h : Keeps a s) : Keeps a (s.tlyEnqueue w) := by
  unfold State.tlyEnqueue
  apply State.tlyStart_keeps
  split
  · exact Keeps.tly h rfl (fun k => le_trans (length_tlyMerge w _) k)
  · split
    · exact Keeps.tly h rfl id
    · split
      · next hl => exact Keeps.tly h rfl (fun _ => by simp only [length_tlyInsert]; omega)
      · exact Keeps.tly h rfl id

theorem State.tlyWrite_keeps {a s : State} {idx : Nat} {val : Word} {cls : Nat} {who : List TlyWho} (h : Keeps a s) :
    Keeps a (State.tlyWrite s idx val cls who) := by
  unfold State.tlyWrite
  iterate 40 (try any_goals first
    | with_reducible assumption | intro _ | ((fail_if_success (conv => arg 2; fun)); fail_if_no_progress extract_lets +onlyGivenNames y)
    | with_reducible apply State.tlyEffect_keeps | with_reducible apply State.tlyEnqueue_keeps
    | with_reducible exact Keeps.tly h rfl (fun k => by simpa using k) | with_reducible apply Keeps.foldl | split)

theorem State.tlyDurable_keeps {a s : State} (h : Keeps a s) : Keeps a s.tlyDurable := by
  unfold State.tlyDurable
  refine Keeps.ite h ?_
  split
  · exact h
  · refine State.tlyStart_keeps (Keeps.foldl (fun u x hu => State.tlyEffect_keeps hu) ⟨h.queue, fun ha => ?_⟩)
    obtain ⟨⟨c0, c1, c2, c3, c4, c5, c6, c7, c8, c9, c10, c11⟩, k1, k2, k3, k4, k5, k6⟩ := h.sound ha
    exact ⟨⟨c0, c1, c2, c3, c4, c5, c6, c7, c8, wf_tset _ _ c9, c10, c11⟩, k1, k2, k3, k4, k5, k6⟩

theorem State.history_keeps {a s : State} {src : Nat} {cls : Nat} {detail : Nat} (h : Keeps a s) : Keeps a (State.history s src cls detail) := by
  unfold State.history
  iterate 40 (try any_goals first | with_reducible assumption | with_reducible apply State.tlyWrite_keeps)

theorem State.markRetired_keeps {a s : State} {u : Nat} (h : Keeps a s) : Keeps a (State.markRetired s u) := by
  unfold State.markRetired
  iterate 40 (try any_goals first
    | with_reducible assumption | with_reducible apply State.tlyWrite_keeps | with_reducible apply State.capture_keeps
    | with_reducible apply Keeps.ite | (refine Keeps.lit ?_ rfl rfl rfl rfl rfl rfl rfl rfl rfl rfl rfl))

theorem State.sealAdvanceStart_keeps {a s : State} {f : Nat} (h : Keeps a s) : Keeps a (State.sealAdvanceStart s f) := by
  unfold State.sealAdvanceStart
  iterate 40 (try any_goals first
    | with_reducible assumption | with_reducible apply State.setFn_keeps | with_reducible apply State.tlyWrite_keeps | with_reducible apply Keeps.ite)

theorem State.tlyRepair_keeps {a s : State} {i : Nat} {v : Word} (h : Keeps a s) : Keeps a (State.tlyRepair s i v) := by
  unfold State.tlyRepair
  iterate 40 (try any_goals first
    | with_reducible assumption | with_reducible apply State.capture_keeps | with_reducible apply State.tlyEnqueue_keeps
    | with_reducible apply Keeps.ite | (refine Keeps.lit ?_ rfl rfl rfl rfl rfl rfl rfl rfl rfl rfl rfl))

theorem State.tlyScanOne_keeps {a s : State} {i : Nat} (h : Keeps a s) : Keeps a (State.tlyScanOne s i) := by
  unfold State.tlyScanOne
  iterate 40 (try any_goals first
    | with_reducible assumption | intro _ | ((fail_if_success (conv => arg 2; fun)); fail_if_no_progress extract_lets +onlyGivenNames y)
    | with_reducible apply State.capture_keeps | with_reducible apply State.recover_keeps | with_reducible apply State.tlyRepair_keeps
    | with_reducible apply State.bumpSat_keeps | split)

-- Machine/Bus.lean ---------------------------------------------------------------------------------------------------------------------

-- transactions ------------------------------------------------------------------------------------------------------------------

/-- Fewer transactions keep distinct numbers. -/
theorem numbered.sublist {l l' : List Txn} {n : Nat} (h : numbered l n) (hs : l'.Sublist l) : numbered l' n :=
  ⟨fun t ht => h.1 t (hs.subset ht), h.2.sublist (hs.map _)⟩

/-- A transaction issued under the lowest free number (R50). -/
theorem numbered.issue {l : List Txn} {lim n : Nat} {p : Fin 2} (h : numbered l lim) (hn : freeNum l p lim = some n) (t : Txn)
    (htp : t.port = p) (htn : t.num = n) : numbered (l ++ [t]) lim := by
  unfold freeNum at hn
  have hlt : n < lim := by simpa using List.mem_of_find?_eq_some hn
  have hfr := List.find?_some hn
  simp only [List.all_eq_true, Bool.or_eq_true, bne_iff_ne] at hfr
  constructor
  · intro x hx
    rcases List.mem_append.1 hx with hx | hx
    · exact h.1 x hx
    · simp only [List.mem_singleton] at hx
      subst hx; omega
  · rw [List.map_append, List.nodup_append]
    refine ⟨h.2, by simp, ?_⟩
    intro y hy z hz
    simp only [List.map_cons, List.map_nil, List.mem_singleton] at hz
    subst hz
    obtain ⟨x, hx, rfl⟩ := List.mem_map.1 hy
    intro e
    simp only [Prod.mk.injEq, htp, htn] at e
    exact (hfr x hx).elim (fun k => k e.1) (fun k => k e.2)

/-- A state with other fabric lists. -/
theorem Keeps.fab {a s : State} {x : Fab} (h : Keeps a s) (hr : numbered s.fab.rd 256 → numbered x.rd 256)
    (hw : numbered s.fab.wr 128 → numbered x.wr 128) : Keeps a { s with fab := x } := by
  refine ⟨h.queue, fun ha => ?_⟩
  obtain ⟨⟨c0, c1, c2, c3, c4, c5, c6, c7, c8, c9, c10, c11⟩, k1, k2, k3, k4, k5, k6⟩ := h.sound ha
  exact ⟨⟨c0, c1, c2, c3, c4, c5, c6, c7, c8, c9, c10, c11⟩, k1, k2, hr k3, hw k4, k5, k6⟩

/-- A state with another key lift. -/
theorem Keeps.kl {a s : State} {x : Kl} (h : Keeps a s) (hk : s.kl.out.length ≤ 4 → x.out.length ≤ 4) : Keeps a { s with kl := x } := by
  refine ⟨h.queue, fun ha => ?_⟩
  obtain ⟨⟨c0, c1, c2, c3, c4, c5, c6, c7, c8, c9, c10, c11⟩, k1, k2, k3, k4, k5, k6⟩ := h.sound ha
  exact ⟨⟨c0, c1, c2, c3, c4, c5, c6, c7, c8, c9, c10, c11⟩, k1, k2, k3, k4, hk k5, k6⟩

theorem State.issueRd_keeps {a s : State} {t : Txn} (h : Keeps a s) : KeepsO a (s.issueRd t) := by
  unfold State.issueRd
  dsimp only
  split
  · exact KeepsO.none
  · split
    · exact KeepsO.none
    · next n hn =>
      refine KeepsO.some ?_
      refine Keeps.core (Keeps.fab (x := { s.fab with rd := s.fab.rd ++ [{ t with port := s.choosePort t, num := n, sent := true }] }) h ?_ ?_) rfl
      · exact fun k => k.issue hn _ rfl rfl
      · exact id

theorem State.issueWr_keeps {a s : State} {t : Txn} (h : Keeps a s) : KeepsO a (s.issueWr t) := by
  unfold State.issueWr
  dsimp only
  split
  · exact KeepsO.none
  · split
    · exact KeepsO.none
    · next n hn =>
      refine KeepsO.some ?_
      refine Keeps.core (Keeps.fab (x := { s.fab with wr := s.fab.wr ++ [{ t with port := s.choosePort t, num := n, sent := true }] }) h ?_ ?_) rfl
      · exact id
      · exact fun k => k.issue hn _ rfl rfl

theorem State.pumpRdF_keeps {a s : State} {l : List Txn} (h : Keeps a s) : Keeps a (State.pumpRdF l s) := by
  induction l generalizing s with
  | nil => exact h
  | cons t l ih =>
    unfold State.pumpRdF
    split
    · exact ih ((State.issueRd_keeps h).all _ (by assumption))
    · exact ih (Keeps.lit h rfl rfl rfl rfl rfl rfl rfl rfl rfl rfl rfl)

theorem State.pumpWrF_keeps {a s : State} {l : List Txn} (h : Keeps a s) : Keeps a (State.pumpWrF l s) := by
  induction l generalizing s with
  | nil => exact h
  | cons t l ih =>
    unfold State.pumpWrF
    split
    · exact ih ((State.issueWr_keeps h).all _ (by assumption))
    · exact ih (Keeps.lit h rfl rfl rfl rfl rfl rfl rfl rfl rfl rfl rfl)

theorem State.pumpFab_keeps {a s : State} (h : Keeps a s) : Keeps a (State.pumpFab s) := by
  unfold State.pumpFab
  iterate 40 (try any_goals first
    | with_reducible assumption | with_reducible apply State.pumpRdF_keeps | with_reducible apply State.pumpWrF_keeps | with_reducible apply Keeps.ite
    | (refine Keeps.lit ?_ rfl rfl rfl rfl rfl rfl rfl rfl rfl rfl rfl))

theorem State.queueRead_keeps {a s : State} {x1 : Nat} {len : Nat} {tag : Nat} {use : Use} (h : Keeps a s) :
    Keeps a (State.queueRead s x1 len tag use) := by
  unfold State.queueRead
  iterate 40 (try any_goals first | with_reducible assumption | (refine Keeps.lit ?_ rfl rfl rfl rfl rfl rfl rfl rfl rfl rfl rfl))

theorem State.queueWrite_keeps {a s : State} {x1 : Nat} {data : Bytes} {tag : Nat} {use : Use} {fixed : Option (Fin 2)}
    {after : List Nat} {buf : optParam (Option (Nat × Nat)) Option.none} (h : Keeps a s) :
    Keeps a (State.queueWrite s x1 data tag use fixed after buf) := by
  obtain ⟨buf1, buf2⟩ := buf
  unfold State.queueWrite
  iterate 40 (try any_goals first | with_reducible assumption | (refine Keeps.lit ?_ rfl rfl rfl rfl rfl rfl rfl rfl rfl rfl rfl))

theorem State.sendNow_keeps {a s : State} {x1 : Nat} {data : Bytes} {tag : Nat} {use : Use} (h : Keeps a s) :
    KeepsO a (State.sendNow s x1 data tag use) := by
  unfold State.sendNow
  iterate 40 (try any_goals first
    | with_reducible assumption | intro _ | with_reducible apply State.issueWr_keeps | with_reducible apply KeepsO.map
    | (refine Keeps.lit ?_ rfl rfl rfl rfl rfl rfl rfl rfl rfl rfl rfl))

theorem State.portFault_keeps {a s : State} {p : Fin 2} (h : Keeps a s) : Keeps a (s.portFault p) := by
  unfold State.portFault
  split
  · exact h
  · have hm : Keeps a (s.markRetired (17 + p.val)) := State.markRetired_keeps h
    dsimp only
    generalize s.markRetired (17 + p.val) = s' at hm
    exact Keeps.fab hm (fun k => k.sublist List.filter_sublist) (fun k => k.sublist List.filter_sublist)

theorem State.klNeed_keeps {a s : State} {slot : Nat} {tag : Nat} {use : Nat} (h : Keeps a s) : Keeps a (State.klNeed s slot tag use) := by
  unfold State.klNeed
  iterate 40 (try any_goals first
    | with_reducible assumption | with_reducible apply Keeps.ite | (refine Keeps.lit ?_ rfl rfl rfl rfl rfl rfl rfl rfl rfl rfl rfl))

theorem State.pumpKl_keeps {a s : State} (h : Keeps a s) : Keeps a s.pumpKl := by
  unfold State.pumpKl
  refine Keeps.ite h ?_
  dsimp only
  refine Keeps.lit2 h rfl rfl rfl rfl rfl rfl rfl id id (fun k => ?_) id
  simp only [List.length_append, List.length_map, List.length_take]
  omega

theorem State.klRefused_keeps {a s : State} {k : KlReq} (h : Keeps a s) : Keeps a (State.klRefused s k) := by
  unfold State.klRefused
  iterate 40 (try any_goals first
    | with_reducible assumption | with_reducible apply State.bumpSat_keeps | (refine Keeps.lit ?_ rfl rfl rfl rfl rfl rfl rfl rfl rfl rfl rfl))

-- Machine/Rings.lean -------------------------------------------------------------------------------------------------------------------

theorem State.addBusy_keeps {a s : State} {u : Nat} {c : Nat} (h : Keeps a s) : Keeps a (State.addBusy s u c) := by
  unfold State.addBusy
  iterate 40 (try any_goals first
    | with_reducible assumption | with_reducible apply State.setReg_keeps | with_reducible apply Keeps.ite
    | (refine Keeps.lit ?_ rfl rfl rfl rfl rfl rfl rfl rfl rfl rfl rfl))

theorem State.abandonRun_keeps {a s : State} {id : Nat} {u : Nat} (h : Keeps a s) : Keeps a (State.abandonRun s id u) := by
  unfold State.abandonRun
  iterate 40 (try any_goals first
    | with_reducible assumption | with_reducible apply State.addBusy_keeps | with_reducible apply Keeps.ite
    | (refine Keeps.lit ?_ rfl rfl rfl rfl rfl rfl rfl rfl rfl rfl rfl))

theorem State.freeReq_keeps {a s : State} {id : Nat} (h : Keeps a s) : Keeps a (State.freeReq s id) := by
  unfold State.freeReq
  iterate 40 (try any_goals first
    | with_reducible assumption | intro _ | with_reducible apply State.abandonRun_keeps | with_reducible apply State.setLane_keeps
    | with_reducible apply State.setDig_keeps | with_reducible apply State.setEasel_keeps | with_reducible apply Keeps.foldl
    | (refine Keeps.lit ?_ rfl rfl rfl rfl rfl rfl rfl rfl rfl rfl rfl))

theorem State.dropReq_keeps {a s : State} {id : Nat} (h : Keeps a s) : Keeps a (State.dropReq s id) := by
  unfold State.dropReq
  iterate 40 (try any_goals first
    | with_reducible assumption
    | ((fail_if_success (conv => arg 2; fun)); ((fail_if_no_progress extract_lets +onlyGivenNames y); have hy : Keeps a y := ?_; (try clear_value y); rotate_left; try unfold y))
    | with_reducible apply State.freeReq_keeps | (refine Keeps.lit ?_ rfl rfl rfl rfl rfl rfl rfl rfl rfl rfl rfl))

theorem State.abandonAll_keeps {a s : State} {f : Nat} (h : Keeps a s) : Keeps a (State.abandonAll s f) := by
  unfold State.abandonAll
  iterate 40 (try any_goals first
    | with_reducible assumption | with_reducible apply State.dropReq_keeps | with_reducible apply Keeps.foldl
    | (refine Keeps.lit ?_ rfl rfl rfl rfl rfl rfl rfl rfl rfl rfl rfl))

theorem State.halt_keeps {a s : State} {f : Nat} {cause : Nat} {ring : Nat} {entry : Nat} {noEntry : Bool} {addr : Nat} (h : Keeps a s) :
    Keeps a (State.halt s f cause ring entry noEntry addr) := by
  unfold State.halt
  iterate 40 (try any_goals first
    | with_reducible assumption | ((fail_if_success (conv => arg 2; fun)); fail_if_no_progress extract_lets +onlyGivenNames y)
    | with_reducible apply State.capture_keeps | with_reducible apply State.setFn_keeps | with_reducible apply State.abandonAll_keeps
    | with_reducible apply State.endStall_ok | split)

theorem State.haltReq_keeps {a s : State} {r : Req} {cause : Nat} {addr : Nat} (h : Keeps a s) : Keeps a (State.haltReq s r cause addr) := by
  unfold State.haltReq
  iterate 40 (try any_goals first | with_reducible assumption | with_reducible apply State.halt_keeps)

theorem State.wakeOnCommit_keeps {a s : State} {f : Nat} (h : Keeps a s) : Keeps a (State.wakeOnCommit s f) := by
  unfold State.wakeOnCommit
  iterate 40 (try any_goals first | with_reducible assumption | with_reducible apply State.setFn_keeps | with_reducible apply Keeps.ite)

theorem State.chainNote_keeps {a s : State} {r : Req} (h : Keeps a s) : Keeps a (State.chainNote s r) := by
  unfold State.chainNote
  iterate 40 (try any_goals first | with_reducible assumption | with_reducible apply State.setRing_keeps | with_reducible apply Keeps.ite)

theorem State.commit_keeps {a s : State} {r : Req} {status : Nat} {detail : Nat} (h : Keeps a s) : Keeps a (State.commit s r status detail) := by
  unfold State.commit
  iterate 40 (try any_goals first
    | with_reducible assumption | with_reducible apply State.setReq_keeps | with_reducible apply State.freeReq_keeps
    | with_reducible apply State.chainNote_keeps | with_reducible apply State.bumpSat_keeps | with_reducible apply State.wakeOnCommit_keeps
    | with_reducible apply Keeps.ite)

theorem State.fail_keeps {a s : State} {r : Req} {status : Nat} {detail : Nat} (h : Keeps a s) : Keeps a (State.fail s r status detail) := by
  unfold State.fail
  iterate 40 (try any_goals first | with_reducible assumption | with_reducible apply State.commit_keeps)

theorem State.writeCompletion_keeps {a s : State} {r : Req} (h : Keeps a s) : Keeps a (State.writeCompletion s r) := by
  unfold State.writeCompletion
  iterate 40 (try any_goals first
    | with_reducible assumption | with_reducible apply State.setReq_keeps | with_reducible apply State.queueWrite_keeps
    | with_reducible apply State.setRing_keeps | with_reducible apply Keeps.ite)

theorem State.issueCompletion_keeps {a s : State} {r : Req} (h : Keeps a s) : Keeps a (State.issueCompletion s r) := by
  unfold State.issueCompletion
  iterate 40 (try any_goals first
    | with_reducible assumption | with_reducible apply State.haltReq_keeps | with_reducible apply State.writeCompletion_keeps | split)

theorem State.completeF_keeps {a s : State} {x1 : Nat} (h : Keeps a s) : Keeps a (State.completeF x1 s) := by
  induction x1 generalizing s with
  | zero =>
    unfold State.completeF
    iterate 40 (try any_goals first | with_reducible assumption)
  | succ n0 ih =>
    unfold State.completeF
    iterate 40 (try any_goals first
      | with_reducible assumption | with_reducible apply ih | with_reducible apply State.issueCompletion_keeps | split)

theorem State.nextF_keeps {a s : State} {x1 : Nat} {x2 : Nat} (h : Keeps a s) : Keeps a (State.nextF x1 x2 s) := by
  induction x1 generalizing x2 s with
  | zero =>
    unfold State.nextF
    iterate 40 (try any_goals first | with_reducible assumption)
  | succ n0 ih =>
    unfold State.nextF
    iterate 40 (try any_goals first
      | with_reducible assumption | ((fail_if_success (conv => arg 2; fun)); fail_if_no_progress extract_lets +onlyGivenNames y)
      | with_reducible apply ih | with_reducible apply State.setRing_keeps | split)

theorem State.due_keeps {a s : State} {f : Nat} {v : Nat} (h : Keeps a s) : Keeps a (State.due s f v) := by
  unfold State.due
  iterate 40 (try any_goals first
    | with_reducible assumption | with_reducible apply Keeps.ite | (refine Keeps.lit ?_ rfl rfl rfl rfl rfl rfl rfl rfl rfl rfl rfl))

theorem State.ringDue_keeps {a s : State} {f : Nat} {n : Nat} (h : Keeps a s) : Keeps a (State.ringDue s f n) := by
  unfold State.ringDue
  iterate 40 (try any_goals first | with_reducible assumption | with_reducible apply State.setRing_keeps | with_reducible apply State.due_keeps)

theorem State.countIrq_keeps {a s : State} {f : Nat} {n : Nat} (h : Keeps a s) : Keeps a (State.countIrq s f n) := by
  unfold State.countIrq
  iterate 40 (try any_goals first
    | with_reducible assumption | ((fail_if_success (conv => arg 2; fun)); fail_if_no_progress extract_lets +onlyGivenNames y)
    | with_reducible apply State.setRing_keeps | with_reducible apply State.ringDue_keeps | split)

theorem State.headF_keeps {a s : State} {x1 : Nat} {x2 : Nat} (h : Keeps a s) : Keeps a (State.headF x1 x2 s) := by
  induction x1 generalizing x2 s with
  | zero =>
    unfold State.headF
    iterate 40 (try any_goals first | with_reducible assumption)
  | succ n0 ih =>
    unfold State.headF
    iterate 40 (try any_goals first
      | with_reducible assumption | with_reducible apply ih | with_reducible apply State.setRing_keeps | split
      | (refine Keeps.lit ?_ rfl rfl rfl rfl rfl rfl rfl rfl rfl rfl rfl))

theorem State.completionAck_keeps {a s : State} {id : Nat} (h : Keeps a s) : Keeps a (State.completionAck s id) := by
  unfold State.completionAck
  iterate 40 (try any_goals first
    | with_reducible assumption | with_reducible apply State.setReq_keeps | with_reducible apply State.setFn_keeps
    | with_reducible apply State.setRing_keeps | with_reducible apply State.countIrq_keeps | with_reducible apply State.nextF_keeps
    | with_reducible apply State.headF_keeps | split)

theorem State.issueMsg_keeps {a s : State} {fv : Nat × Nat} (h : Keeps a s) : Keeps a (State.issueMsg s fv) := by
  obtain ⟨fv1, fv2⟩ := fv
  unfold State.issueMsg
  iterate 40 (try any_goals first
    | with_reducible assumption | with_reducible apply State.halt_keeps | with_reducible refine (State.sendNow_keeps ?_).all _ (by assumption) | split
    | (refine Keeps.lit ?_ rfl rfl rfl rfl rfl rfl rfl rfl rfl rfl rfl))

theorem State.issueMsgs_keeps {a s : State} (h : Keeps a s) : Keeps a (State.issueMsgs s) := by
  unfold State.issueMsgs
  iterate 40 (try any_goals first | with_reducible assumption | with_reducible apply State.issueMsg_keeps | with_reducible apply Keeps.foldl)

theorem State.issueHaltMsg_keeps {a s : State} {f : Nat} (h : Keeps a s) : Keeps a (State.issueHaltMsg s f) := by
  unfold State.issueHaltMsg
  iterate 40 (try any_goals first
    | with_reducible assumption | ((fail_if_success (conv => arg 2; fun)); fail_if_no_progress extract_lets +onlyGivenNames y)
    | with_reducible apply State.setFn_keeps | with_reducible apply State.capture_keeps
    | with_reducible refine (State.sendNow_keeps ?_).all _ (by assumption) | split)

theorem State.pmAdvance_keeps {a s : State} {f : Nat} (h : Keeps a s) : Keeps a (State.pmAdvance s f) := by
  unfold State.pmAdvance
  iterate 40 (try any_goals first | with_reducible assumption | with_reducible apply State.setFn_keeps | with_reducible apply Keeps.ite)

theorem State.fenceAdvance_keeps {a s : State} (h : Keeps a s) : Keeps a (State.fenceAdvance s) := by
  unfold State.fenceAdvance
  iterate 40 (try any_goals first | with_reducible assumption | with_reducible apply State.endStall_ok | split)

theorem State.ringStrike_keeps {a s : State} (h : Keeps a s) : Keeps a (State.ringStrike s) := by
  unfold State.ringStrike
  iterate 40 (try any_goals first
    | with_reducible assumption | with_reducible apply State.capture_keeps | with_reducible apply State.injFired_keeps
    | with_reducible apply State.singleStrike_keeps | with_reducible apply Keeps.ite)

theorem State.bell_keeps {a s : State} {f : Nat} {n : Nat} {v : Word} (h : Keeps a s) : Keeps a (State.bell s f n v) := by
  unfold State.bell
  iterate 40 (try any_goals first
    | with_reducible assumption | ((fail_if_success (conv => arg 2; fun)); fail_if_no_progress extract_lets +onlyGivenNames y)
    | with_reducible apply State.ringStrike_keeps | with_reducible apply State.halt_keeps | with_reducible apply State.islWake_keeps
    | with_reducible apply State.setFn_keeps | with_reducible apply State.setRing_keeps | split)

theorem State.fetchF_keeps {a s : State} {x1 : Nat} {x2 : Nat} {x3 : Nat} (h : Keeps a s) : Keeps a (State.fetchF x1 x2 x3 s) := by
  induction x1 generalizing x2 x3 s with
  | zero =>
    unfold State.fetchF
    iterate 40 (try any_goals first | with_reducible assumption)
  | succ n0 ih =>
    unfold State.fetchF
    iterate 40 (try any_goals first
      | with_reducible assumption | ((fail_if_success (conv => arg 2; fun)); fail_if_no_progress extract_lets +onlyGivenNames y)
      | with_reducible apply ih | with_reducible apply State.halt_keeps | with_reducible apply State.setRing_keeps
      | with_reducible apply State.queueRead_keeps | split)

theorem State.fetchRing_keeps {a s : State} {f : Nat} {n : Nat} (h : Keeps a s) : Keeps a (State.fetchRing s f n) := by
  unfold State.fetchRing
  iterate 40 (try any_goals first | with_reducible assumption | with_reducible apply State.fetchF_keeps)

theorem State.rechainF_keeps {a s : State} {x1 : Nat} {x2 : Nat} {x3 : Nat} {x4 : Nat} {x5 : Nat} (h : Keeps a s) :
    Keeps a (State.rechainF x1 x2 x3 x4 x5 s) := by
  induction x1 generalizing x2 x3 x4 x5 s with
  | zero =>
    unfold State.rechainF
    iterate 40 (try any_goals first | with_reducible assumption)
  | succ n0 ih =>
    unfold State.rechainF
    iterate 40 (try any_goals first
      | with_reducible assumption | with_reducible apply ih | with_reducible apply State.haltReq_keeps | with_reducible apply State.setReq_keeps
      | split)

theorem State.entryIn_keeps {a s : State} {f : Nat} {n : Nat} {pos : Nat} {d : Bytes} (h : Keeps a s) : Keeps a (State.entryIn s f n pos d) := by
  unfold State.entryIn
  iterate 40 (try any_goals first
    | with_reducible assumption | with_reducible apply State.halt_keeps | with_reducible apply Keeps.ite
    | (refine Keeps.lit ?_ rfl rfl rfl rfl rfl rfl rfl rfl rfl rfl rfl))

theorem State.entryNext_keeps {a s : State} {f : Nat} {n : Nat} {pos : Nat} {d : Bytes} (h : Keeps a s) : Keeps a (State.entryNext s f n pos d) := by
  unfold State.entryNext
  iterate 40 (try any_goals first
    | with_reducible assumption | with_reducible apply State.entryIn_keeps | with_reducible apply State.rechainF_keeps
    | with_reducible apply Keeps.ite)

theorem State.fetchIn_keeps {a s : State} {g : Nat} {pos : Nat} {n : Nat} {b : Bytes} (h : Keeps a s) : Keeps a (State.fetchIn s g pos n b) := by
  unfold State.fetchIn
  iterate 40 (try any_goals first
    | with_reducible assumption | intro _ | with_reducible apply State.entryNext_keeps | with_reducible apply Keeps.foldl)

theorem State.passAdmit_keeps {a s : State} {r : Req} (h : Keeps a s) : Keeps a (State.passAdmit s r) := by
  unfold State.passAdmit
  iterate 40 (try any_goals first | with_reducible assumption | with_reducible apply State.setRing_keeps)

theorem State.admitReq_keeps {a s : State} {r : Req} (h : Keeps a s) : Keeps a (State.admitReq s r) := by
  unfold State.admitReq
  iterate 40 (try any_goals first
    | with_reducible assumption | with_reducible apply State.sealAdvanceStart_keeps | with_reducible apply Keeps.ite
    | (refine Keeps.lit ?_ rfl rfl rfl rfl rfl rfl rfl rfl rfl rfl rfl))

theorem State.admitOne_keeps {a s : State} {f : Nat} {n : Nat} (h : Keeps a s) : KeepsO a (State.admitOne s f n) := by
  unfold State.admitOne
  iterate 40 (try any_goals first
    | with_reducible assumption | ((fail_if_success (conv => arg 2; fun)); fail_if_no_progress extract_lets +onlyGivenNames y)
    | with_reducible apply State.passAdmit_keeps | with_reducible apply State.wakeOnCommit_keeps | with_reducible apply State.setReq_keeps
    | with_reducible apply State.admitReq_keeps | with_reducible apply State.setRing_keeps | with_reducible apply State.commit_keeps
    | with_reducible apply KeepsO.none | with_reducible apply KeepsO.some | split)

theorem State.admitF_keeps {a s : State} {x1 : Nat} {x2 : Nat} {x3 : Nat} (h : Keeps a s) : Keeps a (State.admitF x1 x2 x3 s) := by
  induction x1 generalizing x2 x3 s with
  | zero =>
    unfold State.admitF
    iterate 40 (try any_goals first | with_reducible assumption)
  | succ n0 ih =>
    unfold State.admitF
    iterate 40 (try any_goals first
      | with_reducible assumption | with_reducible apply ih | with_reducible refine (State.admitOne_keeps ?_).all _ (by assumption) | split)

-- Machine/Context.lean -----------------------------------------------------------------------------------------------------------------

theorem State.want_keeps {a s : State} {r : Req} {x1 : Nat} {len : Nat} {tag : Nat} (h : Keeps a s) : KeepsQ a (State.want s r x1 len tag) := by
  unfold State.want
  iterate 40 (try any_goals first
    | with_reducible assumption | with_reducible apply State.haltReq_keeps | with_reducible apply State.queueRead_keeps
    | with_reducible apply KeepsQ.mkGo | with_reducible apply KeepsQ.mkWait | with_reducible apply KeepsQ.mkStop | split)

theorem State.wantEach_keeps {a s : State} {r : Req} {x1 : List (Nat × Nat)} {x2 : Bytes} (h : Keeps a s) : KeepsQ a (State.wantEach s r x1 x2) := by
  induction x1 generalizing s r x2 with
  | nil =>
    unfold State.wantEach
    iterate 40 (try any_goals first | with_reducible assumption | with_reducible apply KeepsQ.mkGo)
  | cons x0 t0 ih =>
    unfold State.wantEach
    iterate 40 (try any_goals first
      | with_reducible assumption | with_reducible apply ih | with_reducible refine (State.want_keeps ?_).wait _ (by assumption)
      | with_reducible refine (State.want_keeps ?_).stop _ (by assumption) | with_reducible refine (State.want_keeps ?_).go _ _ (by assumption)
      | with_reducible apply KeepsQ.mkWait | with_reducible apply KeepsQ.mkStop | split)

theorem State.setCached_keeps {a s : State} {l : CLine} (h : Keeps a s) : Keeps a (State.setCached s l) := by
  unfold State.setCached
  iterate 40 (try any_goals first | with_reducible assumption | (refine Keeps.lit ?_ rfl rfl rfl rfl rfl rfl rfl rfl rfl rfl rfl))

theorem State.touch_keeps {a s : State} {h' : Nat} (h : Keeps a s) : Keeps a (State.touch s h') := by
  unfold State.touch
  iterate 40 (try any_goals first | with_reducible assumption | (refine Keeps.lit ?_ rfl rfl rfl rfl rfl rfl rfl rfl rfl rfl rfl))

/-- Transactions that keep their ports and numbers. -/
theorem numbered.map {l : List Txn} {n : Nat} (g : Txn → Txn) (h : numbered l n) (hp : ∀ t, (g t).port = t.port)
    (hn : ∀ t, (g t).num = t.num) : numbered (l.map g) n := by
  constructor
  · intro t ht
    obtain ⟨u, hu, rfl⟩ := List.mem_map.1 ht
    rw [hn]
    exact h.1 u hu
  · have e : (l.map g).map (fun t => (t.port, t.num)) = l.map (fun t => (t.port, t.num)) := by
      simp [List.map_map, Function.comp_def, hp, hn]
    rw [e]
    exact h.2

theorem State.purgeLine_keeps {a s : State} {l : Nat} (h : Keeps a s) : Keeps a (s.purgeLine l) := by
  unfold State.purgeLine
  refine Keeps.lit2 h rfl rfl rfl rfl rfl rfl rfl (fun k => k.map _ ?_ ?_) id id id
  all_goals
    intro t
    dsimp only
    split <;> rfl

theorem State.putLine_keeps {a s : State} {h' : Nat} {hdr : Hdr} {payload : Bytes} {use : Use} {after : List Nat} (h : Keeps a s) :
    KeepsP a (State.putLine s h' hdr payload use after) := by
  unfold State.putLine
  iterate 40 (try any_goals first
    | with_reducible assumption | with_reducible apply State.purgeLine_keeps | with_reducible apply State.queueWrite_keeps
    | with_reducible apply KeepsP.pair)

theorem State.putExts_keeps {a s : State} {l : CLine} {pay : Bytes} {use : Use} {after : List Nat} (h : Keeps a s) :
    KeepsP a (State.putExts s l pay use after) := by
  unfold State.putExts
  iterate 40 (try any_goals first
    | with_reducible assumption | intro _ | with_reducible refine (State.putLine_keeps ?_).fst | with_reducible apply KeepsP.ite
    | with_reducible apply KeepsP.foldl | with_reducible exact KeepsP.fst (by assumption) | with_reducible apply KeepsP.pair)

theorem State.putGroup_keeps {a s : State} {l : CLine} {ctr : Nat} {pay : Bytes} {use : Use} (h : Keeps a s) :
    KeepsP a (s.putGroup l ctr pay use) := by
  have hp : ∀ (x : State × CLine) (key : Bytes) (after : List Nat), KeepsP a x → KeepsP a (if x.2.memCtr = ctr then x else
      ((x.1.putLine l.h x.2.hdr (natLE 8 ctr ++ key) use after).1,
       { x.2 with mem := (x.1.putLine l.h x.2.hdr (natLE 8 ctr ++ key) use after).2, memCtr := ctr })) :=
    fun x key after hx => KeepsP.ite hx (KeepsP.pair (State.putLine_keeps hx.fst).fst)
  unfold State.putGroup
  refine KeepsP.pair (KeepsP.fst ?_)
  refine KeepsP.ite ?_ ?_
  · exact hp _ _ _ (State.putExts_keeps h)
  · exact State.putExts_keeps (hp _ _ _ (KeepsP.pair h)).fst

theorem State.reserveTo_keeps {a s : State} {l : CLine} {lim : Nat} (h : Keeps a s) : KeepsO a (State.reserveTo s l lim) := by
  unfold State.reserveTo
  iterate 40 (try any_goals first
    | with_reducible assumption | with_reducible refine (State.putGroup_keeps ?_).fst | with_reducible apply State.bumpSat_keeps
    | with_reducible apply State.setCached_keeps | with_reducible apply KeepsO.none | with_reducible apply KeepsO.some
    | with_reducible apply KeepsO.ite)

theorem State.refresh_keeps {a s : State} {h' : Nat} (h : Keeps a s) : Keeps a (State.refresh s h') := by
  unfold State.refresh
  iterate 40 (try any_goals first
    | with_reducible assumption | with_reducible apply State.reserveTo_keeps | with_reducible apply Keeps.getD | split)

theorem State.reservationDurable_keeps {a s : State} {h' : Nat} {lim : Nat} (h : Keeps a s) : Keeps a (State.reservationDurable s h' lim) := by
  unfold State.reservationDurable
  iterate 40 (try any_goals first | with_reducible assumption | with_reducible apply State.setCached_keeps | split)

theorem State.writeBack_keeps {a s : State} {l : CLine} {use : Use} (h : Keeps a s) : Keeps a (State.writeBack s l use) := by
  unfold State.writeBack
  iterate 40 (try any_goals first
    | with_reducible assumption
    | ((fail_if_success (conv => arg 2; fun)); ((fail_if_no_progress extract_lets +onlyGivenNames y); have hy : Keeps a y := ?_; (try clear_value y); rotate_left; try unfold y))
    | ((fail_if_success (conv => arg 2; fun)); fail_if_no_progress extract_lets +onlyGivenNames y)
    | with_reducible refine (State.putGroup_keeps ?_).fst | with_reducible apply State.bumpSat_keeps | with_reducible apply State.setCached_keeps
    | split)

theorem State.dropLine_keeps {a s : State} {h' : Nat} (h : Keeps a s) : Keeps a (State.dropLine s h') := by
  unfold State.dropLine
  iterate 40 (try any_goals first | with_reducible assumption | (refine Keeps.lit ?_ rfl rfl rfl rfl rfl rfl rfl rfl rfl rfl rfl))

theorem State.evict_keeps {a s : State} {l : CLine} {use : Use} (h : Keeps a s) : Keeps a (State.evict s l use) := by
  unfold State.evict
  iterate 40 (try any_goals first
    | with_reducible assumption | with_reducible apply State.dropLine_keeps | with_reducible apply State.writeBack_keeps)

theorem State.dropInline_keeps {a s : State} {h' : Nat} (h : Keeps a s) : Keeps a (State.dropInline s h') := by
  unfold State.dropInline
  iterate 40 (try any_goals first | with_reducible assumption | (refine Keeps.lit ?_ rfl rfl rfl rfl rfl rfl rfl rfl rfl rfl rfl))

theorem State.roomF_keeps {a s : State} {x1 : Nat} {x2 : List Nat} (h : Keeps a s) : KeepsO a (State.roomF x1 s x2) := by
  induction x1 generalizing s x2 with
  | zero =>
    unfold State.roomF
    iterate 40 (try any_goals first | with_reducible apply KeepsO.none)
  | succ n0 ih =>
    unfold State.roomF
    iterate 40 (try any_goals first
      | with_reducible assumption | with_reducible apply ih | with_reducible apply State.evict_keeps | with_reducible apply KeepsO.none
      | with_reducible apply KeepsO.some | split)

theorem State.flushLines_keeps {a s : State} {p : CLine → Bool} (h : Keeps a s) : Keeps a (State.flushLines s p) := by
  unfold State.flushLines
  iterate 40 (try any_goals first
    | with_reducible assumption | intro _ | with_reducible apply State.evict_keeps | with_reducible apply Keeps.foldl | split)

theorem State.deny_keeps {a s : State} {r : Req} (h : Keeps a s) : Keeps a (State.deny s r) := by
  unfold State.deny
  iterate 40 (try any_goals first | with_reducible assumption | with_reducible apply State.fail_keeps)

theorem State.readLines_keeps {a s : State} {r : Req} (h : Keeps a s) : KeepsQ a (State.readLines s r) := by
  unfold State.readLines
  iterate 40 (try any_goals first
    | with_reducible assumption | ((fail_if_success (conv => arg 2; fun)); fail_if_no_progress extract_lets +onlyGivenNames y)
    | with_reducible refine (State.want_keeps ?_).wait _ (by assumption) | with_reducible refine (State.want_keeps ?_).stop _ (by assumption)
    | with_reducible refine (State.want_keeps ?_).go _ _ (by assumption) | with_reducible refine (State.wantEach_keeps ?_).wait _ (by assumption)
    | with_reducible refine (State.wantEach_keeps ?_).stop _ (by assumption) | with_reducible refine (State.wantEach_keeps ?_).go _ _ (by assumption)
    | with_reducible apply KeepsQ.mkGo | with_reducible apply KeepsQ.mkWait | with_reducible apply KeepsQ.mkStop | split)

theorem State.tagEvent_keeps {a s : State} {r : Req} {mem : Bytes} {xmem : List Bytes} (h : Keeps a s) : Keeps a (State.tagEvent s r mem xmem) := by
  unfold State.tagEvent
  iterate 40 (try any_goals first | with_reducible assumption | with_reducible apply State.capture_keeps | with_reducible apply Keeps.ite)

theorem State.ctxLost_keeps {a s : State} {src : Nat} {detail : Nat} {inj : Bool} (h : Keeps a s) : Keeps a (State.ctxLost s src detail inj) := by
  unfold State.ctxLost
  iterate 40 (try any_goals first
    | with_reducible assumption | intro _ | with_reducible apply State.recover_keeps | with_reducible apply State.capture_keeps
    | with_reducible apply State.dropLine_keeps | split)

theorem State.lookup_keeps {a s : State} {r : Req} (h : Keeps a s) : KeepsQ a (State.lookup s r) := by
  unfold State.lookup
  iterate 40 (try any_goals first
    | with_reducible assumption
    | ((fail_if_success (conv => arg 2; fun)); ((fail_if_no_progress extract_lets +onlyGivenNames y); have hy : Keeps a y := ?_; (try clear_value y); rotate_left; try unfold y))
    | with_reducible apply State.deny_keeps | with_reducible apply State.ctxLost_keeps | with_reducible apply State.injFired_keeps
    | with_reducible apply State.singleStrike_keeps | with_reducible refine (State.readLines_keeps ?_).wait _ (by assumption)
    | with_reducible refine (State.readLines_keeps ?_).stop _ (by assumption)
    | with_reducible refine (State.readLines_keeps ?_).go _ _ (by assumption) | with_reducible apply State.capture_keeps
    | with_reducible apply State.tagEvent_keeps | with_reducible apply KeepsQ.mkGo | with_reducible apply KeepsQ.mkWait
    | with_reducible apply KeepsQ.mkStop | split)

theorem State.obtain_keeps {a s : State} {r : Req} {l : CLine} (h : Keeps a s) : KeepsQ a (State.obtain s r l) := by
  unfold State.obtain
  iterate 40 (try any_goals first
    | with_reducible assumption | intro _
    | ((fail_if_success (conv => arg 2; fun)); ((fail_if_no_progress extract_lets +onlyGivenNames y); have hy : KeepsO a y := ?_; (try clear_value y); rotate_left; try unfold y))
    | ((fail_if_success (conv => arg 2; fun)); fail_if_no_progress extract_lets +onlyGivenNames y) | with_reducible apply State.roomF_keeps
    | with_reducible refine (State.reserveTo_keeps ?_).all _ (by assumption) | with_reducible apply State.fail_keeps
    | with_reducible apply KeepsQ.mkGo | with_reducible apply KeepsQ.mkWait | with_reducible apply KeepsQ.mkStop | with_reducible apply KeepsO.map
    | with_reducible apply KeepsO.some | with_reducible exact KeepsO.all (by assumption) _ rfl | split
    | (refine Keeps.lit ?_ rfl rfl rfl rfl rfl rfl rfl rfl rfl rfl rfl))

theorem State.draw_keeps {a s : State} {r : Req} {limit : Nat} {skip0 : Bool} (h : Keeps a s) : KeepsQ a (State.draw s r limit skip0) := by
  unfold State.draw
  iterate 40 (try any_goals first
    | with_reducible assumption | ((fail_if_success (conv => arg 2; fun)); fail_if_no_progress extract_lets +onlyGivenNames y)
    | with_reducible apply State.fail_keeps | with_reducible refine (State.reserveTo_keeps ?_).all _ (by assumption)
    | with_reducible apply State.setCached_keeps | with_reducible apply State.refresh_keeps | with_reducible apply KeepsQ.mkGo
    | with_reducible apply KeepsQ.mkWait | with_reducible apply KeepsQ.mkStop | split)

theorem State.addKey_keeps {a s : State} {k : KeyEnt} (h : Keeps a s) : Keeps a (State.addKey s k) := by
  unfold State.addKey
  iterate 40 (try any_goals first | with_reducible assumption | (refine Keeps.lit ?_ rfl rfl rfl rfl rfl rfl rfl rfl rfl rfl rfl))

theorem State.addHmac_keeps {a s : State} {k : HmEnt} (h : Keeps a s) : Keeps a (State.addHmac s k) := by
  unfold State.addHmac
  iterate 40 (try any_goals first | with_reducible assumption | (refine Keeps.lit ?_ rfl rfl rfl rfl rfl rfl rfl rfl rfl rfl rfl))

theorem State.slotKey_keeps {a s : State} {r : Req} {slot : Nat} {tag : Nat} {use : Nat} {sel : Nat} {ok : Nat → Bool} (h : Keeps a s) :
    KeepsQ a (State.slotKey s r slot tag use sel ok) := by
  unfold State.slotKey
  iterate 40 (try any_goals first
    | with_reducible assumption | intro _ | ((fail_if_success (conv => arg 2; fun)); fail_if_no_progress extract_lets +onlyGivenNames y)
    | with_reducible apply State.recover_keeps | with_reducible apply State.capture_keeps | with_reducible apply State.singleStrike_keeps
    | with_reducible apply State.deny_keeps | with_reducible apply State.klRefused_keeps | with_reducible apply State.klNeed_keeps
    | with_reducible apply KeepsQ.mkGo | with_reducible apply KeepsQ.mkWait | with_reducible apply KeepsQ.mkStop | split
    | (refine Keeps.lit ?_ rfl rfl rfl rfl rfl rfl rfl rfl rfl rfl rfl))

theorem State.ctxKey_keeps {a s : State} {r : Req} {sel : Nat} {use : Nat} {ok : Nat → Bool} (h : Keeps a s) :
    KeepsQ a (State.ctxKey s r sel use ok) := by
  unfold State.ctxKey
  iterate 40 (try any_goals first
    | with_reducible assumption | ((fail_if_success (conv => arg 2; fun)); fail_if_no_progress extract_lets +onlyGivenNames y)
    | with_reducible apply State.addKey_keeps | with_reducible apply State.setReq_keeps | with_reducible apply State.slotKey_keeps
    | with_reducible apply KeepsQ.mkGo | split)

theorem State.digCount_keeps {a s : State} {e : Nat} {c : RegName} {sat : Bool} {k : Nat} (h : Keeps a s) : Keeps a (State.digCount s e c sat k) := by
  unfold State.digCount
  iterate 40 (try any_goals first
    | with_reducible assumption | with_reducible apply State.bumpSat_keeps | with_reducible apply State.setReg_keeps | with_reducible apply Keeps.ite)

theorem State.digRun_keeps {a s : State} {e : Nat} {n : Nat} {c : Nat} (h : Keeps a s) : Keeps a (State.digRun s e n c) := by
  unfold State.digRun
  iterate 40 (try any_goals first
    | with_reducible assumption | with_reducible apply State.addBusy_keeps | with_reducible apply State.digCount_keeps)

theorem State.stateRun_keeps {a s : State} {x : Halg} (h : Keeps a s) : KeepsO a (s.stateRun x) := by
  unfold State.stateRun
  cases s.digFor [] with
  | none => exact KeepsO.none
  | some e => exact KeepsO.some (State.digRun_keeps h)

theorem State.holdHmac_keeps {a s : State} {r : Req} {k : HmEnt} (h : Keeps a s) : KeepsQ a (State.holdHmac s r k) := by
  unfold State.holdHmac
  iterate 40 (try any_goals first
    | with_reducible assumption | with_reducible apply State.addHmac_keeps | with_reducible apply State.setReq_keeps
    | with_reducible apply KeepsQ.mkGo)

theorem State.ctxHmac_keeps {a s : State} {r : Req} {sel : Nat} {x1 : Halg} (h : Keeps a s) : KeepsQ a (State.ctxHmac s r sel x1) := by
  unfold State.ctxHmac
  iterate 40 (try any_goals first
    | with_reducible assumption | ((fail_if_success (conv => arg 2; fun)); fail_if_no_progress extract_lets +onlyGivenNames y)
    | with_reducible apply State.holdHmac_keeps | with_reducible refine (State.ctxKey_keeps ?_).wait _ (by assumption)
    | with_reducible refine (State.ctxKey_keeps ?_).stop _ (by assumption) | with_reducible refine (State.ctxKey_keeps ?_).go _ _ (by assumption)
    | with_reducible refine (State.stateRun_keeps ?_).all _ (by assumption) | with_reducible apply KeepsQ.mkGo | with_reducible apply KeepsQ.mkWait
    | with_reducible apply KeepsQ.mkStop | split)

theorem State.keyRefused_keeps {a s : State} {k : KlReq} (h : Keeps a s) : Keeps a (State.keyRefused s k) := by
  unfold State.keyRefused
  iterate 40 (try any_goals first
    | with_reducible assumption | with_reducible apply State.klRefused_keeps | with_reducible apply State.deny_keeps
    | with_reducible apply Keeps.foldl)

-- Machine/Flow.lean --------------------------------------------------------------------------------------------------------------------

theorem State.walkF_keeps {a s : State} {x1 : Nat} {x2 : Req} {x3 : Nat} {x4 : List (Nat × Nat)} {x5 : Nat} {x6 : Option Nat} (h : Keeps a s) :
    KeepsQ a (State.walkF x1 s x2 x3 x4 x5 x6) := by
  induction x1 generalizing s x2 x3 x4 x5 x6 with
  | zero =>
    unfold State.walkF
    iterate 40 (try any_goals first | with_reducible assumption | with_reducible apply KeepsQ.mkGo)
  | succ n0 ih =>
    unfold State.walkF
    iterate 40 (try any_goals first
      | with_reducible assumption | intro _ | with_reducible apply ih | with_reducible apply State.want_keeps | with_reducible apply KeepsQ.mkGo
      | with_reducible apply KeepsQ.bind | split)

theorem State.walk_keeps {a s : State} {r : Req} {x1 : Nat} {upto : Option Nat} (h : Keeps a s) : KeepsQ a (State.walk s r x1 upto) := by
  unfold State.walk
  iterate 40 (try any_goals first | with_reducible assumption | with_reducible apply State.walkF_keeps)

theorem State.walkBoth_keeps {a s : State} {r : Req} {src : State → Prep Walk}
    {dst : State → Prep Walk} (h : Keeps a s) (hsrc : ∀ v0, Keeps a v0 → KeepsQ a (src v0)) (hdst : ∀ v0, Keeps a v0 → KeepsQ a (dst v0)) :
    KeepsQ a (State.walkBoth s r src dst) := by
  unfold State.walkBoth
  iterate 40 (try any_goals first
    | with_reducible assumption | intro _ | with_reducible apply hsrc | with_reducible apply hdst | with_reducible apply State.setReq_keeps
    | with_reducible apply State.haltReq_keeps | with_reducible apply KeepsQ.mkGo | with_reducible apply KeepsQ.mkStop
    | with_reducible apply KeepsQ.bind | split)

theorem State.walkSrc_keeps {a s : State} {r : Req} (h : Keeps a s) : KeepsQ a (State.walkSrc s r) := by
  unfold State.walkSrc
  iterate 40 (try any_goals first
    | with_reducible assumption | intro _ | with_reducible apply State.walk_keeps | with_reducible apply KeepsQ.mkGo
    | with_reducible apply KeepsQ.bind | split)

theorem State.walkDst_keeps {a s : State} {r : Req} (h : Keeps a s) : KeepsQ a (State.walkDst s r) := by
  unfold State.walkDst
  iterate 40 (try any_goals first
    | with_reducible assumption | with_reducible apply State.walk_keeps | with_reducible apply KeepsQ.mkGo | with_reducible apply KeepsQ.ite)

theorem State.prepLists_keeps {a s : State} {r : Req} (h : Keeps a s) : KeepsQ a (State.prepLists s r) := by
  unfold State.prepLists
  iterate 40 (try any_goals first
    | with_reducible assumption | intro _ | with_reducible apply State.walkBoth_keeps | with_reducible apply State.walkSrc_keeps
    | with_reducible apply State.walkDst_keeps | with_reducible apply State.setReq_keeps | with_reducible apply KeepsQ.mkGo
    | with_reducible apply KeepsQ.bind)

theorem State.wantSegs_keeps {a s : State} {r : Req} {x1 : List (Nat × Nat)} {x2 : Bytes} (h : Keeps a s) : KeepsQ a (State.wantSegs s r x1 x2) := by
  induction x1 generalizing s r x2 with
  | nil =>
    unfold State.wantSegs
    iterate 40 (try any_goals first | with_reducible assumption | with_reducible apply KeepsQ.mkGo)
  | cons x0 t0 ih =>
    unfold State.wantSegs
    iterate 40 (try any_goals first
      | with_reducible assumption | intro _ | with_reducible apply ih | with_reducible apply State.want_keeps | with_reducible apply KeepsQ.bind)

theorem State.wantSrc_keeps {a s : State} {r : Req} {off : Nat} {len : Nat} (h : Keeps a s) : KeepsQ a (State.wantSrc s r off len) := by
  unfold State.wantSrc
  iterate 40 (try any_goals first | with_reducible assumption | with_reducible apply State.wantSegs_keeps)

theorem State.prepCheck_keeps {a s : State} {r : Req} (h : Keeps a s) : KeepsQ a (s.prepCheck r) := by
  have hf : ∀ x : Option Nat, KeepsQ a (match x with
      | some det => Prep.stop (s.fail r stFormatMismatch det)
      | none => Prep.go s ()) := by
    intro x
    cases x with
    | none => exact KeepsQ.mkGo h
    | some det => exact KeepsQ.mkStop (State.fail_keeps h)
  unfold State.prepCheck
  iterate 12 (try any_goals first
    | apply hf
    | with_reducible apply KeepsQ.ite
    | exact KeepsQ.mkGo h
    | exact KeepsQ.mkWait h
    | exact KeepsQ.mkStop (State.fail_keeps h))

theorem State.stage_keeps {a s : State} {r : Req} {n : Nat} (h : Keeps a s) : KeepsQ a (State.stage s r n) := by
  unfold State.stage
  iterate 40 (try any_goals first
    | with_reducible assumption | with_reducible apply State.setReq_keeps | with_reducible apply KeepsQ.mkGo | with_reducible apply KeepsQ.mkWait
    | with_reducible apply KeepsQ.ite)

theorem State.prepStage_keeps {a s : State} {r : Req} (h : Keeps a s) : KeepsQ a (State.prepStage s r) := by
  unfold State.prepStage
  iterate 40 (try any_goals first
    | with_reducible assumption | intro _ | with_reducible apply State.stage_keeps | with_reducible apply State.want_keeps
    | with_reducible apply State.wantSrc_keeps | with_reducible apply State.setReq_keeps | with_reducible apply KeepsQ.mkGo
    | with_reducible apply KeepsQ.ite | with_reducible apply KeepsQ.bind)

theorem State.prepCtx_keeps {a s : State} {r : Req} (h : Keeps a s) : KeepsQ a (State.prepCtx s r) := by
  unfold State.prepCtx
  iterate 40 (try any_goals first
    | with_reducible assumption | intro _ | ((fail_if_success (conv => arg 2; fun)); fail_if_no_progress extract_lets +onlyGivenNames y)
    | with_reducible apply State.lookup_keeps | with_reducible apply State.fail_keeps | with_reducible apply State.setReq_keeps
    | with_reducible apply State.setCached_keeps | with_reducible apply State.obtain_keeps | with_reducible apply KeepsQ.mkGo
    | with_reducible apply KeepsQ.mkWait | with_reducible apply KeepsQ.mkStop | with_reducible apply KeepsQ.bind | split)

theorem State.mismatch_keeps {α : Type} {a s : State} {r : Req} {det : Nat} (h : Keeps a s) : KeepsQ (α := α) a (s.mismatch r det) :=
  KeepsQ.mkStop (State.fail_keeps h)

theorem State.prepGcmBlock_keeps {a s : State} {r : Req} (h : Keeps a s) : KeepsQ a (State.prepGcmBlock s r) := by
  unfold State.prepGcmBlock
  iterate 40 (try any_goals first
    | with_reducible assumption | intro _ | with_reducible apply State.want_keeps | with_reducible apply State.mismatch_keeps
    | with_reducible apply KeepsQ.ite | with_reducible apply KeepsQ.bind)

theorem State.prepCombined_keeps {a s : State} {r : Req} (h : Keeps a s) : KeepsQ a (State.prepCombined s r) := by
  unfold State.prepCombined
  iterate 40 (try any_goals first
    | with_reducible assumption | intro _ | with_reducible apply State.want_keeps | with_reducible apply State.mismatch_keeps
    | with_reducible apply KeepsQ.mkGo | with_reducible apply KeepsQ.ite | with_reducible apply KeepsQ.bind)

theorem State.prepSaved_keeps {a s : State} {r : Req} (h : Keeps a s) : KeepsQ a (State.prepSaved s r) := by
  unfold State.prepSaved
  iterate 40 (try any_goals first
    | with_reducible assumption | with_reducible apply State.mismatch_keeps | with_reducible apply State.fail_keeps | with_reducible apply KeepsQ.mkGo
    | with_reducible apply KeepsQ.mkWait | with_reducible apply KeepsQ.mkStop | with_reducible apply KeepsQ.ite)

theorem State.prepRecord_keeps {a s : State} {r : Req} (h : Keeps a s) : KeepsQ a (State.prepRecord s r) := by
  unfold State.prepRecord
  iterate 40 (try any_goals first
    | with_reducible assumption | intro _ | with_reducible apply State.want_keeps | with_reducible apply State.mismatch_keeps
    | with_reducible apply KeepsQ.mkGo | with_reducible apply KeepsQ.bind | split)

theorem State.prepParam_keeps {a s : State} {r : Req} (h : Keeps a s) : KeepsQ a (State.prepParam s r) := by
  unfold State.prepParam
  iterate 40 (try any_goals first
    | with_reducible assumption | intro _ | with_reducible apply State.prepCombined_keeps | with_reducible apply State.prepGcmBlock_keeps
    | with_reducible apply State.prepRecord_keeps | with_reducible apply State.prepSaved_keeps | with_reducible apply State.setReq_keeps
    | with_reducible apply KeepsQ.mkGo | with_reducible apply KeepsQ.ite | with_reducible apply KeepsQ.bind)

theorem State.prepKek_keeps {a s : State} {r : Req} (h : Keeps a s) : KeepsQ a (State.prepKek s r) := by
  unfold State.prepKek
  iterate 40 (try any_goals first
    | with_reducible assumption | intro _ | with_reducible apply State.slotKey_keeps | with_reducible apply KeepsQ.mkGo
    | with_reducible apply KeepsQ.bind | split)

theorem State.prepKeys_keeps {a s : State} {r : Req} (h : Keeps a s) : KeepsQ a (State.prepKeys s r) := by
  unfold State.prepKeys
  iterate 40 (try any_goals first
    | with_reducible assumption | intro _ | ((fail_if_success (conv => arg 2; fun)); fail_if_no_progress extract_lets +onlyGivenNames y)
    | with_reducible apply State.ctxKey_keeps | with_reducible apply State.ctxHmac_keeps | with_reducible apply State.prepKek_keeps
    | with_reducible apply KeepsQ.mkGo | with_reducible apply KeepsQ.bind | with_reducible apply State.withReq_keeps | split)

theorem State.prepSizes_keeps {a s : State} {r : Req} (h : Keeps a s) : KeepsQ a (State.prepSizes s r) := by
  unfold State.prepSizes
  iterate 40 (try any_goals first
    | with_reducible assumption | with_reducible apply State.mismatch_keeps | with_reducible apply State.fail_keeps | with_reducible apply KeepsQ.mkGo
    | with_reducible apply KeepsQ.mkStop | with_reducible apply KeepsQ.ite)

theorem State.prepInbound_keeps {a s : State} {r : Req} {x : Sx} (h : Keeps a s) : KeepsQ a (State.prepInbound s r x) := by
  unfold State.prepInbound
  iterate 40 (try any_goals first
    | with_reducible assumption | intro _ | ((fail_if_success (conv => arg 2; fun)); fail_if_no_progress extract_lets +onlyGivenNames y)
    | with_reducible apply State.wantSrc_keeps | with_reducible apply State.mismatch_keeps | with_reducible apply State.fail_keeps
    | with_reducible apply State.bumpSat_keeps | with_reducible apply KeepsQ.mkGo | with_reducible apply KeepsQ.mkWait
    | with_reducible apply KeepsQ.mkStop | with_reducible apply KeepsQ.bind | split
    | (refine Keeps.lit ?_ rfl rfl rfl rfl rfl rfl rfl rfl rfl rfl rfl))

theorem State.headBuilt_keeps {a s : State} (h : Keeps a s) : Keeps a (State.headBuilt s) := by
  unfold State.headBuilt
  iterate 40 (try any_goals first
    | with_reducible assumption | with_reducible apply State.bump_keeps | with_reducible apply State.capture_keeps
    | with_reducible apply State.bumpSat_keeps | with_reducible apply State.injFired_keeps | with_reducible apply Keeps.ite)

theorem State.prepExpect_keeps {a s : State} {r : Req} (h : Keeps a s) : KeepsQ a (State.prepExpect s r) := by
  unfold State.prepExpect
  iterate 40 (try any_goals first
    | with_reducible assumption | intro _ | with_reducible apply State.prepInbound_keeps | with_reducible apply State.headBuilt_keeps
    | with_reducible apply State.want_keeps | with_reducible apply State.setReq_keeps | with_reducible apply KeepsQ.mkGo
    | with_reducible apply KeepsQ.bind | split)

theorem State.prepDraw_keeps {a s : State} {r : Req} (h : Keeps a s) : KeepsQ a (State.prepDraw s r) := by
  unfold State.prepDraw
  iterate 40 (try any_goals first
    | with_reducible assumption | intro _ | with_reducible apply State.draw_keeps | with_reducible apply State.setReq_keeps
    | with_reducible apply KeepsQ.mkGo | with_reducible apply KeepsQ.mkWait | with_reducible apply KeepsQ.ite | with_reducible apply KeepsQ.bind)

theorem State.prepEntropy_keeps {a s : State} {r : Req} (h : Keeps a s) : KeepsQ a (State.prepEntropy s r) := by
  unfold State.prepEntropy
  iterate 40 (try any_goals first
    | with_reducible assumption | with_reducible apply State.fail_keeps | with_reducible apply State.setReq_keeps | with_reducible apply KeepsQ.mkGo
    | with_reducible apply KeepsQ.mkWait | with_reducible apply KeepsQ.mkStop | with_reducible apply KeepsQ.ite)

theorem State.prepNewLines_keeps {a s : State} {r : Req} (h : Keeps a s) : KeepsQ a (State.prepNewLines s r) := by
  unfold State.prepNewLines
  iterate 40 (try any_goals first
    | with_reducible assumption | intro _ | with_reducible apply State.deny_keeps | with_reducible apply State.wantSrc_keeps
    | with_reducible apply State.wantEach_keeps | with_reducible apply State.setReq_keeps | with_reducible apply KeepsQ.mkGo
    | with_reducible apply KeepsQ.mkWait | with_reducible apply KeepsQ.mkStop | with_reducible apply KeepsQ.ite | with_reducible apply KeepsQ.bind)

theorem State.prepStep_keeps {a s : State} {r : Req} (h : Keeps a s) : KeepsQ a (State.prepStep s r) := by
  unfold State.prepStep
  iterate 40 (try any_goals first
    | with_reducible assumption | with_reducible apply State.prepLists_keeps | with_reducible apply State.prepCheck_keeps
    | with_reducible apply State.prepStage_keeps | with_reducible apply State.prepCtx_keeps | with_reducible apply State.prepParam_keeps
    | with_reducible apply State.prepKeys_keeps | with_reducible apply State.prepSizes_keeps | with_reducible apply State.prepNewLines_keeps
    | with_reducible apply State.prepExpect_keeps | with_reducible apply State.prepDraw_keeps | with_reducible apply State.prepEntropy_keeps | split)

theorem State.prepF_keeps {a s : State} {x1 : Nat} {x2 : Nat} (h : Keeps a s) : Keeps a (State.prepF x1 s x2) := by
  induction x1 generalizing s x2 with
  | zero =>
    unfold State.prepF
    iterate 40 (try any_goals first | with_reducible assumption)
  | succ n0 ih =>
    unfold State.prepF
    iterate 40 (try any_goals first
      | with_reducible assumption | with_reducible apply ih | with_reducible apply State.setReq_keeps
      | with_reducible refine (State.prepStep_keeps ?_).wait _ (by assumption)
      | with_reducible refine (State.prepStep_keeps ?_).stop _ (by assumption)
      | with_reducible refine (State.prepStep_keeps ?_).go _ _ (by assumption) | split)

theorem State.prep_keeps {a s : State} {id : Nat} (h : Keeps a s) : Keeps a (State.prep s id) := by
  unfold State.prep
  iterate 40 (try any_goals first | with_reducible assumption | with_reducible apply State.prepF_keeps)

theorem State.reread2_keeps {a s : State} {r : Req} {frag : Bool} {x1 : Nat} {upto : Nat} {first : List (Nat × Nat)} (h : Keeps a s) :
    KeepsQ a (State.reread2 s r frag x1 upto first) := by
  unfold State.reread2
  iterate 40 (try any_goals first
    | with_reducible assumption | intro _ | with_reducible apply State.walk_keeps | with_reducible apply KeepsQ.mkGo
    | with_reducible apply KeepsQ.bind | split)

theorem State.restroke_keeps {a s : State} {r : Req} {upS : Nat} {upD : Nat} (h : Keeps a s) : KeepsQ a (State.restroke s r upS upD) := by
  unfold State.restroke
  iterate 40 (try any_goals first
    | with_reducible assumption | intro _ | with_reducible apply State.walkBoth_keeps | with_reducible apply State.reread2_keeps)

theorem State.strokeRead_keeps {a s : State} {r : Req} {k : Nat} (h : Keeps a s) : KeepsQ a (State.strokeRead s r k) := by
  unfold State.strokeRead
  iterate 40 (try any_goals first
    | with_reducible assumption | intro _ | with_reducible apply State.restroke_keeps | with_reducible apply State.haltReq_keeps
    | with_reducible apply State.wantSegs_keeps | with_reducible apply State.setReq_keeps | with_reducible apply KeepsQ.mkGo
    | with_reducible apply KeepsQ.mkStop | with_reducible apply KeepsQ.bind | split)

-- Machine/CtxOps.lean ------------------------------------------------------------------------------------------------------------------

theorem State.writeData_keeps {a s : State} {r : Req} {off : Nat} {b : Bytes} (h : Keeps a s) : Keeps a (State.writeData s r off b) := by
  unfold State.writeData
  iterate 40 (try any_goals first
    | with_reducible assumption | intro _ | with_reducible apply State.queueWrite_keeps | with_reducible apply Keeps.foldl)

theorem State.writeAux_keeps {a s : State} {r : Req} {b : Bytes} (h : Keeps a s) : Keeps a (State.writeAux s r b) := by
  unfold State.writeAux
  iterate 40 (try any_goals first | with_reducible assumption | with_reducible apply State.queueWrite_keeps | with_reducible apply Keeps.ite)

theorem State.putLines_keeps {a s : State} {id : Nat} {x1 : List (Nat × Hdr × Bytes)} {x2 : List Nat} (h : Keeps a s) :
    Keeps a (State.putLines s id x1 x2) := by
  induction x1 generalizing s id x2 with
  | nil =>
    unfold State.putLines
    iterate 40 (try any_goals first | with_reducible assumption)
  | cons x0 t0 ih =>
    unfold State.putLines
    iterate 40 (try any_goals first | with_reducible assumption | with_reducible apply ih | with_reducible refine (State.putLine_keeps ?_).fst)

theorem State.reread_keeps {a s : State} {r : Req} (h : Keeps a s) : Keeps a (State.reread s r) := by
  unfold State.reread
  iterate 40 (try any_goals first | with_reducible assumption | with_reducible apply State.setReq_keeps)

theorem State.installCtx_keeps {a s : State} {r : Req} {hdr : Hdr} {payload : Bytes} {ext : Bytes} (h : Keeps a s) :
    Keeps a (State.installCtx s r hdr payload ext) := by
  unfold State.installCtx
  iterate 40 (try any_goals first
    | with_reducible assumption | intro _ | ((fail_if_success (conv => arg 2; fun)); fail_if_no_progress extract_lets +onlyGivenNames y)
    | with_reducible apply State.reread_keeps | with_reducible apply State.fail_keeps | with_reducible apply State.dropLine_keeps
    | with_reducible apply State.dropInline_keeps | with_reducible apply State.putLines_keeps | with_reducible apply State.commit_keeps
    | with_reducible apply Keeps.foldl | split)

theorem State.ctxCreate_keeps {a s : State} {r : Req} (h : Keeps a s) : Keeps a (State.ctxCreate s r) := by
  unfold State.ctxCreate
  iterate 40 (try any_goals first | with_reducible assumption | with_reducible apply State.installCtx_keeps)

theorem State.rewriteCtx_keeps {a s : State} {r : Req} {l : CLine} {hdr : Hdr} {payload : Bytes} {ext : Bytes} (h : Keeps a s) :
    Keeps a (State.rewriteCtx s r l hdr payload ext) := by
  unfold State.rewriteCtx
  iterate 40 (try any_goals first
    | with_reducible assumption | with_reducible apply State.dropInline_keeps | with_reducible apply State.dropLine_keeps
    | with_reducible apply State.putLines_keeps)

theorem State.freeLines_keeps {a s : State} {r : Req} {l : CLine} {after : List Nat} (h : Keeps a s) : Keeps a (State.freeLines s r l after) := by
  unfold State.freeLines
  iterate 40 (try any_goals first
    | with_reducible assumption | with_reducible apply State.dropInline_keeps | with_reducible apply State.dropLine_keeps
    | with_reducible apply State.putLines_keeps)

theorem State.ctxDestroy_keeps {a s : State} {r : Req} {l : CLine} (h : Keeps a s) : Keeps a (State.ctxDestroy s r l) := by
  unfold State.ctxDestroy
  iterate 40 (try any_goals first
    | with_reducible assumption | with_reducible apply State.deny_keeps | with_reducible apply State.commit_keeps
    | with_reducible apply State.freeLines_keeps | with_reducible apply Keeps.ite)

theorem State.dropSlots_keeps {a s : State} {l : CLine} (h : Keeps a s) : Keeps a (State.dropSlots s l) := by
  unfold State.dropSlots
  iterate 40 (try any_goals first | with_reducible assumption | (refine Keeps.lit ?_ rfl rfl rfl rfl rfl rfl rfl rfl rfl rfl rfl))

theorem State.withStates_keeps {a s : State} {alg : Nat} {k : State → State} (h : Keeps a s) (hk : ∀ v0, Keeps a v0 → Keeps a (k v0)) :
    Keeps a (State.withStates s alg k) := by
  unfold State.withStates
  iterate 40 (try any_goals first
    | with_reducible assumption | with_reducible apply hk | with_reducible refine (State.stateRun_keeps ?_).all _ (by assumption) | split)

theorem State.ctxRotate_keeps {a s : State} {r : Req} {l : CLine} {key : Bytes} (h : Keeps a s) : Keeps a (State.ctxRotate s r l key) := by
  unfold State.ctxRotate
  iterate 40 (try any_goals first
    | with_reducible assumption | intro _ | with_reducible apply State.fail_keeps | with_reducible apply State.withStates_keeps
    | with_reducible apply State.dropSlots_keeps | with_reducible apply State.commit_keeps | with_reducible apply State.rewriteCtx_keeps
    | with_reducible apply Keeps.ite)

theorem State.ctxExport_keeps {a s : State} {r : Req} {l : CLine} (h : Keeps a s) : Keeps a (State.ctxExport s r l) := by
  unfold State.ctxExport
  iterate 40 (try any_goals first
    | with_reducible assumption
    | ((fail_if_success (conv => arg 2; fun)); ((fail_if_no_progress extract_lets +onlyGivenNames y); have hy : Keeps a y := ?_; (try clear_value y); rotate_left; try unfold y))
    | ((fail_if_success (conv => arg 2; fun)); fail_if_no_progress extract_lets +onlyGivenNames y) | with_reducible apply State.fail_keeps
    | with_reducible apply State.haltReq_keeps | with_reducible apply State.writeData_keeps | with_reducible apply State.freeLines_keeps
    | with_reducible apply State.commit_keeps | split)

theorem State.ctxImport_keeps {a s : State} {r : Req} (h : Keeps a s) : Keeps a (State.ctxImport s r) := by
  unfold State.ctxImport
  iterate 40 (try any_goals first
    | with_reducible assumption | intro _ | ((fail_if_success (conv => arg 2; fun)); fail_if_no_progress extract_lets +onlyGivenNames y)
    | with_reducible apply State.fail_keeps | with_reducible apply State.reread_keeps | with_reducible apply State.withStates_keeps
    | with_reducible apply State.installCtx_keeps | split)

theorem State.ctxSnapshot_keeps {a s : State} {r : Req} {l : CLine} (h : Keeps a s) : Keeps a (State.ctxSnapshot s r l) := by
  unfold State.ctxSnapshot
  iterate 40 (try any_goals first | with_reducible assumption | with_reducible apply State.commit_keeps)

theorem State.ctxFlush_keeps {a s : State} {r : Req} (h : Keeps a s) : Keeps a (State.ctxFlush s r) := by
  unfold State.ctxFlush
  iterate 40 (try any_goals first
    | with_reducible assumption | intro _
    | ((fail_if_success (conv => arg 2; fun)); ((fail_if_no_progress extract_lets +onlyGivenNames y); have hy : Keeps a y := ?_; (try clear_value y); rotate_left; try unfold y))
    | ((fail_if_success (conv => arg 2; fun)); fail_if_no_progress extract_lets +onlyGivenNames y) | with_reducible apply State.fail_keeps
    | with_reducible apply State.dropInline_keeps | with_reducible apply State.evict_keeps | with_reducible apply State.commit_keeps
    | with_reducible apply Keeps.foldl | split)

theorem State.randomKey_keeps {a s : State} {r : Req} {l : CLine} {key : Bytes} (h : Keeps a s) : Keeps a (State.randomKey s r l key) := by
  unfold State.randomKey
  iterate 40 (try any_goals first
    | with_reducible assumption | intro _
    | ((fail_if_success (conv => arg 2; fun)); ((fail_if_no_progress extract_lets +onlyGivenNames y); have hy : Keeps a y := ?_; (try clear_value y); rotate_left; try unfold y))
    | ((fail_if_success (conv => arg 2; fun)); fail_if_no_progress extract_lets +onlyGivenNames y) | with_reducible apply State.fail_keeps
    | with_reducible apply State.haltReq_keeps | with_reducible apply State.withStates_keeps | with_reducible apply State.writeData_keeps
    | with_reducible apply State.dropSlots_keeps | with_reducible apply State.rewriteCtx_keeps | with_reducible apply State.commit_keeps | split)

theorem State.withLine_keeps {a s : State} {r : Req} {k : State → CLine → State} (h : Keeps a s) (hk : ∀ v0 v1, Keeps a v0 → Keeps a (k v0 v1)) :
    Keeps a (State.withLine s r k) := by
  unfold State.withLine
  iterate 40 (try any_goals first
    | with_reducible assumption | with_reducible apply hk | with_reducible refine (State.lookup_keeps ?_).wait _ (by assumption)
    | with_reducible refine (State.lookup_keeps ?_).stop _ (by assumption) | with_reducible refine (State.lookup_keeps ?_).go _ _ (by assumption)
    | with_reducible apply State.setReq_keeps | split)

theorem State.keyDrawn_keeps {a s : State} {r : Req} (h : Keeps a s) : Keeps a (State.keyDrawn s r) := by
  unfold State.keyDrawn
  iterate 40 (try any_goals first
    | with_reducible assumption | intro _ | with_reducible apply State.withLine_keeps | with_reducible apply State.randomKey_keeps
    | with_reducible apply State.ctxRotate_keeps | with_reducible apply Keeps.ite)

theorem State.drawnDue_keeps {a s : State} (h : Keeps a s) : Keeps a (State.drawnDue s) := by
  unfold State.drawnDue
  iterate 40 (try any_goals first | with_reducible assumption | with_reducible apply State.keyDrawn_keeps | with_reducible apply Keeps.foldl)

end Sys2Proof.Machine
end

