-- ==== Sys2Proof/Laws/KeepUnits.lean ====
section
/-! SUPPORT. What keeps the queue of commands and soundness: engines, function control, time, start, boundary. One lemma per function that changes the state. -/
namespace Sys2Proof.Machine

set_option linter.unreachableTactic false
set_option linter.unusedTactic false
set_option linter.tactic.unusedName false

-- Machine/Lane.lean --------------------------------------------------------------------------------------------------------------------

theorem State.compute_keeps {a s : State} {op : Nat} {id : Nat} (h : Keeps a s) : Keeps a (State.compute s op id) := by
  unfold State.compute
  iterate 40 (try any_goals first
    | with_reducible assumption | intro _ | with_reducible apply State.setLane_keeps | with_reducible apply State.setDig_keeps
    | with_reducible apply Keeps.foldl | split)

theorem State.writeStroke_keeps {a s : State} {r : Req} {u : Nat} {k : Nat} {b : Bytes} (h : Keeps a s) : Keeps a (State.writeStroke s r u k b) := by
  unfold State.writeStroke
  iterate 40 (try any_goals first
    | with_reducible assumption | intro _ | with_reducible apply State.queueWrite_keeps | with_reducible apply Keeps.foldl)

theorem State.scrub_keeps {a s : State} {r : Req} (h : Keeps a s) : Keeps a (State.scrub s r) := by
  unfold State.scrub
  iterate 40 (try any_goals first
    | with_reducible assumption | intro _ | with_reducible apply State.queueWrite_keeps | with_reducible apply Keeps.foldl)

theorem State.accept_keeps {a s : State} {r : Req} {v : Nat} (h : Keeps a s) : Keeps a (State.accept s r v) := by
  unfold State.accept
  iterate 40 (try any_goals first
    | with_reducible assumption | with_reducible apply State.refresh_keeps | with_reducible apply State.setCached_keeps | split)

theorem State.saveState_keeps {a s : State} {r : Req} {b : Bytes} (h : Keeps a s) : Keeps a (State.saveState s r b) := by
  unfold State.saveState
  iterate 40 (try any_goals first | with_reducible assumption | with_reducible apply State.setCached_keeps | split)

theorem State.laneCount_keeps {a s : State} {n : Nat} {c : RegName} {sat : Bool} {k : Nat} (h : Keeps a s) :
    Keeps a (State.laneCount s n c sat k) := by
  unfold State.laneCount
  iterate 40 (try any_goals first
    | with_reducible assumption | with_reducible apply State.bumpSat_keeps | with_reducible apply State.setReg_keeps | with_reducible apply Keeps.ite)

theorem State.finish_keeps {a s : State} {r : Req} {x : Finish} (h : Keeps a s) : Keeps a (State.finish s r x) := by
  unfold State.finish
  iterate 40 (try any_goals first
    | with_reducible assumption | with_reducible apply State.writeAux_keeps | with_reducible apply State.scrub_keeps
    | with_reducible apply State.accept_keeps | with_reducible apply State.laneCount_keeps | with_reducible apply State.commit_keeps | split
    | (refine Keeps.lit ?_ rfl rfl rfl rfl rfl rfl rfl rfl rfl rfl rfl))

-- Machine/Cycles.lean ------------------------------------------------------------------------------------------------------------------

theorem State.laneBusy_keeps {a s : State} {n : Nat} {c : Nat} (h : Keeps a s) : Keeps a (State.laneBusy s n c) := by
  unfold State.laneBusy
  iterate 40 (try any_goals first | with_reducible assumption | with_reducible apply State.addBusy_keeps)

theorem State.laneSpent_keeps {a s : State} {n : Nat} {r : Req} {w : Run} (h : Keeps a s) : Keeps a (State.laneSpent s n r w) := by
  unfold State.laneSpent
  iterate 40 (try any_goals first
    | with_reducible assumption | ((fail_if_success (conv => arg 2; fun)); fail_if_no_progress extract_lets +onlyGivenNames y)
    | with_reducible apply State.laneBusy_keeps | split)

theorem State.laneStopped_keeps {a s : State} {n : Nat} {w : Run} (h : Keeps a s) : Keeps a (State.laneStopped s n w) := by
  unfold State.laneStopped
  iterate 40 (try any_goals first
    | with_reducible assumption | with_reducible apply State.laneBusy_keeps | split
    | (refine Keeps.lit ?_ rfl rfl rfl rfl rfl rfl rfl rfl rfl rfl rfl))

theorem State.digSpent_keeps {a s : State} {e : Nat} {r : Req} {k : Nat} (h : Keeps a s) : Keeps a (State.digSpent s e r k) := by
  unfold State.digSpent
  iterate 40 (try any_goals first
    | with_reducible assumption | with_reducible apply State.addBusy_keeps | with_reducible apply State.digCount_keeps)

theorem State.digStopped_keeps {a s : State} {e : Nat} {w : Run} (h : Keeps a s) : Keeps a (State.digStopped s e w) := by
  unfold State.digStopped
  iterate 40 (try any_goals first
    | with_reducible assumption | with_reducible apply State.addBusy_keeps | with_reducible apply State.digCount_keeps | split
    | (refine Keeps.lit ?_ rfl rfl rfl rfl rfl rfl rfl rfl rfl rfl rfl))

theorem State.combSpent_keeps {a s : State} {e : Nat} {r : Req} {k : Nat} (h : Keeps a s) : Keeps a (State.combSpent s e r k) := by
  unfold State.combSpent
  iterate 40 (try any_goals first
    | with_reducible assumption | with_reducible apply State.addBusy_keeps | with_reducible apply State.digCount_keeps
    | (refine Keeps.lit ?_ rfl rfl rfl rfl rfl rfl rfl rfl rfl rfl rfl))

-- Machine/Sched.lean -------------------------------------------------------------------------------------------------------------------

theorem State.sealDraw_keeps {a s : State} {f : Nat} (h : Keeps a s) : Keeps a (State.sealDraw s f) := by
  unfold State.sealDraw
  iterate 40 (try any_goals first
    | with_reducible assumption | with_reducible apply State.setFn_keeps | with_reducible apply State.sealAdvanceStart_keeps
    | with_reducible apply Keeps.ite)

theorem State.setCredit_keeps {a s : State} {key : Nat} {g : Nat} {v : Nat} (h : Keeps a s) : Keeps a (State.setCredit s key g v) := by
  unfold State.setCredit
  iterate 40 (try any_goals first | with_reducible assumption | (refine Keeps.lit ?_ rfl rfl rfl rfl rfl rfl rfl rfl rfl rfl rfl))

theorem State.newRound_keeps {a s : State} {key : Nat} (h : Keeps a s) : Keeps a (State.newRound s key) := by
  unfold State.newRound
  iterate 40 (try any_goals first
    | with_reducible assumption | intro _ | with_reducible apply Keeps.ite | with_reducible apply Keeps.foldl
    | (refine Keeps.lit ?_ rfl rfl rfl rfl rfl rfl rfl rfl rfl rfl rfl))

theorem State.pickRing_keeps {a s : State} {key : Nat} {gs : List Nat} (h : Keeps a s) : KeepsP a (State.pickRing s key gs) := by
  unfold State.pickRing
  iterate 40 (try any_goals first
    | with_reducible assumption | with_reducible apply State.newRound_keeps | split | with_reducible apply KeepsP.pair)

theorem State.arbitrate_keeps {a s : State} {arb : Nat} {cs : List Cand} (h : Keeps a s) : KeepsP a (State.arbitrate s arb cs) := by
  unfold State.arbitrate
  iterate 40 (try any_goals first
    | with_reducible assumption | with_reducible refine (State.pickRing_keeps ?_).eq (by assumption) | split
    | (refine Keeps.lit ?_ rfl rfl rfl rfl rfl rfl rfl rfl rfl rfl rfl) | with_reducible apply KeepsP.pair)

theorem State.firstGrant_keeps {a s : State} {r : Req} {home : List Nat} (h : Keeps a s) : KeepsP a (State.firstGrant s r home) := by
  unfold State.firstGrant
  iterate 40 (try any_goals first
    | with_reducible assumption | (refine Keeps.lit ?_ rfl rfl rfl rfl rfl rfl rfl rfl rfl rfl rfl) | with_reducible apply KeepsP.pair)

theorem State.laterGrant_keeps {a s : State} {r : Req} (h : Keeps a s) : KeepsP a (State.laterGrant s r) := by
  unfold State.laterGrant
  iterate 40 (try any_goals first | with_reducible assumption | with_reducible apply State.setReq_keeps | with_reducible apply KeepsP.pair)

theorem State.placeLane_keeps {a s : State} {n : Nat} {w : Run} (h : Keeps a s) : Keeps a (State.placeLane s n w) := by
  unfold State.placeLane
  iterate 40 (try any_goals first | with_reducible assumption | with_reducible apply State.setLane_keeps)

theorem State.bankLane_keeps {a s : State} {id : Nat} {n : Nat} (h : Keeps a s) : Keeps a (State.bankLane s id n) := by
  unfold State.bankLane
  iterate 40 (try any_goals first | with_reducible assumption | with_reducible apply State.setLane_keeps | with_reducible apply Keeps.ite)

theorem State.wakeReserve_keeps {a s : State} (h : Keeps a s) : Keeps a (State.wakeReserve s) := by
  unfold State.wakeReserve
  iterate 40 (try any_goals first | with_reducible assumption | with_reducible apply State.islWake_keeps | split)

theorem State.startLane_keeps {a s : State} {r : Req} {n k : Nat} (h : Keeps a s) : Keeps a (s.startLane r n k) := by
  have hw := State.wakeReserve_keeps h
  unfold State.startLane
  dsimp only
  generalize (if dPair r.d then (r.home.drop 1).head? else none) = p
  cases p with
  | none => exact State.placeLane_keeps hw
  | some m => exact State.placeLane_keeps (State.placeLane_keeps hw)

theorem State.firstLane_keeps {a s : State} {r : Req} {n : Nat} (h : Keeps a s) : Keeps a (State.firstLane s r n) := by
  unfold State.firstLane
  iterate 40 (try any_goals first
    | with_reducible assumption | intro _ | ((fail_if_success (conv => arg 2; fun)); fail_if_no_progress extract_lets +onlyGivenNames y)
    | with_reducible refine (State.firstGrant_keeps ?_).eq (by assumption) | with_reducible apply State.bankLane_keeps
    | with_reducible apply State.startLane_keeps | with_reducible apply State.fail_keeps | with_reducible apply State.sealDraw_keeps
    | with_reducible apply State.setReq_keeps | with_reducible apply Keeps.foldl | split)

theorem State.grantLane_keeps {a s : State} {n : Nat} (h : Keeps a s) : Keeps a (State.grantLane s n) := by
  unfold State.grantLane
  iterate 40 (try any_goals first
    | with_reducible assumption | with_reducible refine (State.arbitrate_keeps ?_).eq (by assumption) | with_reducible apply State.firstLane_keeps
    | with_reducible refine (State.laterGrant_keeps ?_).fst | with_reducible apply State.startLane_keeps | split)

theorem State.grantDig_keeps {a s : State} {e : Nat} (h : Keeps a s) : Keeps a (State.grantDig s e) := by
  unfold State.grantDig
  iterate 40 (try any_goals first
    | with_reducible assumption | with_reducible refine (State.arbitrate_keeps ?_).eq (by assumption)
    | with_reducible refine (State.laterGrant_keeps ?_).fst | with_reducible refine (State.firstGrant_keeps ?_).fst
    | with_reducible apply State.setDig_keeps | split)

theorem State.abandonTest_keeps {a s : State} {u : Nat} (h : Keeps a s) : Keeps a (State.abandonTest s u) := by
  unfold State.abandonTest
  iterate 40 (try any_goals first | with_reducible assumption | (refine Keeps.lit ?_ rfl rfl rfl rfl rfl rfl rfl rfl rfl rfl rfl))

theorem State.takeLaneRetry_keeps {a s : State} (h : Keeps a s) : Keeps a (State.takeLaneRetry s) := by
  unfold State.takeLaneRetry
  iterate 40 (try any_goals first
    | with_reducible assumption | ((fail_if_success (conv => arg 2; fun)); fail_if_no_progress extract_lets +onlyGivenNames y)
    | with_reducible apply State.setLane_keeps | split | (refine Keeps.lit ?_ rfl rfl rfl rfl rfl rfl rfl rfl rfl rfl rfl))

theorem State.takeDigRetry_keeps {a s : State} (h : Keeps a s) : Keeps a (State.takeDigRetry s) := by
  unfold State.takeDigRetry
  iterate 40 (try any_goals first
    | with_reducible assumption | with_reducible apply State.setDig_keeps | split | (refine Keeps.lit ?_ rfl rfl rfl rfl rfl rfl rfl rfl rfl rfl rfl))

theorem State.takeDigMove_keeps {a s : State} (h : Keeps a s) : Keeps a (State.takeDigMove s) := by
  unfold State.takeDigMove
  iterate 40 (try any_goals first
    | with_reducible assumption | with_reducible apply State.setDig_keeps | split | (refine Keeps.lit ?_ rfl rfl rfl rfl rfl rfl rfl rfl rfl rfl rfl))

theorem State.takeRetries_keeps {a s : State} (h : Keeps a s) : Keeps a (State.takeRetries s) := by
  unfold State.takeRetries
  iterate 40 (try any_goals first
    | with_reducible assumption | with_reducible apply iterate_keeps | with_reducible apply State.takeLaneRetry_keeps
    | with_reducible apply State.takeDigRetry_keeps | with_reducible apply State.takeDigMove_keeps | with_reducible apply Keeps.ite)

theorem State.clearLane_keeps {a s : State} {n : Nat} (h : Keeps a s) : Keeps a (State.clearLane s n) := by
  unfold State.clearLane
  iterate 40 (try any_goals first | with_reducible assumption | with_reducible apply State.setLane_keeps | split)

theorem State.failLane_keeps {a s : State} {n : Nat} {src : Nat} {inj : Bool} {detail : Nat} (h : Keeps a s) :
    Keeps a (State.failLane s n src inj detail) := by
  unfold State.failLane
  iterate 40 (try any_goals first
    | with_reducible assumption
    | ((fail_if_success (conv => arg 2; fun)); ((fail_if_no_progress extract_lets +onlyGivenNames y); have hy : Keeps a y := ?_; (try clear_value y); rotate_left; try unfold y))
    | with_reducible apply State.laneStopped_keeps | with_reducible apply State.clearLane_keeps | with_reducible apply State.capture_keeps
    | with_reducible apply State.laneCount_keeps | with_reducible apply State.takeRetries_keeps | split
    | (refine Keeps.lit ?_ rfl rfl rfl rfl rfl rfl rfl rfl rfl rfl rfl))

theorem State.failCombined_keeps {a s : State} {n : Nat} {e : Nat} {inj : Bool} {detail : Nat} (h : Keeps a s) :
    Keeps a (State.failCombined s n e inj detail) := by
  unfold State.failCombined
  iterate 40 (try any_goals first
    | with_reducible assumption
    | ((fail_if_success (conv => arg 2; fun)); ((fail_if_no_progress extract_lets +onlyGivenNames y); have hy : Keeps a y := ?_; (try clear_value y); rotate_left; try unfold y))
    | with_reducible apply State.laneStopped_keeps | with_reducible apply State.clearLane_keeps | with_reducible apply State.capture_keeps
    | with_reducible apply State.digCount_keeps | with_reducible apply State.takeRetries_keeps | split
    | (refine Keeps.lit ?_ rfl rfl rfl rfl rfl rfl rfl rfl rfl rfl rfl))

theorem State.failDig_keeps {a s : State} {e : Nat} {inj : Bool} {detail : Nat} (h : Keeps a s) : Keeps a (State.failDig s e inj detail) := by
  unfold State.failDig
  iterate 40 (try any_goals first
    | with_reducible assumption | ((fail_if_success (conv => arg 2; fun)); fail_if_no_progress extract_lets +onlyGivenNames y)
    | with_reducible apply State.failCombined_keeps | with_reducible apply State.digStopped_keeps | with_reducible apply State.setDig_keeps
    | with_reducible apply State.capture_keeps | with_reducible apply State.digCount_keeps | with_reducible apply State.takeRetries_keeps | split
    | (refine Keeps.lit ?_ rfl rfl rfl rfl rfl rfl rfl rfl rfl rfl rfl))

theorem State.commitStroke_keeps {a s : State} {r : Req} {u : Nat} {w : Run} {out : Bytes} (h : Keeps a s) :
    KeepsO a (State.commitStroke s r u w out) := by
  unfold State.commitStroke
  iterate 40 (try any_goals first
    | with_reducible assumption | ((fail_if_success (conv => arg 2; fun)); fail_if_no_progress extract_lets +onlyGivenNames y)
    | with_reducible apply State.writeStroke_keeps | with_reducible apply State.setReq_keeps | with_reducible apply State.fail_keeps
    | with_reducible apply State.finish_keeps | with_reducible apply KeepsO.none | with_reducible apply KeepsO.some | split)

theorem State.acceptWait_keeps {a s u : State} {r : Req} {v : Nat} (h : Keeps a s) (e : s.acceptWait r v = some (some u)) : Keeps a u := by
  unfold State.acceptWait at e
  split at e
  · cases e
  · split at e
    · cases e; exact h
    · split at e
      · cases e
      · split at e
        · cases e; exact h
        · exact (State.reserveTo_keeps h).all _ (by injection e)

theorem State.askReserve_keeps {a s : State} {r : Req} {w : Run} (h : Keeps a s) : Keeps a (State.askReserve s r w) := by
  unfold State.askReserve
  iterate 40 (try any_goals first
    | with_reducible assumption | ((fail_if_success (conv => arg 2; fun)); fail_if_no_progress extract_lets +onlyGivenNames y)
    | with_reducible exact State.acceptWait_keeps ‹_› (by assumption) | split)

theorem State.injected_keeps {a s : State} {n : Nat} {w : Run} (h : Keeps a s) : KeepsO a (State.injected s n w) := by
  unfold State.injected
  iterate 40 (try any_goals first
    | with_reducible assumption | with_reducible apply State.failLane_keeps | with_reducible apply State.injFired_keeps
    | with_reducible apply State.failCombined_keeps | with_reducible apply KeepsO.none | with_reducible apply KeepsO.some | split)

theorem State.commitLane_keeps {a s : State} {n : Nat} (h : Keeps a s) : Keeps a (State.commitLane s n) := by
  unfold State.commitLane
  iterate 40 (try any_goals first
    | with_reducible assumption
    | ((fail_if_success (conv => arg 2; fun)); ((fail_if_no_progress extract_lets +onlyGivenNames y); have hy : Keeps a y := ?_; (try clear_value y); rotate_left; try unfold y))
    | ((fail_if_success (conv => arg 2; fun)); fail_if_no_progress extract_lets +onlyGivenNames y) | with_reducible apply State.singleStrike_keeps
    | with_reducible refine (State.injected_keeps ?_).all _ (by assumption) | with_reducible apply State.commitStroke_keeps
    | with_reducible apply State.haltReq_keeps | with_reducible apply State.askReserve_keeps | with_reducible apply State.laneSpent_keeps
    | with_reducible apply State.clearLane_keeps | with_reducible apply State.laneCount_keeps | with_reducible apply State.combSpent_keeps
    | with_reducible apply Keeps.getD | split)

theorem State.commitDig_keeps {a s : State} {e : Nat} (h : Keeps a s) : Keeps a (State.commitDig s e) := by
  unfold State.commitDig
  iterate 40 (try any_goals first
    | with_reducible assumption
    | ((fail_if_success (conv => arg 2; fun)); ((fail_if_no_progress extract_lets +onlyGivenNames y); have hy : Keeps a y := ?_; (try clear_value y); rotate_left; try unfold y))
    | with_reducible apply State.failDig_keeps | with_reducible apply State.injFired_keeps | with_reducible apply State.singleStrike_keeps
    | with_reducible apply State.haltReq_keeps | with_reducible apply State.setDig_keeps | with_reducible apply State.digSpent_keeps
    | with_reducible apply State.digCount_keeps | with_reducible apply State.commitStroke_keeps | with_reducible apply Keeps.getD | split)

theorem State.handBanks_keeps {a s : State} {x1 : Nat} {b : Nat} (h : Keeps a s) : Keeps a (State.handBanks s x1 b) := by
  unfold State.handBanks
  iterate 40 (try any_goals first
    | with_reducible assumption | with_reducible apply State.setLane_keeps | (refine Keeps.lit ?_ rfl rfl rfl rfl rfl rfl rfl rfl rfl rfl rfl))

theorem State.retireLane_keeps {a s : State} {n : Nat} (h : Keeps a s) : Keeps a (State.retireLane s n) := by
  unfold State.retireLane
  iterate 40 (try any_goals first
    | with_reducible assumption | with_reducible apply State.setLane_keeps | split
    | (refine Keeps.lit ?_ rfl rfl rfl rfl rfl rfl rfl rfl rfl rfl rfl))

theorem State.retireDig_keeps {a s : State} {e : Nat} (h : Keeps a s) : Keeps a (State.retireDig s e) := by
  unfold State.retireDig
  iterate 40 (try any_goals first
    | with_reducible assumption | intro _ | with_reducible apply State.setDig_keeps | with_reducible apply Keeps.foldl
    | (refine Keeps.lit ?_ rfl rfl rfl rfl rfl rfl rfl rfl rfl rfl rfl))

theorem State.redirectDig_keeps {a s : State} {e : Nat} (h : Keeps a s) : Keeps a (State.redirectDig s e) := by
  unfold State.redirectDig
  iterate 40 (try any_goals first
    | with_reducible assumption | intro _ | with_reducible apply State.placeLane_keeps | with_reducible apply Keeps.foldl | split)

theorem State.rotate_keeps {a s : State} (h : Keeps a s) : Keeps a (State.rotate s) := by
  unfold State.rotate
  iterate 40 (try any_goals first
    | with_reducible assumption | ((fail_if_success (conv => arg 2; fun)); fail_if_no_progress extract_lets +onlyGivenNames y)
    | with_reducible apply State.handBanks_keeps | split | (refine Keeps.lit ?_ rfl rfl rfl rfl rfl rfl rfl rfl rfl rfl rfl))

theorem State.setTest_keeps {a s : State} {u : Nat} {on : Bool} (h : Keeps a s) : Keeps a (State.setTest s u on) := by
  unfold State.setTest
  iterate 40 (try any_goals first
    | with_reducible assumption | with_reducible apply State.setLane_keeps | with_reducible apply State.setDig_keeps
    | with_reducible apply State.setEasel_keeps | with_reducible apply Keeps.ite)

theorem State.rotateNow_keeps {a s : State} (h : Keeps a s) : Keeps a (State.rotateNow s) := by
  unfold State.rotateNow
  iterate 40 (try any_goals first
    | with_reducible assumption
    | ((fail_if_success (conv => arg 2; fun)); ((fail_if_no_progress extract_lets +onlyGivenNames y); have hy : Keeps a y := ?_; (try clear_value y); rotate_left; try unfold y))
    | with_reducible apply State.rotate_keeps | with_reducible apply State.setTest_keeps | split
    | (refine Keeps.lit ?_ rfl rfl rfl rfl rfl rfl rfl rfl rfl rfl rfl))

theorem State.rotateDue_keeps {a s : State} (h : Keeps a s) : Keeps a (State.rotateDue s) := by
  unfold State.rotateDue
  iterate 40 (try any_goals first | with_reducible assumption | with_reducible apply State.rotateNow_keeps | with_reducible apply Keeps.ite)

-- Machine/Retire.lean ------------------------------------------------------------------------------------------------------------------

theorem State.markRetried_keeps {a s : State} {id : Nat} (h : Keeps a s) : Keeps a (State.markRetried s id) := by
  unfold State.markRetried
  iterate 40 (try any_goals first | with_reducible assumption | with_reducible apply State.setReq_keeps | split)

theorem State.easelCount_keeps {a s : State} {e : Nat} {c : RegName} {sat : Bool} (h : Keeps a s) : Keeps a (State.easelCount s e c sat) := by
  unfold State.easelCount
  iterate 40 (try any_goals first
    | with_reducible assumption | with_reducible apply State.bumpSat_keeps | with_reducible apply State.bump_keeps | with_reducible apply Keeps.ite)

theorem State.compareFailed_keeps {a s : State} {e : Nat} (h : Keeps a s) : Keeps a (State.compareFailed s e) := by
  unfold State.compareFailed
  iterate 40 (try any_goals first
    | with_reducible assumption | with_reducible apply State.easelCount_keeps | with_reducible apply State.setEasel_keeps)

theorem State.retireEasel_keeps {a s : State} {e : Nat} {third : Option Nat} (h : Keeps a s) : Keeps a (State.retireEasel s e third) := by
  unfold State.retireEasel
  iterate 40 (try any_goals first
    | with_reducible assumption | intro _ | with_reducible apply State.abandonRun_keeps | with_reducible apply State.setEasel_keeps
    | with_reducible apply Keeps.foldl | split | (refine Keeps.lit ?_ rfl rfl rfl rfl rfl rfl rfl rfl rfl rfl rfl))

theorem State.endClassTests_keeps {a s : State} {u : Nat} (h : Keeps a s) : Keeps a (State.endClassTests s u) := by
  unfold State.endClassTests
  iterate 40 (try any_goals first
    | with_reducible assumption | intro _ | with_reducible apply State.setLane_keeps | with_reducible apply State.abandonTest_keeps
    | with_reducible apply State.setDig_keeps | with_reducible apply State.setEasel_keeps | with_reducible apply Keeps.ite
    | with_reducible apply Keeps.foldl)

theorem State.retireUnit_keeps {a s : State} {u : Nat} {third : Option Nat} (h : Keeps a s) : Keeps a (State.retireUnit s u third) := by
  unfold State.retireUnit
  iterate 40 (try any_goals first
    | with_reducible assumption | with_reducible apply State.portFault_keeps | with_reducible apply State.endClassTests_keeps
    | with_reducible apply State.abandonTest_keeps | with_reducible apply State.markRetired_keeps | with_reducible apply State.takeRetries_keeps
    | with_reducible apply State.retireLane_keeps | with_reducible apply State.redirectDig_keeps | with_reducible apply State.retireDig_keeps
    | with_reducible apply State.retireEasel_keeps | with_reducible apply Keeps.ite)

theorem State.planWrite_keeps {a s : State} {u : Nat} (h : Keeps a s) : Keeps a (State.planWrite s u) := by
  unfold State.planWrite
  iterate 40 (try any_goals first
    | with_reducible assumption | with_reducible apply State.capture_keeps | with_reducible apply State.tlyWrite_keeps)

theorem State.vplanWrite_keeps {a s : State} (h : Keeps a s) : Keeps a (State.vplanWrite s) := by
  unfold State.vplanWrite
  iterate 40 (try any_goals first | with_reducible assumption | with_reducible apply State.tlyWrite_keeps)

theorem State.marginRetire_keeps {a s : State} {u : Nat} (h : Keeps a s) : Keeps a (State.marginRetire s u) := by
  unfold State.marginRetire
  iterate 40 (try any_goals first
    | with_reducible assumption | with_reducible apply State.planWrite_keeps | with_reducible apply State.setAgeU_keeps)

theorem State.vstepTaken_keeps {a s : State} {u : Nat} (h : Keeps a s) : Keeps a (State.vstepTaken s u) := by
  unfold State.vstepTaken
  iterate 40 (try any_goals first
    | with_reducible assumption | with_reducible apply State.capture_keeps | with_reducible apply State.vplanWrite_keeps
    | (refine Keeps.lit ?_ rfl rfl rfl rfl rfl rfl rfl rfl rfl rfl rfl))

theorem State.askVolt_keeps {a s : State} {u : Nat} (h : Keeps a s) : Keeps a (State.askVolt s u) := by
  unfold State.askVolt
  iterate 40 (try any_goals first
    | with_reducible assumption | with_reducible apply State.vstepTaken_keeps | with_reducible apply Keeps.ite
    | (refine Keeps.lit ?_ rfl rfl rfl rfl rfl rfl rfl rfl rfl rfl rfl))

theorem State.planStep_keeps {a s : State} {u : Nat} (h : Keeps a s) : Keeps a (State.planStep s u) := by
  unfold State.planStep
  iterate 40 (try any_goals first
    | with_reducible assumption | with_reducible apply State.planWrite_keeps | with_reducible apply State.setAgeU_keeps
    | with_reducible apply State.askVolt_keeps | with_reducible apply State.marginRetire_keeps | with_reducible apply Keeps.ite)

theorem State.measure_keeps {a s : State} {u : Nat} {slack : Nat} (h : Keeps a s) : Keeps a (State.measure s u slack) := by
  unfold State.measure
  iterate 40 (try any_goals first
    | with_reducible assumption | ((fail_if_success (conv => arg 2; fun)); fail_if_no_progress extract_lets +onlyGivenNames y)
    | with_reducible apply State.tlyWrite_keeps | with_reducible apply State.setAgeU_keeps | with_reducible apply State.planStep_keeps | split
    | (refine Keeps.lit ?_ rfl rfl rfl rfl rfl rfl rfl rfl rfl rfl rfl))

theorem State.marginDue_keeps {a s : State} (h : Keeps a s) : Keeps a (State.marginDue s) := by
  unfold State.marginDue
  iterate 40 (try any_goals first
    | with_reducible assumption | intro _ | with_reducible apply State.retireUnit_keeps | with_reducible apply Keeps.ite
    | with_reducible apply Keeps.foldl)

-- Machine/Settle.lean ------------------------------------------------------------------------------------------------------------------

theorem State.palTake_keeps {a s : State} {n : Nat} (h : Keeps a s) : KeepsP a (State.palTake s n) := by
  unfold State.palTake
  iterate 40 (try any_goals first
    | with_reducible assumption | (refine Keeps.lit ?_ rfl rfl rfl rfl rfl rfl rfl rfl rfl rfl rfl) | with_reducible apply KeepsP.pair)

theorem State.serveOne_keeps {a s : State} (h : Keeps a s) : KeepsO a (State.serveOne s) := by
  unfold State.serveOne
  iterate 40 (try any_goals first
    | with_reducible assumption | ((fail_if_success (conv => arg 2; fun)); fail_if_no_progress extract_lets +onlyGivenNames y)
    | with_reducible refine (State.palTake_keeps ?_).eq (by assumption) | with_reducible apply State.haltReq_keeps
    | with_reducible apply State.writeData_keeps | with_reducible apply State.commit_keeps | with_reducible apply State.keyDrawn_keeps
    | with_reducible apply KeepsO.none | with_reducible apply KeepsO.some | split | (refine Keeps.lit ?_ rfl rfl rfl rfl rfl rfl rfl rfl rfl rfl rfl))

theorem State.serveF_keeps {a s : State} {x1 : Nat} (h : Keeps a s) : Keeps a (State.serveF x1 s) := by
  induction x1 generalizing s with
  | zero =>
    unfold State.serveF
    iterate 40 (try any_goals first | with_reducible assumption)
  | succ n0 ih =>
    unfold State.serveF
    iterate 40 (try any_goals first
      | with_reducible assumption | with_reducible apply ih | with_reducible refine (State.serveOne_keeps ?_).all _ (by assumption) | split)

theorem State.entEnd_keeps {a s : State} (h : Keeps a s) : Keeps a (State.entEnd s) := by
  unfold State.entEnd
  iterate 40 (try any_goals first
    | with_reducible assumption | intro _ | with_reducible apply State.fail_keeps | with_reducible apply Keeps.ite | with_reducible apply Keeps.foldl)

theorem State.entStall_keeps {a s : State} (h : Keeps a s) : Keeps a (State.entStall s) := by
  unfold State.entStall
  iterate 40 (try any_goals first
    | with_reducible assumption | with_reducible refine (State.palTake_keeps ?_).fst | with_reducible apply State.setFn_keeps
    | with_reducible apply State.endStall_ok | split)

theorem State.palLost_keeps {a s : State} {idx : Nat} (h : Keeps a s) : Keeps a (State.palLost s idx) := by
  unfold State.palLost
  iterate 40 (try any_goals first
    | with_reducible assumption | with_reducible apply State.bumpSat_keeps | split
    | (refine Keeps.lit ?_ rfl rfl rfl rfl rfl rfl rfl rfl rfl rfl rfl))

theorem State.palStrike_keeps {a s : State} (h : Keeps a s) : Keeps a (State.palStrike s) := by
  unfold State.palStrike
  iterate 40 (try any_goals first
    | with_reducible assumption | intro _ | with_reducible apply State.recover_keeps | with_reducible apply State.capture_keeps
    | with_reducible apply State.injFired_keeps | with_reducible apply State.palLost_keeps | with_reducible apply State.singleStrike_keeps
    | with_reducible apply Keeps.ite)

theorem State.entRead_keeps {a s : State} (h : Keeps a s) : Keeps a (State.entRead s) := by
  unfold State.entRead
  iterate 40 (try any_goals first
    | with_reducible assumption | with_reducible apply State.entStall_keeps | with_reducible apply State.palStrike_keeps | split)

theorem State.serve_keeps {a s : State} (h : Keeps a s) : Keeps a (State.serve s) := by
  unfold State.serve
  iterate 40 (try any_goals first
    | with_reducible assumption | with_reducible apply State.palStrike_keeps | with_reducible apply State.entStall_keeps
    | with_reducible apply State.serveF_keeps | with_reducible apply State.entEnd_keeps | with_reducible apply Keeps.ite)

theorem State.runRead_keeps {a s : State} {w : Run} (h : Keeps a s) : KeepsP a (State.runRead s w) := by
  unfold State.runRead
  iterate 40 (try any_goals first
    | with_reducible assumption | with_reducible refine (State.strokeRead_keeps ?_).wait _ (by assumption)
    | with_reducible refine (State.strokeRead_keeps ?_).stop _ (by assumption)
    | with_reducible refine (State.strokeRead_keeps ?_).go _ _ (by assumption) | split | with_reducible apply KeepsP.pair)

theorem State.laneRead_keeps {a s : State} {n : Nat} (h : Keeps a s) : Keeps a (State.laneRead s n) := by
  unfold State.laneRead
  iterate 40 (try any_goals first
    | with_reducible assumption | with_reducible refine (State.runRead_keeps ?_).eq (by assumption) | with_reducible apply State.setLane_keeps
    | split)

theorem State.digRead_keeps {a s : State} {e : Nat} (h : Keeps a s) : Keeps a (State.digRead s e) := by
  unfold State.digRead
  iterate 40 (try any_goals first
    | with_reducible assumption | with_reducible refine (State.runRead_keeps ?_).eq (by assumption) | with_reducible apply State.setDig_keeps | split)

theorem State.noteIdle_keeps {a s : State} {i : Nat} (h : Keeps a s) : Keeps a (State.noteIdle s i) := by
  unfold State.noteIdle
  iterate 40 (try any_goals first | with_reducible assumption | with_reducible apply State.setIsl_keeps | with_reducible apply Keeps.ite)

theorem State.wakeCore_keeps {a s : State} (h : Keeps a s) : Keeps a (State.wakeCore s) := by
  unfold State.wakeCore
  iterate 40 (try any_goals first | with_reducible assumption | with_reducible apply State.islWake_keeps | with_reducible apply Keeps.ite)

theorem State.updateSync_keeps {a s : State} (h : Keeps a s) : Keeps a (State.updateSync s) := by
  unfold State.updateSync
  iterate 40 (try any_goals first
    | with_reducible assumption | with_reducible apply State.capture_keeps | with_reducible apply Keeps.ite
    | (refine Keeps.lit ?_ rfl rfl rfl rfl rfl rfl rfl rfl rfl rfl rfl))

theorem State.unitRead_keeps {a s : State} {u : Nat} (h : Keeps a s) : Keeps a (State.unitRead s u) := by
  unfold State.unitRead
  iterate 40 (try any_goals first
    | with_reducible assumption | with_reducible apply State.laneRead_keeps | with_reducible apply State.digRead_keeps
    | with_reducible apply Keeps.ite)

theorem State.disableAdvance_keeps {a s : State} (h : Keeps a s) : Keeps a (State.disableAdvance s) := by
  unfold State.disableAdvance
  iterate 40 (try any_goals first
    | with_reducible assumption | with_reducible apply State.flushLines_keeps | with_reducible apply Keeps.ite
    | (refine Keeps.lit ?_ rfl rfl rfl rfl rfl rfl rfl rfl rfl rfl rfl))

theorem State.invalidate_keeps {a s : State} (h : Keeps a s) : Keeps a (State.invalidate s) := by
  unfold State.invalidate
  iterate 40 (try any_goals first | with_reducible assumption | split | (refine Keeps.lit ?_ rfl rfl rfl rfl rfl rfl rfl rfl rfl rfl rfl))

theorem State.sweep_keeps {a s : State} (h : Keeps a s) : Keeps a (State.sweep s) := by
  unfold State.sweep
  iterate 40 (try any_goals first
    | with_reducible assumption | intro _ | with_reducible apply State.fetchRing_keeps | with_reducible apply State.admitF_keeps
    | with_reducible apply State.prep_keeps | with_reducible apply State.rotateDue_keeps | with_reducible apply State.marginDue_keeps
    | with_reducible apply State.takeRetries_keeps | with_reducible apply State.unitRead_keeps | with_reducible apply State.invalidate_keeps
    | with_reducible apply State.drawnDue_keeps | with_reducible apply State.serve_keeps | with_reducible apply State.completeF_keeps
    | with_reducible apply State.issueMsgs_keeps | with_reducible apply State.issueHaltMsg_keeps | with_reducible apply State.pmAdvance_keeps
    | with_reducible apply State.fenceAdvance_keeps | with_reducible apply State.disableAdvance_keeps | with_reducible apply Keeps.foldl
    | (refine Keeps.lit ?_ rfl rfl rfl rfl rfl rfl rfl rfl rfl rfl rfl))

theorem State.nextCapture_keeps {a s : State} (h : Keeps a s) : Keeps a (State.nextCapture s) := by
  unfold State.nextCapture
  iterate 40 (try any_goals first
    | with_reducible assumption | with_reducible apply Keeps.ite | (refine Keeps.lit ?_ rfl rfl rfl rfl rfl rfl rfl rfl rfl rfl rfl))

theorem State.settle_keeps {a s : State} (h : Keeps a s) : Keeps a (State.settle s) := by
  unfold State.settle
  iterate 40 (try any_goals first
    | with_reducible assumption | with_reducible apply iterate_keeps | with_reducible apply State.sweep_keeps
    | with_reducible apply State.entRead_keeps | with_reducible apply State.wakeCore_keeps | with_reducible apply State.pumpKl_keeps
    | with_reducible apply State.pumpFab_keeps | with_reducible apply State.noteIdle_keeps | with_reducible apply State.nextCapture_keeps
    | with_reducible apply State.updateSync_keeps | with_reducible apply State.driveClocks_keeps | with_reducible apply Keeps.ite
    | with_reducible apply Keeps.foldl)

theorem State.done_keeps {a s : State} (h : Keeps a s) : KeepsR a (State.done s) := by
  unfold State.done
  iterate 40 (try any_goals first | with_reducible assumption | with_reducible apply State.settle_keeps | with_reducible apply KeepsR.mkNext)

-- Machine/FnCtl.lean -------------------------------------------------------------------------------------------------------------------

/-- A state with another register port. -/
theorem Keeps.port {a s : State} {x : Port} (h : Keeps a s) (hc : x.code ≤ 1) (hd : x.code = 1 → x.data = 0) : Keeps a { s with port := x } := by
  refine ⟨h.queue, fun ha => ?_⟩
  obtain ⟨⟨c0, c1, c2, c3, c4, c5, c6, c7, c8, c9, c10, c11⟩, k1, k2, k3, k4, k5, k6⟩ := h.sound ha
  exact ⟨⟨c0, c1, c2, c3, c4, c5, c6, c7, c8, c9, c10, c11⟩, hc, hd, k3, k4, k5, k6⟩

theorem State.respond_ok {a s : State} {v : Word} (h : Keeps a s) : Keeps a (s.respond 0 v) :=
  Keeps.port h (by decide : (0 : Nat) ≤ 1) (fun e => by cases e)

theorem State.respond_error {a s : State} (h : Keeps a s) : Keeps a (s.respond 1 0) :=
  Keeps.port h (by decide : (1 : Nat) ≤ 1) (fun _ => rfl)

theorem State.ok_keeps {a s : State} (h : Keeps a s) : Keeps a (State.ok s) := by
  unfold State.ok
  iterate 40 (try any_goals first | with_reducible assumption | with_reducible apply State.respond_ok)

theorem State.refuse_keeps {a s : State} (h : Keeps a s) : Keeps a (State.refuse s) := by
  unfold State.refuse
  iterate 40 (try any_goals first | with_reducible assumption | with_reducible apply State.respond_error)

theorem State.answer_keeps {a s : State} {o : Option State} (h : Keeps a s) (ho : KeepsO a o) : Keeps a (s.answer o) := by
  cases o with
  | none => exact State.refuse_keeps h
  | some u => exact State.ok_keeps (ho.all u rfl)

theorem State.present_keeps {a s : State} (h : Keeps a s) : Keeps a (State.present s) := by
  unfold State.present
  iterate 40 (try any_goals first
    | with_reducible assumption | with_reducible apply Keeps.ite | (refine Keeps.lit ?_ rfl rfl rfl rfl rfl rfl rfl rfl rfl rfl rfl))

theorem State.mgmt_keeps {a s : State} {o : Option State} (h : Keeps a s) (ho : KeepsO a o) : Keeps a (s.mgmt o) := by
  unfold State.mgmt
  exact Keeps.ite (State.present_keeps h) (Keeps.ite (State.refuse_keeps h) (State.answer_keeps h ho))

theorem State.dropCounted_keeps {a s : State} {f : Nat} (h : Keeps a s) : Keeps a (State.dropCounted s f) := by
  unfold State.dropCounted
  iterate 40 (try any_goals first
    | with_reducible assumption | intro _ | with_reducible apply State.setRing_keeps | with_reducible apply Keeps.foldl)

theorem State.startReset_keeps {a s : State} {f : Nat} {disable : Bool} (h : Keeps a s) : Keeps a (State.startReset s f disable) := by
  unfold State.startReset
  iterate 40 (try any_goals first
    | with_reducible assumption | ((fail_if_success (conv => arg 2; fun)); fail_if_no_progress extract_lets +onlyGivenNames y)
    | with_reducible apply State.setFn_keeps | with_reducible apply State.dropCounted_keeps | with_reducible apply State.abandonAll_keeps
    | with_reducible apply State.endStall_ok | split | (refine Keeps.lit ?_ rfl rfl rfl rfl rfl rfl rfl rfl rfl rfl rfl))

theorem State.finishReset_keeps {a s : State} {f : Nat} (h : Keeps a s) : Keeps a (s.finishReset f) := by
  unfold State.finishReset
  refine State.setFn_keeps ?_ _ _
  refine ⟨h.queue, fun ha => ?_⟩
  obtain ⟨⟨c0, c1, c2, c3, c4, c5, c6, c7, c8, c9, c10, c11⟩, k1, k2, k3, k4, k5, k6⟩ := h.sound ha
  exact ⟨⟨wf_filter _ c0, c1, wf_filter _ c2, c3, c4, c5, c6, c7, c8, c9, by dsimp only; split <;> exact c10, by dsimp only; split <;> exact c11⟩, k1, k2, k3, k4, k5, k6⟩

theorem State.drainReset_keeps {a s : State} {f : Nat} (h : Keeps a s) : Keeps a (State.drainReset s f) := by
  unfold State.drainReset
  iterate 40 (try any_goals first
    | with_reducible assumption | with_reducible apply State.setFn_keeps | with_reducible apply State.flushLines_keeps
    | with_reducible apply State.finishReset_keeps | with_reducible apply Keeps.ite)

theorem State.bumpEpoch_keeps {a s : State} {f : Nat} (h : Keeps a s) : Keeps a (State.bumpEpoch s f) := by
  unfold State.bumpEpoch
  iterate 40 (try any_goals first
    | with_reducible assumption | with_reducible apply State.setFn_keeps | with_reducible apply State.capture_keeps
    | with_reducible apply State.tlyWrite_keeps | with_reducible apply Keeps.ite)

theorem State.writeFnCfg_keeps {a s : State} {f : Nat} {v : Word} (h : Keeps a s) : KeepsO a (State.writeFnCfg s f v) := by
  unfold State.writeFnCfg
  iterate 40 (try any_goals first
    | with_reducible assumption | with_reducible apply State.bumpEpoch_keeps | with_reducible apply State.setFn_keeps
    | with_reducible apply State.startReset_keeps | with_reducible apply KeepsO.none | with_reducible apply KeepsO.some
    | with_reducible apply KeepsO.ite)

theorem State.flushCounted_keeps {a s : State} {f : Nat} {p : Nat → Ring → Bool} (h : Keeps a s) : Keeps a (State.flushCounted s f p) := by
  unfold State.flushCounted
  iterate 40 (try any_goals first
    | with_reducible assumption | intro _ | with_reducible apply State.ringDue_keeps | with_reducible apply Keeps.foldl)

theorem State.writePm_keeps {a s : State} {f : Nat} {mode : Nat} (h : Keeps a s) : Keeps a (State.writePm s f mode) := by
  unfold State.writePm
  iterate 40 (try any_goals first
    | with_reducible assumption | ((fail_if_success (conv => arg 2; fun)); fail_if_no_progress extract_lets +onlyGivenNames y)
    | with_reducible apply State.setFn_keeps | with_reducible apply State.flushCounted_keeps | split)

theorem State.fenceRead_keeps {a s : State} {f : Nat} (h : Keeps a s) : Keeps a (State.fenceRead s f) := by
  unfold State.fenceRead
  iterate 40 (try any_goals first
    | with_reducible assumption | with_reducible apply State.respond_ok | with_reducible apply Keeps.ite
    | (refine Keeps.lit ?_ rfl rfl rfl rfl rfl rfl rfl rfl rfl rfl rfl))

theorem State.entEmpty_keeps {a s : State} {f : Nat} {reason : Nat} (h : Keeps a s) : Keeps a (State.entEmpty s f reason) := by
  unfold State.entEmpty
  iterate 40 (try any_goals first | with_reducible assumption | with_reducible apply State.setFn_keeps)

theorem State.entWordRead_keeps {a s : State} {f : Nat} (h : Keeps a s) : Keeps a (State.entWordRead s f) := by
  unfold State.entWordRead
  iterate 40 (try any_goals first
    | with_reducible assumption | with_reducible apply State.entRead_keeps | with_reducible apply State.respond_ok
    | with_reducible apply State.entEmpty_keeps | with_reducible apply Keeps.ite | (refine Keeps.lit ?_ rfl rfl rfl rfl rfl rfl rfl rfl rfl rfl rfl))

theorem State.entWordEnd_keeps {a s : State} {reason : Nat} (h : Keeps a s) : Keeps a (State.entWordEnd s reason) := by
  unfold State.entWordEnd
  iterate 40 (try any_goals first
    | with_reducible assumption | with_reducible apply State.endStall_ok | with_reducible apply State.entEmpty_keeps | split)

theorem State.deepRequest_keeps {a s : State} (h : Keeps a s) : Keeps a (State.deepRequest s) := by
  unfold State.deepRequest
  iterate 40 (try any_goals first
    | with_reducible assumption | intro _ | with_reducible apply State.flushCounted_keeps | with_reducible apply Keeps.ite
    | with_reducible apply Keeps.foldl | (refine Keeps.lit ?_ rfl rfl rfl rfl rfl rfl rfl rfl rfl rfl rfl))

theorem wf_off {x : Ent} (h : Tbl.wf (fun _ => ({} : Src)) x.src = true) : Tbl.wf (fun _ => ({} : Src)) x.off.src = true := by
  refine wf_filterMap _ h ?_
  intro e _ y hy
  dsimp only at hy
  split at hy
  · cases hy
  · next hn => cases hy; exact ⟨rfl, hn⟩

theorem wf_tests {t : Tbl Eng} (h : Tbl.wf (fun _ => ({} : Eng)) t = true) :
    Tbl.wf (fun _ => ({} : Eng)) ((t.filter (fun e => e.2.test)).map (fun e => (e.1, ({ test := true } : Eng)))) = true :=
  wf_map (fun _ => ({ test := true } : Eng)) (wf_filter _ h) (fun _ _ => by decide)

theorem State.wipe_keeps {a s : State} (h : Keeps a s) : Keeps a s.wipe := by
  unfold State.wipe
  refine ⟨h.queue, fun ha => ?_⟩
  obtain ⟨⟨c0, c1, c2, c3, c4, c5, c6, c7, c8, c9, c10, c11⟩, k1, k2, k3, k4, k5, k6⟩ := h.sound ha
  refine ⟨⟨c0, c1, c2, wf_tests c3, wf_tests c4, wf_filterMap _ c5 ?_, c6, wf_off c7, c8, c9, c10, c11⟩, k1, k2, k3, k4, k5, k6⟩
  intro e _ y hy
  dsimp only at hy
  split at hy
  · cases hy
  · next hn => cases hy; exact ⟨rfl, hn⟩

theorem State.deepDrained_keeps {a s : State} (h : Keeps a s) : Keeps a (State.deepDrained s) := by
  unfold State.deepDrained
  iterate 40 (try any_goals first
    | with_reducible assumption | with_reducible apply State.flushLines_keeps | with_reducible apply State.allOff_keeps
    | with_reducible apply State.wipe_keeps | with_reducible apply Keeps.ite | (refine Keeps.lit ?_ rfl rfl rfl rfl rfl rfl rfl rfl rfl rfl rfl))

theorem execFunctionResetDrained_keeps {a s : State} {f : Nat} (h : Keeps a s) : KeepsR a (execFunctionResetDrained f s) := by
  unfold execFunctionResetDrained
  iterate 40 (try any_goals first
    | with_reducible assumption | with_reducible apply State.done_keeps | with_reducible apply State.drainReset_keeps
    | with_reducible apply Keeps.ite)

theorem execDeepSleepDrained_keeps {a s : State} (h : Keeps a s) : KeepsR a (execDeepSleepDrained s) := by
  unfold execDeepSleepDrained
  iterate 40 (try any_goals first
    | with_reducible assumption | with_reducible apply State.done_keeps | with_reducible apply State.deepDrained_keeps)

-- Machine/Time.lean --------------------------------------------------------------------------------------------------------------------

/-- No entry of a canonical table holds the default. -/
theorem wf_ne {α : Type} [DecidableEq α] {d : Nat → α} {t : Tbl α} (h : Tbl.wf d t = true) : ∀ e ∈ t, e.2 ≠ d e.1 := by
  induction t with
  | nil => intro e he; cases he
  | cons x t ih =>
    simp only [Tbl.wf, Bool.and_eq_true, decide_eq_true_eq] at h
    intro e he
    rcases List.mem_cons.1 he with rfl | he
    · exact h.1.1
    · exact ih h.2 e he

theorem State.tickTimers_keeps {a s : State} (h : Keeps a s) : Keeps a s.tickTimers := by
  unfold State.tickTimers
  refine ⟨h.queue, fun ha => ?_⟩
  obtain ⟨⟨c0, c1, c2, c3, c4, c5, c6, c7, c8, c9, c10, c11⟩, k1, k2, k3, k4, k5, k6⟩ := h.sound ha
  refine ⟨⟨c0, c1, wf_map (fun e => ({ e.2 with timer := e.2.timer.map (· + 1) } : Ring)) c2 ?_, c3, c4, c5, c6, c7, c8, c9, c10, c11⟩, k1, k2, k3, k4, k5, k6⟩
  intro e he
  obtain ⟨i, x⟩ := e
  have hx := wf_ne c2 _ he
  intro k
  apply hx
  cases x
  simp only [Ring.mk.injEq, Option.map_eq_none_iff] at k ⊢
  exact k

theorem State.moderate_keeps {a s : State} (h : Keeps a s) : Keeps a (State.moderate s) := by
  unfold State.moderate
  iterate 40 (try any_goals first
    | with_reducible assumption | intro _ | with_reducible apply State.ringDue_keeps | with_reducible apply Keeps.ite
    | with_reducible apply Keeps.foldl)

theorem aonTick_keeps {a s : State} (h : Keeps a s) : Keeps a (aonTick s) := by
  unfold aonTick
  iterate 40 (try any_goals first
    | with_reducible assumption | with_reducible apply State.settle_keeps | with_reducible apply State.moderate_keeps
    | with_reducible apply State.tickTimers_keeps | with_reducible apply State.updateSync_keeps | with_reducible apply Keeps.ite
    | (refine Keeps.lit ?_ rfl rfl rfl rfl rfl rfl rfl rfl rfl rfl rfl))

theorem State.timeMiss_keeps {a s : State} (h : Keeps a s) : Keeps a (State.timeMiss s) := by
  unfold State.timeMiss
  iterate 40 (try any_goals first
    | with_reducible assumption | with_reducible apply State.capture_keeps | with_reducible apply State.bumpSat_keeps | with_reducible apply Keeps.ite
    | (refine Keeps.lit ?_ rfl rfl rfl rfl rfl rfl rfl rfl rfl rfl rfl))

theorem State.moveCount_keeps {a s : State} {c : Nat} {m : Nat} (h : Keeps a s) : Keeps a (State.moveCount s c m) := by
  unfold State.moveCount
  iterate 40 (try any_goals first
    | with_reducible assumption | with_reducible apply Keeps.ite | (refine Keeps.lit ?_ rfl rfl rfl rfl rfl rfl rfl rfl rfl rfl rfl))

theorem State.timeAlign_keeps {a s : State} {past : Nat} (h : Keeps a s) : Keeps a (State.timeAlign s past) := by
  unfold State.timeAlign
  iterate 40 (try any_goals first
    | with_reducible assumption | with_reducible apply State.timeMiss_keeps | with_reducible apply State.moveCount_keeps
    | with_reducible apply State.setReg_keeps | with_reducible apply Keeps.ite | (refine Keeps.lit ?_ rfl rfl rfl rfl rfl rfl rfl rfl rfl rfl rfl))

theorem State.correct_keeps {a s : State} {d : Int} (h : Keeps a s) : Keeps a (State.correct s d) := by
  unfold State.correct
  iterate 40 (try any_goals first
    | with_reducible assumption | with_reducible apply State.bumpSat_keeps | with_reducible apply Keeps.ite
    | (refine Keeps.lit ?_ rfl rfl rfl rfl rfl rfl rfl rfl rfl rfl rfl))

theorem State.wakeCorrect_keeps {a s : State} {rest : Int} (h : Keeps a s) : Keeps a (State.wakeCorrect s rest) := by
  unfold State.wakeCorrect
  iterate 40 (try any_goals first
    | with_reducible assumption | with_reducible apply Keeps.ite | (refine Keeps.lit ?_ rfl rfl rfl rfl rfl rfl rfl rfl rfl rfl rfl))

theorem State.timeLoad_keeps {a s : State} {sec : Nat} {ns : Nat} (h : Keeps a s) : Keeps a (State.timeLoad s sec ns) := by
  unfold State.timeLoad
  iterate 40 (try any_goals first
    | with_reducible assumption | with_reducible apply State.capture_keeps | with_reducible apply State.bumpSat_keeps
    | with_reducible apply State.bump_keeps | with_reducible apply State.setReg_keeps | with_reducible apply State.wakeCorrect_keeps
    | with_reducible apply State.correct_keeps | with_reducible apply State.updateSync_keeps | split
    | (refine Keeps.lit ?_ rfl rfl rfl rfl rfl rfl rfl rfl rfl rfl rfl))

theorem State.readNow_keeps {a s : State} (h : Keeps a s) : Keeps a (State.readNow s) := by
  unfold State.readNow
  iterate 40 (try any_goals first | with_reducible assumption | with_reducible apply State.respond_ok | with_reducible apply State.setReg_keeps)

theorem execTimeAlign_keeps {a s : State} {past : Nat} (h : Keeps a s) : KeepsR a (execTimeAlign past s) := by
  unfold execTimeAlign
  iterate 40 (try any_goals first
    | with_reducible assumption | with_reducible apply State.done_keeps | with_reducible apply State.timeAlign_keeps | with_reducible apply Keeps.ite)

theorem execTimeLoad_keeps {a s : State} {sec : BitVec 48} {ns : BitVec 32} (h : Keeps a s) : KeepsR a (execTimeLoad sec ns s) := by
  unfold execTimeLoad
  iterate 40 (try any_goals first
    | with_reducible assumption | ((fail_if_success (conv => arg 2; fun)); fail_if_no_progress extract_lets +onlyGivenNames y)
    | with_reducible apply State.done_keeps | with_reducible apply State.timeLoad_keeps | with_reducible apply Keeps.ite)

theorem execTimeMiss_keeps {a s : State} (h : Keeps a s) : KeepsR a (execTimeMiss s) := by
  unfold execTimeMiss
  iterate 40 (try any_goals first | with_reducible assumption | with_reducible apply State.done_keeps | with_reducible apply State.timeMiss_keeps)

theorem execTimeSync_keeps {a s : State} (h : Keeps a s) : KeepsR a (execTimeSync s) := by
  unfold execTimeSync
  iterate 40 (try any_goals first
    | with_reducible assumption | with_reducible apply State.done_keeps | with_reducible apply State.updateSync_keeps
    | (refine Keeps.lit ?_ rfl rfl rfl rfl rfl rfl rfl rfl rfl rfl rfl))

theorem State.slowingEnd_keeps {a s : State} (h : Keeps a s) : Keeps a (State.slowingEnd s) := by
  unfold State.slowingEnd
  iterate 40 (try any_goals first
    | with_reducible assumption | with_reducible apply State.updateSync_keeps | with_reducible apply Keeps.ite
    | (refine Keeps.lit ?_ rfl rfl rfl rfl rfl rfl rfl rfl rfl rfl rfl))

theorem execSlowingEnd_keeps {a s : State} (h : Keeps a s) : KeepsR a (execSlowingEnd s) := by
  unfold execSlowingEnd
  iterate 40 (try any_goals first
    | with_reducible assumption | with_reducible apply State.done_keeps | with_reducible apply State.slowingEnd_keeps)

theorem execTimeNowRead_keeps {a s : State} (h : Keeps a s) : KeepsR a (execTimeNowRead s) := by
  unfold execTimeNowRead
  iterate 40 (try any_goals first
    | with_reducible assumption | with_reducible apply State.done_keeps | with_reducible apply State.present_keeps
    | with_reducible apply State.readNow_keeps | with_reducible apply State.refuse_keeps | with_reducible apply Keeps.ite)

-- Machine/Start.lean -------------------------------------------------------------------------------------------------------------------

theorem State.galExtend_keeps {a s : State} {i : Nat} {x : Bytes} (h : Keeps a s) : Keeps a (s.galExtend i x) := by
  unfold State.galExtend
  refine ⟨h.queue, fun ha => ?_⟩
  obtain ⟨⟨c0, c1, c2, c3, c4, c5, c6, c7, c8, c9, c10, c11⟩, k1, k2, k3, k4, k5, k6⟩ := h.sound ha
  exact ⟨⟨c0, c1, c2, c3, c4, c5, c6, c7, c8, c9, wf_tset _ _ c10, wf_tset _ _ c11⟩, k1, k2, k3, k4, k5, k6⟩

theorem State.tlyCut_keeps {a s : State} (h : Keeps a s) : Keeps a s.tlyCut := by
  unfold State.tlyCut
  split
  · exact h
  · next w _ =>
    refine ⟨h.queue, fun ha => ?_⟩
    obtain ⟨⟨c0, c1, c2, c3, c4, c5, c6, c7, c8, c9, c10, c11⟩, k1, k2, k3, k4, k5, k6⟩ := h.sound ha
    refine ⟨⟨c0, c1, c2, c3, c4, c5, c6, c7, c8, ?_, c10, c11⟩, k1, k2, k3, k4, k5, k6⟩
    dsimp only
    split
    · exact wf_tset _ _ c9
    · exact c9

theorem State.blkReset_keeps {a s : State} (h : Keeps a s) : Keeps a s.blkReset := by
  have ht := State.tlyCut_keeps h
  have ho := State.allOff_keeps ht
  unfold State.blkReset
  refine ⟨h.queue, fun ha => ?_⟩
  obtain ⟨⟨c0, c1, c2, c3, c4, c5, c6, c7, c8, c9, c10, c11⟩, k1, k2, k3, k4, k5, k6⟩ := h.sound ha
  have st := ht.sound ha
  have so := ho.sound ha
  refine ⟨⟨wf_filter _ c0, rfl, rfl, rfl, rfl, rfl, so.canonical.islands, wf_filterMap _ c7 ?_, rfl, st.canonical.cells, rfl, rfl⟩, Nat.zero_le _,
    fun _ => rfl, ⟨by simp, by simp⟩, ⟨by simp, by simp⟩, Nat.zero_le _, by simpa using st.queue⟩
  intro e _ y hy
  split at hy
  · cases hy
  · next hn =>
    cases hy
    refine ⟨rfl, fun k => hn ?_⟩
    simpa using congrArg Src.fails k

theorem State.porReset_keeps {a s : State} (h : Keeps a s) : Keeps a s.porReset := by
  have ht := State.tlyCut_keeps h
  have ho := State.allOff_keeps ht
  unfold State.porReset
  refine ⟨h.queue, fun ha => ?_⟩
  have st := ht.sound ha
  have so := ho.sound ha
  exact ⟨⟨rfl, rfl, rfl, rfl, rfl, rfl, so.canonical.islands, rfl, rfl, st.canonical.cells, rfl, rfl⟩, Nat.zero_le _,
    fun _ => rfl, ⟨by simp, by simp⟩, ⟨by simp, by simp⟩, Nat.zero_le _, Nat.zero_le _⟩

theorem State.applySetting_keeps {a s : State} {b : Bytes} (h : Keeps a s) : Keeps a (State.applySetting s b) := by
  unfold State.applySetting
  iterate 40 (try any_goals first | with_reducible assumption | with_reducible apply State.setReg_keeps | split)

theorem State.loadImage_keeps {a s : State} {img : Nat} (h : Keeps a s) : Keeps a (s.loadImage img) := by
  unfold State.loadImage
  dsimp only
  refine State.islWake_keeps (State.klNeed_keeps (State.klNeed_keeps ?_))
  exact Keeps.lit2 h rfl rfl rfl rfl rfl rfl rfl id id (fun k => by simpa using k) id

theorem State.imageFail_keeps {a s : State} {cause : Nat} (h : Keeps a s) : Keeps a (State.imageFail s cause) := by
  unfold State.imageFail
  iterate 40 (try any_goals first
    | with_reducible assumption | with_reducible apply State.loadImage_keeps | with_reducible apply State.capture_keeps
    | with_reducible apply Keeps.ite | (refine Keeps.lit ?_ rfl rfl rfl rfl rfl rfl rfl rfl rfl rfl rfl))

theorem State.toVerify_keeps {a s : State} (h : Keeps a s) : Keeps a (State.toVerify s) := by
  unfold State.toVerify
  iterate 40 (try any_goals first
    | with_reducible assumption | with_reducible apply State.islWake_keeps | with_reducible apply Keeps.ite
    | (refine Keeps.lit ?_ rfl rfl rfl rfl rfl rfl rfl rfl rfl rfl rfl))

theorem State.release_keeps {a s : State} {b : Bytes} (h : Keeps a s) : Keeps a (State.release s b) := by
  unfold State.release
  iterate 40 (try any_goals first
    | with_reducible assumption | with_reducible apply State.capture_keeps | with_reducible apply State.applySetting_keeps
    | with_reducible apply State.galExtend_keeps | with_reducible apply State.tlyWrite_keeps | with_reducible apply State.enterWarmup_keeps
    | with_reducible apply State.usable_keeps | with_reducible apply Keeps.ite | with_reducible apply Keeps.foldl
    | (refine Keeps.lit ?_ rfl rfl rfl rfl rfl rfl rfl rfl rfl rfl rfl))

theorem State.initStep_keeps {a s : State} (h : Keeps a s) : Keeps a (State.initStep s) := by
  unfold State.initStep
  iterate 40 (try any_goals first
    | with_reducible assumption | with_reducible apply State.loadImage_keeps | with_reducible apply Keeps.ite
    | (refine Keeps.lit ?_ rfl rfl rfl rfl rfl rfl rfl rfl rfl rfl rfl))

theorem State.init_keeps {a s : State} (h : Keeps a s) : Keeps a (State.init s) := by
  unfold State.init
  iterate 40 (try any_goals first
    | with_reducible assumption | with_reducible apply State.islWake_keeps | (refine Keeps.lit ?_ rfl rfl rfl rfl rfl rfl rfl rfl rfl rfl rfl))

theorem State.initRead_keeps {a s : State} (h : Keeps a s) : Keeps a (State.initRead s) := by
  unfold State.initRead
  iterate 40 (try any_goals first
    | with_reducible assumption | intro _ | ((fail_if_success (conv => arg 2; fun)); fail_if_no_progress extract_lets +onlyGivenNames y)
    | with_reducible apply State.tlyScanOne_keeps | with_reducible apply State.setAgeU_keeps | with_reducible apply State.capture_keeps
    | with_reducible apply State.initStep_keeps | with_reducible apply Keeps.foldl | split
    | (refine Keeps.lit ?_ rfl rfl rfl rfl rfl rfl rfl rfl rfl rfl rfl))

theorem State.initAdvance_keeps {a s : State} (h : Keeps a s) : Keeps a (State.initAdvance s) := by
  unfold State.initAdvance
  iterate 40 (try any_goals first | with_reducible assumption | with_reducible apply State.initRead_keeps | with_reducible apply Keeps.ite)

theorem State.coldStart_keeps {a s : State} {tst : Bool} (h : Keeps a s) : Keeps a (State.coldStart s tst) := by
  unfold State.coldStart
  iterate 40 (try any_goals first
    | with_reducible assumption | with_reducible apply State.wipe_keeps | with_reducible apply State.init_keeps | with_reducible apply Keeps.ite
    | (refine Keeps.lit ?_ rfl rfl rfl rfl rfl rfl rfl rfl rfl rfl rfl))

theorem State.primerBytes_keeps {a s : State} {lo : Byte} {hi : Byte} (h : Keeps a s) : Keeps a (State.primerBytes s lo hi) := by
  unfold State.primerBytes
  iterate 40 (try any_goals first
    | with_reducible assumption | ((fail_if_success (conv => arg 2; fun)); fail_if_no_progress extract_lets +onlyGivenNames y)
    | with_reducible apply State.imageFail_keeps | with_reducible apply State.toVerify_keeps | split
    | (refine Keeps.lit ?_ rfl rfl rfl rfl rfl rfl rfl rfl rfl rfl rfl))

theorem State.imageVerified_keeps {a s : State} {agree : Bool} (h : Keeps a s) : Keeps a (State.imageVerified s agree) := by
  unfold State.imageVerified
  iterate 40 (try any_goals first
    | with_reducible assumption | ((fail_if_success (conv => arg 2; fun)); fail_if_no_progress extract_lets +onlyGivenNames y)
    | with_reducible apply State.imageFail_keeps | with_reducible apply State.release_keeps | with_reducible apply State.capture_keeps
    | with_reducible apply State.compareFailed_keeps | with_reducible apply State.retireUnit_keeps | split
    | (refine Keeps.lit ?_ rfl rfl rfl rfl rfl rfl rfl rfl rfl rfl rfl))

theorem State.bootKey_keeps {a s : State} {use : Nat} {key : Bytes} (h : Keeps a s) : Keeps a (State.bootKey s use key) := by
  unfold State.bootKey
  iterate 40 (try any_goals first
    | with_reducible assumption | with_reducible apply State.imageFail_keeps | with_reducible apply State.toVerify_keeps
    | with_reducible apply Keeps.ite | (refine Keeps.lit ?_ rfl rfl rfl rfl rfl rfl rfl rfl rfl rfl rfl))

theorem execPorAssert_keeps {a s : State} (h : Keeps a s) : KeepsR a (execPorAssert s) := by
  unfold execPorAssert
  iterate 40 (try any_goals first | with_reducible assumption | with_reducible apply State.porReset_keeps | with_reducible apply KeepsR.mkNext)

theorem execPorRelease_keeps {a s : State} (h : Keeps a s) : KeepsR a (execPorRelease s) := by
  unfold execPorRelease
  iterate 40 (try any_goals first
    | with_reducible assumption | with_reducible apply KeepsR.mkNext | (refine Keeps.lit ?_ rfl rfl rfl rfl rfl rfl rfl rfl rfl rfl rfl))

theorem execBlkRstAssert_keeps {a s : State} (h : Keeps a s) : KeepsR a (execBlkRstAssert s) := by
  unfold execBlkRstAssert
  iterate 40 (try any_goals first | with_reducible assumption | with_reducible apply State.blkReset_keeps | with_reducible apply KeepsR.mkNext)

theorem execColdStart_keeps {a s : State} {tst : Bool} (h : Keeps a s) : KeepsR a (execColdStart tst s) := by
  unfold execColdStart
  iterate 40 (try any_goals first | with_reducible assumption | with_reducible apply State.done_keeps | with_reducible apply State.coldStart_keeps)

theorem execTstModeChange_keeps {a s : State} {v : Bool} (h : Keeps a s) : KeepsR a (execTstModeChange v s) := by
  unfold execTstModeChange
  iterate 40 (try any_goals first
    | with_reducible assumption | with_reducible apply State.done_keeps | with_reducible apply State.capture_keeps | with_reducible apply Keeps.ite
    | (refine Keeps.lit ?_ rfl rfl rfl rfl rfl rfl rfl rfl rfl rfl rfl))

theorem execPrimerData_keeps {a s : State} {lo : Byte} {hi : Byte} (h : Keeps a s) : KeepsR a (execPrimerData lo hi s) := by
  unfold execPrimerData
  iterate 40 (try any_goals first
    | with_reducible assumption | with_reducible apply State.done_keeps | with_reducible apply State.primerBytes_keeps)

theorem execNvmError_keeps {a s : State} (h : Keeps a s) : KeepsR a (execNvmError s) := by
  unfold execNvmError
  iterate 40 (try any_goals first
    | with_reducible assumption | with_reducible apply State.done_keeps | with_reducible apply State.imageFail_keeps | with_reducible apply Keeps.ite)

theorem execImageVerified_keeps {a s : State} {agree : Bool} (h : Keeps a s) : KeepsR a (execImageVerified agree s) := by
  unfold execImageVerified
  iterate 40 (try any_goals first
    | with_reducible assumption | with_reducible apply State.done_keeps | with_reducible apply State.imageVerified_keeps)

-- Machine/Fabric.lean ------------------------------------------------------------------------------------------------------------------

theorem State.dropRead_keeps {a s : State} {p : Fin 2} {n : Nat} (h : Keeps a s) : Keeps a (s.dropRead p n) :=
  Keeps.fab h (fun k => k.sublist List.filter_sublist) id

theorem State.dropWrite_keeps {a s : State} {p : Fin 2} {n : Nat} (h : Keeps a s) : Keeps a (s.dropWrite p n) :=
  Keeps.fab h id (fun k => k.sublist List.filter_sublist)

theorem State.haltAccess_keeps {a s : State} {id : Nat} {t : Txn} {addr : Nat} (h : Keeps a s) : Keeps a (State.haltAccess s id t addr) := by
  unfold State.haltAccess
  iterate 40 (try any_goals first
    | with_reducible assumption | with_reducible apply State.haltReq_keeps | with_reducible apply State.halt_keeps | split)

theorem State.errorAgain_keeps {a s : State} {t : Txn} (h : Keeps a s) : Keeps a (State.errorAgain s t) := by
  unfold State.errorAgain
  iterate 40 (try any_goals first
    | with_reducible assumption | with_reducible apply State.capture_keeps | with_reducible apply State.haltAccess_keeps
    | with_reducible apply State.halt_keeps | split | (refine Keeps.lit ?_ rfl rfl rfl rfl rfl rfl rfl rfl rfl rfl rfl))

theorem State.accessError_keeps {a s : State} {t : Txn} {write : Bool} {inj : Bool} (h : Keeps a s) : Keeps a (State.accessError s t write inj) := by
  unfold State.accessError
  iterate 40 (try any_goals first
    | with_reducible assumption
    | ((fail_if_success (conv => arg 2; fun)); ((fail_if_no_progress extract_lets +onlyGivenNames y); have hy : Keeps a y := ?_; (try clear_value y); rotate_left; try unfold y))
    | with_reducible apply State.capture_keeps | with_reducible apply State.errorAgain_keeps | split
    | (refine Keeps.lit ?_ rfl rfl rfl rfl rfl rfl rfl rfl rfl rfl rfl))

theorem State.deliver_keeps {a s : State} {t : Txn} {b : Bytes} (h : Keeps a s) : Keeps a (State.deliver s t b) := by
  unfold State.deliver
  iterate 40 (try any_goals first
    | with_reducible assumption | with_reducible apply State.fetchIn_keeps | with_reducible apply State.setReq_keeps | split)

theorem State.readReturn_keeps {a s : State} {p : Fin 2} {n : Nat} {bs : List Sys2Proof.ReadBeat} (h : Keeps a s) :
    Keeps a (State.readReturn s p n bs) := by
  unfold State.readReturn
  iterate 40 (try any_goals first
    | with_reducible assumption | intro _
    | ((fail_if_success (conv => arg 2; fun)); ((fail_if_no_progress extract_lets +onlyGivenNames y); have hy : Keeps a y := ?_; (try clear_value y); rotate_left; try unfold y))
    | ((fail_if_success (conv => arg 2; fun)); fail_if_no_progress extract_lets +onlyGivenNames y) | with_reducible apply State.dropRead_keeps
    | with_reducible apply State.portFault_keeps | with_reducible apply State.injFired_keeps | with_reducible apply State.capture_keeps
    | with_reducible apply State.deliver_keeps | with_reducible apply State.accessError_keeps | with_reducible apply Keeps.foldl | split)

theorem State.written_keeps {a s : State} {t : Txn} (h : Keeps a s) : Keeps a (State.written s t) := by
  unfold State.written
  iterate 40 (try any_goals first
    | with_reducible assumption | with_reducible apply State.completionAck_keeps | with_reducible apply State.reservationDurable_keeps | split
    | (refine Keeps.lit ?_ rfl rfl rfl rfl rfl rfl rfl rfl rfl rfl rfl))

theorem State.writeReturn_keeps {a s : State} {p : Fin 2} {n : Nat} {stat : BitVec 2} (h : Keeps a s) : Keeps a (State.writeReturn s p n stat) := by
  unfold State.writeReturn
  iterate 40 (try any_goals first
    | with_reducible assumption | with_reducible apply State.dropWrite_keeps | with_reducible apply State.portFault_keeps
    | with_reducible apply State.written_keeps | with_reducible apply State.accessError_keeps | split)

theorem State.fabTimeout_keeps {a s : State} {p : Fin 2} {write : Bool} {n : Nat} (h : Keeps a s) : Keeps a (State.fabTimeout s p write n) := by
  unfold State.fabTimeout
  iterate 40 (try any_goals first | with_reducible assumption | with_reducible apply State.portFault_keeps | with_reducible apply Keeps.ite)

theorem State.klRefuse_keeps {a s : State} {k : KlReq} (h : Keeps a s) : Keeps a (State.klRefuse s k) := by
  unfold State.klRefuse
  iterate 40 (try any_goals first
    | with_reducible assumption | with_reducible apply State.klRefused_keeps | with_reducible apply State.imageFail_keeps
    | with_reducible apply State.keyRefused_keeps | with_reducible apply Keeps.ite)

theorem State.klKey_keeps {a s : State} {k : KlReq} {key : Bytes} {attr : Nat} (h : Keeps a s) : Keeps a (State.klKey s k key attr) := by
  unfold State.klKey
  iterate 40 (try any_goals first
    | with_reducible assumption | with_reducible apply State.bootKey_keeps | with_reducible apply State.keyRefused_keeps
    | with_reducible apply State.addKey_keeps | with_reducible apply Keeps.ite)

theorem State.klWord_keeps {a s : State} {k : KlReq} {i : Nat} {lo : Sys2Proof.KlBeat} {hi : Sys2Proof.KlBeat} {strike : Bool} (h : Keeps a s) :
    KeepsP a (State.klWord s k i lo hi strike) := by
  unfold State.klWord
  iterate 40 (try any_goals first
    | with_reducible assumption | with_reducible apply State.injFired_keeps | with_reducible apply State.capture_keeps | split
    | with_reducible apply KeepsP.pair)

theorem State.klRepeat_keeps {a s : State} {k : KlReq} (h : Keeps a s) : Keeps a (State.klRepeat s k) := by
  unfold State.klRepeat
  iterate 40 (try any_goals first | with_reducible assumption | (refine Keeps.lit ?_ rfl rfl rfl rfl rfl rfl rfl rfl rfl rfl rfl))

theorem State.klBeats_keeps {a s : State} {k : KlReq} {x1 : Sys2Proof.KlBeat} {b : Sys2Proof.KlBeat} {c : Sys2Proof.KlBeat}
    {d : Sys2Proof.KlBeat} (h : Keeps a s) :
    Keeps a (State.klBeats s k x1 b c d) := by
  unfold State.klBeats
  iterate 40 (try any_goals first
    | with_reducible assumption | intro _ | with_reducible refine (State.klWord_keeps ?_).eq (by assumption)
    | with_reducible apply State.klRefuse_keeps | with_reducible apply State.klKey_keeps | with_reducible apply State.recover_keeps
    | with_reducible apply State.klRepeat_keeps | split)

theorem State.klAnswer_keeps {a s : State} {bs : List KlBeat} (h : Keeps a s) : Keeps a (s.klAnswer bs) := by
  unfold State.klAnswer
  refine Keeps.ite h ?_
  split
  · exact h
  · next k t e =>
    have hs : Keeps a { s with kl := { s.kl with out := t } } := Keeps.kl h (fun n => by
      rw [e] at n
      simp only [List.length_cons] at n
      show t.length ≤ 4
      omega)
    refine Keeps.ite hs ?_
    split
    · exact State.klBeats_keeps hs
    · exact State.klRefuse_keeps hs
    · exact State.recover_keeps (State.capture_keeps hs) (fun _ hv => State.klRefuse_keeps hv)

theorem State.klTimeout_keeps {a s : State} (h : Keeps a s) : Keeps a s.klTimeout := by
  unfold State.klTimeout
  refine Keeps.ite h ?_
  split
  · exact h
  · exact State.recover_keeps (State.capture_keeps (State.bumpSat_keeps (Keeps.kl h (fun n => by rw [List.length_map]; exact n))))
      (fun _ hv => State.klRefuse_keeps hv)

theorem State.idleTimeout_keeps {a s : State} {i : Nat} (h : Keeps a s) : Keeps a (State.idleTimeout s i) := by
  unfold State.idleTimeout
  iterate 40 (try any_goals first
    | with_reducible assumption | with_reducible apply State.flushLines_keeps | with_reducible apply State.islDown_keeps
    | with_reducible apply Keeps.ite)

theorem State.retLate_keeps {a s : State} {i : Nat} (h : Keeps a s) : Keeps a (State.retLate s i) := by
  unfold State.retLate
  iterate 40 (try any_goals first
    | with_reducible assumption | intro _ | ((fail_if_success (conv => arg 2; fun)); fail_if_no_progress extract_lets +onlyGivenNames y)
    | with_reducible apply State.recover_keeps | with_reducible apply State.capture_keeps | with_reducible apply State.islLose_keeps
    | with_reducible apply State.setIsl_keeps | with_reducible apply State.islReady_keeps | split)

theorem State.vstepEcho_keeps {a s : State} {v : Nat} (h : Keeps a s) : Keeps a (State.vstepEcho s v) := by
  unfold State.vstepEcho
  iterate 40 (try any_goals first
    | with_reducible assumption | ((fail_if_success (conv => arg 2; fun)); fail_if_no_progress extract_lets +onlyGivenNames y)
    | with_reducible apply State.vstepTaken_keeps | with_reducible apply State.initStep_keeps | split
    | (refine Keeps.lit ?_ rfl rfl rfl rfl rfl rfl rfl rfl rfl rfl rfl))

theorem State.vstepLate_keeps {a s : State} (h : Keeps a s) : Keeps a (State.vstepLate s) := by
  unfold State.vstepLate
  iterate 40 (try any_goals first
    | with_reducible assumption | intro _ | with_reducible apply State.recover_keeps | with_reducible apply State.capture_keeps
    | with_reducible apply State.vplanWrite_keeps | with_reducible apply State.marginRetire_keeps | with_reducible apply State.loadImage_keeps | split
    | (refine Keeps.lit ?_ rfl rfl rfl rfl rfl rfl rfl rfl rfl rfl rfl))

theorem execFabricReadComplete_keeps {a s : State} {port : Fin 2} {txn : Nat} {beats : List Sys2Proof.ReadBeat} (h : Keeps a s) :
    KeepsR a (execFabricReadComplete port txn beats s) := by
  unfold execFabricReadComplete
  iterate 40 (try any_goals first
    | with_reducible assumption | with_reducible apply State.done_keeps | with_reducible apply State.readReturn_keeps)

theorem execFabricWriteAck_keeps {a s : State} {port : Fin 2} {txn : Nat} {stat : BitVec 2} (h : Keeps a s) :
    KeepsR a (execFabricWriteAck port txn stat s) := by
  unfold execFabricWriteAck
  iterate 40 (try any_goals first
    | with_reducible assumption | with_reducible apply State.done_keeps | with_reducible apply State.writeReturn_keeps)

theorem execFabricTimeout_keeps {a s : State} {port : Fin 2} {write : Bool} {txn : Nat} (h : Keeps a s) :
    KeepsR a (execFabricTimeout port write txn s) := by
  unfold execFabricTimeout
  iterate 40 (try any_goals first
    | with_reducible assumption | with_reducible apply State.done_keeps | with_reducible apply State.fabTimeout_keeps)

theorem execKeyLiftResponse_keeps {a s : State} {beats : List Sys2Proof.KlBeat} (h : Keeps a s) : KeepsR a (execKeyLiftResponse beats s) := by
  unfold execKeyLiftResponse
  iterate 40 (try any_goals first | with_reducible assumption | with_reducible apply State.done_keeps | with_reducible apply State.klAnswer_keeps)

theorem execKlTimeout_keeps {a s : State} (h : Keeps a s) : KeepsR a (execKlTimeout s) := by
  unfold execKlTimeout
  iterate 40 (try any_goals first | with_reducible assumption | with_reducible apply State.done_keeps | with_reducible apply State.klTimeout_keeps)

theorem execRegisterPortWake_keeps {a s : State} (h : Keeps a s) : KeepsR a (execRegisterPortWake s) := by
  unfold execRegisterPortWake
  iterate 40 (try any_goals first | with_reducible assumption | with_reducible apply State.done_keeps | with_reducible apply State.present_keeps)

theorem execClockAck_keeps {a s : State} {d : Sys2Proof.ClkDomain} {v : Bool} (h : Keeps a s) : KeepsR a (execClockAck d v s) := by
  unfold execClockAck
  iterate 40 (try any_goals first
    | with_reducible assumption | with_reducible apply State.done_keeps | with_reducible apply State.initAdvance_keeps
    | with_reducible apply State.clockAck_keeps)

theorem execClockAckLoss_keeps {a s : State} {d : Sys2Proof.ClkDomain} (h : Keeps a s) : KeepsR a (execClockAckLoss d s) := by
  unfold execClockAckLoss
  iterate 40 (try any_goals first | with_reducible assumption | with_reducible apply State.done_keeps | with_reducible apply State.clockAck_keeps)

theorem execPowerAck_keeps {a s : State} {i : Sys2Proof.Island} {v : Bool} (h : Keeps a s) : KeepsR a (execPowerAck i v s) := by
  unfold execPowerAck
  iterate 40 (try any_goals first
    | with_reducible assumption | with_reducible apply State.done_keeps | with_reducible apply State.initAdvance_keeps
    | with_reducible apply State.powerAck_keeps)

theorem execPowerAckLoss_keeps {a s : State} {i : Sys2Proof.Island} (h : Keeps a s) : KeepsR a (execPowerAckLoss i s) := by
  unfold execPowerAckLoss
  iterate 40 (try any_goals first | with_reducible assumption | with_reducible apply State.done_keeps | with_reducible apply State.powerAck_keeps)

theorem execRetAck_keeps {a s : State} {i : Sys2Proof.Island} (h : Keeps a s) : KeepsR a (execRetAck i s) := by
  unfold execRetAck
  iterate 40 (try any_goals first | with_reducible assumption | with_reducible apply State.done_keeps | with_reducible apply State.retLate_keeps)

theorem execIslandIdleTimeout_keeps {a s : State} {i : Sys2Proof.Island} (h : Keeps a s) : KeepsR a (execIslandIdleTimeout i s) := by
  unfold execIslandIdleTimeout
  iterate 40 (try any_goals first
    | with_reducible assumption | with_reducible apply State.done_keeps | with_reducible apply State.idleTimeout_keeps)

theorem execIslandWake_keeps {a s : State} {i : Sys2Proof.Island} (h : Keeps a s) : KeepsR a (execIslandWake i s) := by
  unfold execIslandWake
  iterate 40 (try any_goals first
    | with_reducible assumption | with_reducible apply State.done_keeps | with_reducible apply State.islWake_keeps | with_reducible apply Keeps.ite)

theorem execVstepEcho_keeps {a s : State} {v : BitVec 2} (h : Keeps a s) : KeepsR a (execVstepEcho v s) := by
  unfold execVstepEcho
  iterate 40 (try any_goals first | with_reducible assumption | with_reducible apply State.done_keeps | with_reducible apply State.vstepEcho_keeps)

theorem execVstep_keeps {a s : State} (h : Keeps a s) : KeepsR a (execVstep s) := by
  unfold execVstep
  iterate 40 (try any_goals first
    | with_reducible assumption | with_reducible apply State.done_keeps | with_reducible apply State.vstepLate_keeps
    | with_reducible apply KeepsR.ite)

end Sys2Proof.Machine
end

