-- ==== Sys2Proof/Laws/KeepCommands.lean ====
section
/-! SUPPORT. What keeps the queue of commands and soundness: commands of lanes, easels, entropy, tests, faults and registers. One lemma per function that changes the state. -/
namespace Sys2Proof.Machine

set_option linter.unreachableTactic false
set_option linter.unusedTactic false
set_option linter.tactic.unusedName false

-- Machine/Grant.lean -------------------------------------------------------------------------------------------------------------------

theorem State.swapEffect_keeps {a s : State} (h : Keeps a s) : Keeps a (State.swapEffect s) := by
  unfold State.swapEffect
  iterate 40 (try any_goals first
    | with_reducible assumption | intro _ | with_reducible apply State.setReg_keeps | with_reducible apply Keeps.foldl | split
    | (refine Keeps.lit ?_ rfl rfl rfl rfl rfl rfl rfl rfl rfl rfl rfl))

theorem State.eligStart_keeps {a s : State} {g : Nat} (h : Keeps a s) : Keeps a (State.eligStart s g) := by
  unfold State.eligStart
  iterate 40 (try any_goals first
    | with_reducible assumption | ((fail_if_success (conv => arg 2; fun)); fail_if_no_progress extract_lets +onlyGivenNames y) | split
    | (refine Keeps.lit ?_ rfl rfl rfl rfl rfl rfl rfl rfl rfl rfl rfl))

theorem State.eligEnd_keeps {a s : State} {g : Nat} (h : Keeps a s) : Keeps a (State.eligEnd s g) := by
  unfold State.eligEnd
  iterate 40 (try any_goals first | with_reducible assumption | split | (refine Keeps.lit ?_ rfl rfl rfl rfl rfl rfl rfl rfl rfl rfl rfl))

theorem State.prewake_keeps {a s : State} {g : Nat} (h : Keeps a s) : Keeps a (State.prewake s g) := by
  unfold State.prewake
  iterate 40 (try any_goals first
    | with_reducible assumption | with_reducible apply State.islWake_keeps | with_reducible apply Keeps.ite | with_reducible apply Keeps.foldl)

theorem execStrokeGrant_keeps {a s : State} {e : Sys2Proof.Engine} (h : Keeps a s) : KeepsR a (execStrokeGrant e s) := by
  unfold execStrokeGrant
  iterate 40 (try any_goals first
    | with_reducible assumption | with_reducible apply State.done_keeps | with_reducible apply State.grantLane_keeps
    | with_reducible apply State.grantDig_keeps | split)

theorem execStrokeCommit_keeps {a s : State} {e : Sys2Proof.Engine} (h : Keeps a s) : KeepsR a (execStrokeCommit e s) := by
  unfold execStrokeCommit
  iterate 40 (try any_goals first
    | with_reducible assumption | with_reducible apply State.done_keeps | with_reducible apply State.commitLane_keeps
    | with_reducible apply State.commitDig_keeps | split)

theorem execDuplicateMismatch_keeps {a s : State} {e : Sys2Proof.Engine} (h : Keeps a s) : KeepsR a (execDuplicateMismatch e s) := by
  unfold execDuplicateMismatch
  iterate 40 (try any_goals first
    | with_reducible assumption | with_reducible apply State.done_keeps | with_reducible apply State.failLane_keeps
    | with_reducible apply State.failDig_keeps | split)

theorem execGateSwapEffect_keeps {a s : State} (h : Keeps a s) : KeepsR a (execGateSwapEffect s) := by
  unfold execGateSwapEffect
  iterate 40 (try any_goals first
    | with_reducible assumption | with_reducible apply State.done_keeps | with_reducible apply State.swapEffect_keeps)

theorem execEligibilityStart_keeps {a s : State} {gate : Fin 8} (h : Keeps a s) : KeepsR a (execEligibilityStart gate s) := by
  unfold execEligibilityStart
  iterate 40 (try any_goals first | with_reducible assumption | with_reducible apply State.done_keeps | with_reducible apply State.eligStart_keeps)

theorem execEligibilityEnd_keeps {a s : State} {gate : Fin 8} (h : Keeps a s) : KeepsR a (execEligibilityEnd gate s) := by
  unfold execEligibilityEnd
  iterate 40 (try any_goals first | with_reducible assumption | with_reducible apply State.done_keeps | with_reducible apply State.eligEnd_keeps)

theorem execPrewake_keeps {a s : State} {gate : Fin 8} (h : Keeps a s) : KeepsR a (execPrewake gate s) := by
  unfold execPrewake
  iterate 40 (try any_goals first | with_reducible assumption | with_reducible apply State.done_keeps | with_reducible apply State.prewake_keeps)

-- Machine/LaneOps.lean -----------------------------------------------------------------------------------------------------------------

theorem execEcbEncrypt_keeps {a s : State} {id : Nat} (h : Keeps a s) : KeepsR a (execEcbEncrypt id s) := by
  unfold execEcbEncrypt
  iterate 40 (try any_goals first | with_reducible assumption | with_reducible apply State.done_keeps | with_reducible apply State.compute_keeps)

theorem execEcbDecrypt_keeps {a s : State} {id : Nat} (h : Keeps a s) : KeepsR a (execEcbDecrypt id s) := by
  unfold execEcbDecrypt
  iterate 40 (try any_goals first | with_reducible assumption | with_reducible apply State.done_keeps | with_reducible apply State.compute_keeps)

theorem execCbcEncrypt_keeps {a s : State} {id : Nat} (h : Keeps a s) : KeepsR a (execCbcEncrypt id s) := by
  unfold execCbcEncrypt
  iterate 40 (try any_goals first | with_reducible assumption | with_reducible apply State.done_keeps | with_reducible apply State.compute_keeps)

theorem execCbcDecrypt_keeps {a s : State} {id : Nat} (h : Keeps a s) : KeepsR a (execCbcDecrypt id s) := by
  unfold execCbcDecrypt
  iterate 40 (try any_goals first | with_reducible assumption | with_reducible apply State.done_keeps | with_reducible apply State.compute_keeps)

theorem execCtr_keeps {a s : State} {id : Nat} (h : Keeps a s) : KeepsR a (execCtr id s) := by
  unfold execCtr
  iterate 40 (try any_goals first | with_reducible assumption | with_reducible apply State.done_keeps | with_reducible apply State.compute_keeps)

theorem execXtsEncrypt_keeps {a s : State} {id : Nat} (h : Keeps a s) : KeepsR a (execXtsEncrypt id s) := by
  unfold execXtsEncrypt
  iterate 40 (try any_goals first | with_reducible assumption | with_reducible apply State.done_keeps | with_reducible apply State.compute_keeps)

theorem execXtsDecrypt_keeps {a s : State} {id : Nat} (h : Keeps a s) : KeepsR a (execXtsDecrypt id s) := by
  unfold execXtsDecrypt
  iterate 40 (try any_goals first | with_reducible assumption | with_reducible apply State.done_keeps | with_reducible apply State.compute_keeps)

theorem execGcmEncrypt_keeps {a s : State} {id : Nat} (h : Keeps a s) : KeepsR a (execGcmEncrypt id s) := by
  unfold execGcmEncrypt
  iterate 40 (try any_goals first | with_reducible assumption | with_reducible apply State.done_keeps | with_reducible apply State.compute_keeps)

theorem execGcmDecrypt_keeps {a s : State} {id : Nat} (h : Keeps a s) : KeepsR a (execGcmDecrypt id s) := by
  unfold execGcmDecrypt
  iterate 40 (try any_goals first | with_reducible assumption | with_reducible apply State.done_keeps | with_reducible apply State.compute_keeps)

theorem execCcmEncrypt_keeps {a s : State} {id : Nat} (h : Keeps a s) : KeepsR a (execCcmEncrypt id s) := by
  unfold execCcmEncrypt
  iterate 40 (try any_goals first | with_reducible assumption | with_reducible apply State.done_keeps | with_reducible apply State.compute_keeps)

theorem execCcmDecrypt_keeps {a s : State} {id : Nat} (h : Keeps a s) : KeepsR a (execCcmDecrypt id s) := by
  unfold execCcmDecrypt
  iterate 40 (try any_goals first | with_reducible assumption | with_reducible apply State.done_keeps | with_reducible apply State.compute_keeps)

theorem execGmacGenerate_keeps {a s : State} {id : Nat} (h : Keeps a s) : KeepsR a (execGmacGenerate id s) := by
  unfold execGmacGenerate
  iterate 40 (try any_goals first | with_reducible assumption | with_reducible apply State.done_keeps | with_reducible apply State.compute_keeps)

theorem execGmacVerify_keeps {a s : State} {id : Nat} (h : Keeps a s) : KeepsR a (execGmacVerify id s) := by
  unfold execGmacVerify
  iterate 40 (try any_goals first | with_reducible assumption | with_reducible apply State.done_keeps | with_reducible apply State.compute_keeps)

theorem execCmacGenerate_keeps {a s : State} {id : Nat} (h : Keeps a s) : KeepsR a (execCmacGenerate id s) := by
  unfold execCmacGenerate
  iterate 40 (try any_goals first | with_reducible assumption | with_reducible apply State.done_keeps | with_reducible apply State.compute_keeps)

theorem execCmacVerify_keeps {a s : State} {id : Nat} (h : Keeps a s) : KeepsR a (execCmacVerify id s) := by
  unfold execCmacVerify
  iterate 40 (try any_goals first | with_reducible assumption | with_reducible apply State.done_keeps | with_reducible apply State.compute_keeps)

theorem execChacha20_keeps {a s : State} {id : Nat} (h : Keeps a s) : KeepsR a (execChacha20 id s) := by
  unfold execChacha20
  iterate 40 (try any_goals first | with_reducible assumption | with_reducible apply State.done_keeps | with_reducible apply State.compute_keeps)

theorem execChachaPolyEncrypt_keeps {a s : State} {id : Nat} (h : Keeps a s) : KeepsR a (execChachaPolyEncrypt id s) := by
  unfold execChachaPolyEncrypt
  iterate 40 (try any_goals first | with_reducible assumption | with_reducible apply State.done_keeps | with_reducible apply State.compute_keeps)

theorem execChachaPolyDecrypt_keeps {a s : State} {id : Nat} (h : Keeps a s) : KeepsR a (execChachaPolyDecrypt id s) := by
  unfold execChachaPolyDecrypt
  iterate 40 (try any_goals first | with_reducible assumption | with_reducible apply State.done_keeps | with_reducible apply State.compute_keeps)

theorem execKeyWrap_keeps {a s : State} {id : Nat} (h : Keeps a s) : KeepsR a (execKeyWrap id s) := by
  unfold execKeyWrap
  iterate 40 (try any_goals first | with_reducible assumption | with_reducible apply State.done_keeps | with_reducible apply State.compute_keeps)

theorem execKeyUnwrap_keeps {a s : State} {id : Nat} (h : Keeps a s) : KeepsR a (execKeyUnwrap id s) := by
  unfold execKeyUnwrap
  iterate 40 (try any_goals first | with_reducible assumption | with_reducible apply State.done_keeps | with_reducible apply State.compute_keeps)

theorem execCbcHmacEncrypt_keeps {a s : State} {id : Nat} (h : Keeps a s) : KeepsR a (execCbcHmacEncrypt id s) := by
  unfold execCbcHmacEncrypt
  iterate 40 (try any_goals first | with_reducible assumption | with_reducible apply State.done_keeps | with_reducible apply State.compute_keeps)

theorem execCbcHmacVerifyDecrypt_keeps {a s : State} {id : Nat} (h : Keeps a s) : KeepsR a (execCbcHmacVerifyDecrypt id s) := by
  unfold execCbcHmacVerifyDecrypt
  iterate 40 (try any_goals first | with_reducible assumption | with_reducible apply State.done_keeps | with_reducible apply State.compute_keeps)

theorem execCtrHmac_keeps {a s : State} {id : Nat} (h : Keeps a s) : KeepsR a (execCtrHmac id s) := by
  unfold execCtrHmac
  iterate 40 (try any_goals first | with_reducible assumption | with_reducible apply State.done_keeps | with_reducible apply State.compute_keeps)

theorem execHash_keeps {a s : State} {id : Nat} (h : Keeps a s) : KeepsR a (execHash id s) := by
  unfold execHash
  iterate 40 (try any_goals first | with_reducible assumption | with_reducible apply State.done_keeps | with_reducible apply State.compute_keeps)

theorem execHashPartial_keeps {a s : State} {id : Nat} (h : Keeps a s) : KeepsR a (execHashPartial id s) := by
  unfold execHashPartial
  iterate 40 (try any_goals first | with_reducible assumption | with_reducible apply State.done_keeps | with_reducible apply State.compute_keeps)

theorem execHmac_keeps {a s : State} {id : Nat} (h : Keeps a s) : KeepsR a (execHmac id s) := by
  unfold execHmac
  iterate 40 (try any_goals first | with_reducible assumption | with_reducible apply State.done_keeps | with_reducible apply State.compute_keeps)

theorem execHmacVerify_keeps {a s : State} {id : Nat} (h : Keeps a s) : KeepsR a (execHmacVerify id s) := by
  unfold execHmacVerify
  iterate 40 (try any_goals first | with_reducible assumption | with_reducible apply State.done_keeps | with_reducible apply State.compute_keeps)

theorem execHmacPartial_keeps {a s : State} {id : Nat} (h : Keeps a s) : KeepsR a (execHmacPartial id s) := by
  unfold execHmacPartial
  iterate 40 (try any_goals first | with_reducible assumption | with_reducible apply State.done_keeps | with_reducible apply State.compute_keeps)

theorem execStencilOut_keeps {a s : State} {id : Nat} (h : Keeps a s) : KeepsR a (execStencilOut id s) := by
  unfold execStencilOut
  iterate 40 (try any_goals first | with_reducible assumption | with_reducible apply State.done_keeps | with_reducible apply State.compute_keeps)

theorem execStencilIn_keeps {a s : State} {id : Nat} (h : Keeps a s) : KeepsR a (execStencilIn id s) := by
  unfold execStencilIn
  iterate 40 (try any_goals first | with_reducible assumption | with_reducible apply State.done_keeps | with_reducible apply State.compute_keeps)

theorem execSealRecord_keeps {a s : State} {id : Nat} (h : Keeps a s) : KeepsR a (execSealRecord id s) := by
  unfold execSealRecord
  iterate 40 (try any_goals first | with_reducible assumption | with_reducible apply State.done_keeps | with_reducible apply State.compute_keeps)

theorem execSealCheck_keeps {a s : State} {id : Nat} (h : Keeps a s) : KeepsR a (execSealCheck id s) := by
  unfold execSealCheck
  iterate 40 (try any_goals first | with_reducible assumption | with_reducible apply State.done_keeps | with_reducible apply State.compute_keeps)

-- Machine/Easel.lean -------------------------------------------------------------------------------------------------------------------

theorem State.placeComp_keeps {a s : State} {r : Req} {e : Nat} {attempt : Nat} (h : Keeps a s) : Keeps a (State.placeComp s r e attempt) := by
  unfold State.placeComp
  iterate 40 (try any_goals first | with_reducible assumption | with_reducible apply State.setEasel_keeps)

theorem State.grantEasel_keeps {a s : State} {e : Nat} (h : Keeps a s) : Keeps a (State.grantEasel s e) := by
  unfold State.grantEasel
  iterate 40 (try any_goals first
    | with_reducible assumption | with_reducible apply State.placeComp_keeps | with_reducible refine (State.arbitrate_keeps ?_).eq (by assumption)
    | with_reducible apply State.setEasel_keeps | split | (refine Keeps.lit ?_ rfl rfl rfl rfl rfl rfl rfl rfl rfl rfl rfl))

theorem State.moveComp_keeps {a s : State} {e : Nat} {c : Comp} (h : Keeps a s) : Keeps a (State.moveComp s e c) := by
  unfold State.moveComp
  iterate 40 (try any_goals first
    | with_reducible assumption | with_reducible apply State.setEasel_keeps | (refine Keeps.lit ?_ rfl rfl rfl rfl rfl rfl rfl rfl rfl rfl rfl))

theorem State.failEasel_keeps {a s : State} {e : Nat} {inj : Bool} {detail : Nat} (h : Keeps a s) : Keeps a (State.failEasel s e inj detail) := by
  unfold State.failEasel
  iterate 40 (try any_goals first
    | with_reducible assumption
    | ((fail_if_success (conv => arg 2; fun)); ((fail_if_no_progress extract_lets +onlyGivenNames y); have hy : Keeps a y := ?_; (try clear_value y); rotate_left; try unfold y))
    | with_reducible apply State.capture_keeps | with_reducible apply State.compareFailed_keeps | with_reducible apply State.abandonRun_keeps
    | with_reducible apply State.markRetried_keeps | with_reducible apply State.setEasel_keeps | with_reducible apply State.moveComp_keeps
    | with_reducible apply State.retireUnit_keeps | split)

theorem State.recovered_keeps {a s : State} {e : Nat} (h : Keeps a s) : Keeps a (State.recovered s e) := by
  unfold State.recovered
  iterate 40 (try any_goals first | with_reducible assumption | with_reducible apply State.setEasel_keeps)

theorem State.endEasel_keeps {a s : State} {e : Nat} {r : Req} {x : Finish} (h : Keeps a s) : Keeps a (State.endEasel s e r x) := by
  unfold State.endEasel
  iterate 40 (try any_goals first
    | with_reducible assumption | with_reducible apply State.haltReq_keeps | with_reducible apply State.easelCount_keeps
    | with_reducible apply State.setEasel_keeps | with_reducible apply State.recovered_keeps | with_reducible apply State.writeData_keeps
    | with_reducible apply State.commit_keeps | split)

theorem State.loadCurve_keeps {a s : State} {r : Req} (h : Keeps a s) : Keeps a (State.loadCurve s r) := by
  unfold State.loadCurve
  iterate 40 (try any_goals first | with_reducible assumption | (refine Keeps.lit ?_ rfl rfl rfl rfl rfl rfl rfl rfl rfl rfl rfl))

theorem State.endBuiltin_keeps {a s : State} {e : Nat} {r : Req} {x : Finish} (h : Keeps a s) : Keeps a (State.endBuiltin s e r x) := by
  unfold State.endBuiltin
  iterate 40 (try any_goals first
    | with_reducible assumption | with_reducible apply State.easelCount_keeps | with_reducible apply State.bumpSat_keeps
    | with_reducible apply State.endEasel_keeps | with_reducible apply Keeps.ite)

theorem State.skYielded_keeps {a s : State} {e : Nat} {id : Nat} (h : Keeps a s) : Keeps a (State.skYielded s e id) := by
  unfold State.skYielded
  iterate 40 (try any_goals first
    | with_reducible assumption | with_reducible apply State.easelCount_keeps | with_reducible apply State.setEasel_keeps)

theorem State.builtinRun_keeps {a s : State} {e : Nat} {r : Req} {c : Comp} (h : Keeps a s) : Keeps a (State.builtinRun s e r c) := by
  unfold State.builtinRun
  iterate 40 (try any_goals first | with_reducible assumption | with_reducible apply State.addBusy_keeps)

theorem KeepsO.map_some {α : Type} {a : State} {g : α → State} (o : Option α) (hg : ∀ x, Keeps a (g x)) : KeepsO a (o.map g) := by
  cases o with
  | none => exact KeepsO.none
  | some x => exact KeepsO.some (hg x)

theorem State.hashed_keeps {a s : State} {r : Req} {x : Finish} (h : Keeps a s) : KeepsO a (State.hashed s r x) := by
  unfold State.hashed
  iterate 40 (try any_goals first
    | with_reducible assumption | with_reducible exact KeepsO.map_some _ (fun _ => State.digRun_keeps (by assumption))
    | with_reducible apply KeepsO.some | with_reducible apply KeepsO.ite)

theorem State.builtinEnd_keeps {a s : State} {e : Nat} {r : Req} {x : Finish} (h : Keeps a s) : Keeps a (State.builtinEnd s e r x) := by
  unfold State.builtinEnd
  iterate 40 (try any_goals first
    | with_reducible assumption | with_reducible apply State.endBuiltin_keeps | with_reducible apply State.loadCurve_keeps
    | with_reducible apply Keeps.ite)

theorem State.easelOp_keeps {a s : State} {op : Nat} {id : Nat} {agree : Bool} (h : Keeps a s) : Keeps a (State.easelOp s op id agree) := by
  unfold State.easelOp
  iterate 40 (try any_goals first
    | with_reducible assumption | ((fail_if_success (conv => arg 2; fun)); fail_if_no_progress extract_lets +onlyGivenNames y)
    | with_reducible apply State.failEasel_keeps | with_reducible apply State.injFired_keeps | with_reducible apply State.singleStrike_keeps
    | with_reducible apply State.builtinRun_keeps | with_reducible apply State.skYielded_keeps | with_reducible apply State.setEasel_keeps
    | with_reducible refine (State.hashed_keeps ?_).all _ (by assumption) | with_reducible apply State.builtinEnd_keeps
    | with_reducible apply State.islWake_keeps | split)

theorem State.sketchStart_keeps {a s : State} {id : Nat} (h : Keeps a s) : Keeps a (State.sketchStart s id) := by
  unfold State.sketchStart
  iterate 40 (try any_goals first | with_reducible assumption | with_reducible apply State.setEasel_keeps | split)

theorem execEaselGrant_keeps {a s : State} {e : Nat} (h : Keeps a s) : KeepsR a (execEaselGrant e s) := by
  unfold execEaselGrant
  iterate 40 (try any_goals first
    | with_reducible assumption | with_reducible apply State.done_keeps | with_reducible apply State.grantEasel_keeps)

theorem execEcdsaVerify_keeps {a s : State} {id : Nat} {agree : Bool} (h : Keeps a s) : KeepsR a (execEcdsaVerify id agree s) := by
  unfold execEcdsaVerify
  iterate 40 (try any_goals first | with_reducible assumption | with_reducible apply State.done_keeps | with_reducible apply State.easelOp_keeps)

theorem execEddsaVerify_keeps {a s : State} {id : Nat} {agree : Bool} (h : Keeps a s) : KeepsR a (execEddsaVerify id agree s) := by
  unfold execEddsaVerify
  iterate 40 (try any_goals first | with_reducible assumption | with_reducible apply State.done_keeps | with_reducible apply State.easelOp_keeps)

theorem execEddsaBatch_keeps {a s : State} {id : Nat} {agree : Bool} (h : Keeps a s) : KeepsR a (execEddsaBatch id agree s) := by
  unfold execEddsaBatch
  iterate 40 (try any_goals first | with_reducible assumption | with_reducible apply State.done_keeps | with_reducible apply State.easelOp_keeps)

theorem execRsaVerifyPss_keeps {a s : State} {id : Nat} {agree : Bool} (h : Keeps a s) : KeepsR a (execRsaVerifyPss id agree s) := by
  unfold execRsaVerifyPss
  iterate 40 (try any_goals first | with_reducible assumption | with_reducible apply State.done_keeps | with_reducible apply State.easelOp_keeps)

theorem execRsaVerifyPkcs1_keeps {a s : State} {id : Nat} {agree : Bool} (h : Keeps a s) : KeepsR a (execRsaVerifyPkcs1 id agree s) := by
  unfold execRsaVerifyPkcs1
  iterate 40 (try any_goals first | with_reducible assumption | with_reducible apply State.done_keeps | with_reducible apply State.easelOp_keeps)

theorem execRsaPublic_keeps {a s : State} {id : Nat} {agree : Bool} (h : Keeps a s) : KeepsR a (execRsaPublic id agree s) := by
  unfold execRsaPublic
  iterate 40 (try any_goals first | with_reducible assumption | with_reducible apply State.done_keeps | with_reducible apply State.easelOp_keeps)

theorem execModexpPublic_keeps {a s : State} {id : Nat} {agree : Bool} (h : Keeps a s) : KeepsR a (execModexpPublic id agree s) := by
  unfold execModexpPublic
  iterate 40 (try any_goals first | with_reducible assumption | with_reducible apply State.done_keeps | with_reducible apply State.easelOp_keeps)

theorem execPointCheck_keeps {a s : State} {id : Nat} {agree : Bool} (h : Keeps a s) : KeepsR a (execPointCheck id agree s) := by
  unfold execPointCheck
  iterate 40 (try any_goals first | with_reducible assumption | with_reducible apply State.done_keeps | with_reducible apply State.easelOp_keeps)

theorem execCurveLoad_keeps {a s : State} {id : Nat} {agree : Bool} (h : Keeps a s) : KeepsR a (execCurveLoad id agree s) := by
  unfold execCurveLoad
  iterate 40 (try any_goals first | with_reducible assumption | with_reducible apply State.done_keeps | with_reducible apply State.easelOp_keeps)

theorem execSketchCall_keeps {a s : State} {id : Nat} (h : Keeps a s) : KeepsR a (execSketchCall id s) := by
  unfold execSketchCall
  iterate 40 (try any_goals first
    | with_reducible assumption | with_reducible apply State.done_keeps | with_reducible apply State.sketchStart_keeps)

-- Machine/SketchCmds.lean --------------------------------------------------------------------------------------------------------------

theorem State.skFault_keeps {a s : State} {e : Nat} {r : Req} {v : SkEnv} {pc : Nat} {f : SkFault} (h : Keeps a s) :
    Keeps a (State.skFault s e r v pc f) := by
  unfold State.skFault
  iterate 40 (try any_goals first
    | with_reducible assumption | with_reducible apply State.setEasel_keeps | with_reducible apply State.bumpSat_keeps
    | with_reducible apply State.setReg_keeps | with_reducible apply State.commit_keeps | with_reducible apply Keeps.ite)

theorem State.skBoundary_keeps {a s : State} {e : Nat} {r : Req} {v : SkEnv} {c : Comp}
    {k : State → State} (h : Keeps a s) (hk : ∀ v0, Keeps a v0 → Keeps a (k v0)) :
    Keeps a (State.skBoundary s e r v c k) := by
  unfold State.skBoundary
  iterate 40 (try any_goals first
    | with_reducible assumption | with_reducible apply hk | with_reducible apply State.skFault_keeps | with_reducible apply State.setEasel_keeps
    | with_reducible apply Keeps.ite)

theorem State.skGo_keeps {a s : State} {e : Nat} {r : Req} {v : SkEnv} {c : Comp} {cost : Nat} {bound : Nat} {res : SkRes}
    {k : State → State} (h : Keeps a s) (hk : ∀ v0, Keeps a v0 → Keeps a (k v0)) :
    Keeps a (State.skGo s e r v c cost bound res k) := by
  unfold State.skGo
  iterate 40 (try any_goals first
    | with_reducible assumption | with_reducible apply State.skFault_keeps | with_reducible apply State.skBoundary_keeps
    | with_reducible apply State.addBusy_keeps | split)

theorem State.skAt_keeps {a s : State} {e : Nat} {g : BitVec 4} {opc : Nat} {imm : Nat} {k : Req → SkEnv → Comp → State}
    {agree : Bool} (h : Keeps a s) (hk : ∀ v0 v1 v2, Keeps a (k v0 v1 v2)) :
    Keeps a (State.skAt s e g opc imm k agree) := by
  unfold State.skAt
  iterate 40 (try any_goals first
    | with_reducible assumption | intro _ | with_reducible apply hk | with_reducible apply State.failEasel_keeps
    | with_reducible apply State.capture_keeps | with_reducible apply State.singleStrike_keeps | with_reducible apply State.skGo_keeps | split
    | (refine Keeps.lit ?_ rfl rfl rfl rfl rfl rfl rfl rfl rfl rfl rfl))

theorem State.skPlain_keeps {a s : State} {e : Nat} {g : BitVec 4} {opc : Nat} {imm : Nat} {cost : Comp → Nat}
    {f : SkEnv → Comp → SkRes} (h : Keeps a s) :
    Keeps a (State.skPlain s e g opc imm cost f) := by
  unfold State.skPlain
  iterate 40 (try any_goals first
    | with_reducible assumption | intro _ | with_reducible apply State.skAt_keeps | with_reducible apply State.skGo_keeps
    | (refine Keeps.lit ?_ rfl rfl rfl rfl rfl rfl rfl rfl rfl rfl rfl))

theorem State.skOne_keeps {a s : State} {e : Nat} {g : BitVec 4} {opc : Nat} {imm : Nat} {f : SkEnv → Comp → SkRes} (h : Keeps a s) :
    Keeps a (State.skOne s e g opc imm f) := by
  unfold State.skOne
  iterate 40 (try any_goals first | with_reducible assumption | with_reducible apply State.skPlain_keeps)

theorem State.skCompare_keeps {a s : State} {e : Nat} {g : BitVec 4} {opc : Nat} {imm : Nat} {agree : Bool} {cost : Comp → Nat}
    {f : SkEnv → Comp → SkRes} (h : Keeps a s) :
    Keeps a (State.skCompare s e g opc imm agree cost f) := by
  unfold State.skCompare
  iterate 40 (try any_goals first
    | with_reducible assumption | intro _ | with_reducible apply State.skAt_keeps | with_reducible apply State.skGo_keeps
    | (refine Keeps.lit ?_ rfl rfl rfl rfl rfl rfl rfl rfl rfl rfl rfl))

theorem execSkNop_keeps {a s : State} {e : Nat} {g : BitVec 4} (h : Keeps a s) : KeepsR a (execSkNop e g s) := by
  unfold execSkNop
  iterate 40 (try any_goals first | with_reducible assumption | with_reducible apply State.done_keeps | with_reducible apply State.skOne_keeps)

theorem execSkEnd_keeps {a s : State} {e : Nat} {g : BitVec 4} {agree : Bool} (h : Keeps a s) : KeepsR a (execSkEnd e g agree s) := by
  unfold execSkEnd
  iterate 40 (try any_goals first
    | with_reducible assumption | intro _ | ((fail_if_success (conv => arg 2; fun)); fail_if_no_progress extract_lets +onlyGivenNames y)
    | with_reducible apply State.done_keeps | with_reducible apply State.skAt_keeps | with_reducible apply State.skFault_keeps
    | with_reducible apply State.endEasel_keeps | with_reducible apply State.addBusy_keeps | split)

theorem execSkYield_keeps {a s : State} {e : Nat} {g : BitVec 4} {agree : Bool} (h : Keeps a s) : KeepsR a (execSkYield e g agree s) := by
  unfold execSkYield
  iterate 40 (try any_goals first
    | with_reducible assumption | intro _ | with_reducible apply State.done_keeps | with_reducible apply State.skAt_keeps
    | with_reducible apply State.skGo_keeps | with_reducible apply State.skYielded_keeps)

theorem execSkJmp_keeps {a s : State} {e : Nat} {g : BitVec 4} {rel : BitVec 20} (h : Keeps a s) : KeepsR a (execSkJmp e g rel s) := by
  unfold execSkJmp
  iterate 40 (try any_goals first
    | with_reducible assumption | intro _ | with_reducible apply State.done_keeps | with_reducible apply State.skAt_keeps
    | with_reducible apply State.skGo_keeps | (refine Keeps.lit ?_ rfl rfl rfl rfl rfl rfl rfl rfl rfl rfl rfl))

theorem execSkCall_keeps {a s : State} {e : Nat} {g : BitVec 4} {rel : BitVec 20} (h : Keeps a s) : KeepsR a (execSkCall e g rel s) := by
  unfold execSkCall
  iterate 40 (try any_goals first
    | with_reducible assumption | intro _ | with_reducible apply State.done_keeps | with_reducible apply State.skAt_keeps
    | with_reducible apply State.skGo_keeps | (refine Keeps.lit ?_ rfl rfl rfl rfl rfl rfl rfl rfl rfl rfl rfl))

theorem execSkRet_keeps {a s : State} {e : Nat} {g : BitVec 4} (h : Keeps a s) : KeepsR a (execSkRet e g s) := by
  unfold execSkRet
  iterate 40 (try any_goals first
    | with_reducible assumption | intro _ | with_reducible apply State.done_keeps | with_reducible apply State.skAt_keeps
    | with_reducible apply State.skGo_keeps | (refine Keeps.lit ?_ rfl rfl rfl rfl rfl rfl rfl rfl rfl rfl rfl))

theorem execSkDbnz_keeps {a s : State} {e : Nat} {g : BitVec 4} {rel : BitVec 20} (h : Keeps a s) : KeepsR a (execSkDbnz e g rel s) := by
  unfold execSkDbnz
  iterate 40 (try any_goals first
    | with_reducible assumption | intro _ | with_reducible apply State.done_keeps | with_reducible apply State.skAt_keeps
    | with_reducible apply State.skGo_keeps | (refine Keeps.lit ?_ rfl rfl rfl rfl rfl rfl rfl rfl rfl rfl rfl))

theorem execSkPushi_keeps {a s : State} {e : Nat} {g : BitVec 4} {imm : BitVec 20} (h : Keeps a s) : KeepsR a (execSkPushi e g imm s) := by
  unfold execSkPushi
  iterate 40 (try any_goals first | with_reducible assumption | with_reducible apply State.done_keeps | with_reducible apply State.skOne_keeps)

theorem execSkPushs_keeps {a s : State} {e : Nat} {g : BitVec 4} {imm : BitVec 20} (h : Keeps a s) : KeepsR a (execSkPushs e g imm s) := by
  unfold execSkPushs
  iterate 40 (try any_goals first | with_reducible assumption | with_reducible apply State.done_keeps | with_reducible apply State.skOne_keeps)

theorem execSkPushx_keeps {a s : State} {e : Nat} {g : BitVec 4} {imm : BitVec 20} (h : Keeps a s) : KeepsR a (execSkPushx e g imm s) := by
  unfold execSkPushx
  iterate 40 (try any_goals first | with_reducible assumption | with_reducible apply State.done_keeps | with_reducible apply State.skOne_keeps)

theorem execSkDup_keeps {a s : State} {e : Nat} {g : BitVec 4} (h : Keeps a s) : KeepsR a (execSkDup e g s) := by
  unfold execSkDup
  iterate 40 (try any_goals first | with_reducible assumption | with_reducible apply State.done_keeps | with_reducible apply State.skOne_keeps)

theorem execSkDrop_keeps {a s : State} {e : Nat} {g : BitVec 4} (h : Keeps a s) : KeepsR a (execSkDrop e g s) := by
  unfold execSkDrop
  iterate 40 (try any_goals first | with_reducible assumption | with_reducible apply State.done_keeps | with_reducible apply State.skOne_keeps)

theorem execSkSwap_keeps {a s : State} {e : Nat} {g : BitVec 4} (h : Keeps a s) : KeepsR a (execSkSwap e g s) := by
  unfold execSkSwap
  iterate 40 (try any_goals first | with_reducible assumption | with_reducible apply State.done_keeps | with_reducible apply State.skOne_keeps)

theorem execSkOver_keeps {a s : State} {e : Nat} {g : BitVec 4} (h : Keeps a s) : KeepsR a (execSkOver e g s) := by
  unfold execSkOver
  iterate 40 (try any_goals first | with_reducible assumption | with_reducible apply State.done_keeps | with_reducible apply State.skOne_keeps)

theorem execSkRot_keeps {a s : State} {e : Nat} {g : BitVec 4} (h : Keeps a s) : KeepsR a (execSkRot e g s) := by
  unfold execSkRot
  iterate 40 (try any_goals first | with_reducible assumption | with_reducible apply State.done_keeps | with_reducible apply State.skOne_keeps)

theorem execSkPick_keeps {a s : State} {e : Nat} {g : BitVec 4} {k : BitVec 5} (h : Keeps a s) : KeepsR a (execSkPick e g k s) := by
  unfold execSkPick
  iterate 40 (try any_goals first | with_reducible assumption | with_reducible apply State.done_keeps | with_reducible apply State.skOne_keeps)

theorem execSkDepth_keeps {a s : State} {e : Nat} {g : BitVec 4} (h : Keeps a s) : KeepsR a (execSkDepth e g s) := by
  unfold execSkDepth
  iterate 40 (try any_goals first | with_reducible assumption | with_reducible apply State.done_keeps | with_reducible apply State.skOne_keeps)

theorem execSkAdd_keeps {a s : State} {e : Nat} {g : BitVec 4} (h : Keeps a s) : KeepsR a (execSkAdd e g s) := by
  unfold execSkAdd
  iterate 40 (try any_goals first | with_reducible assumption | with_reducible apply State.done_keeps | with_reducible apply State.skOne_keeps)

theorem execSkAdc_keeps {a s : State} {e : Nat} {g : BitVec 4} (h : Keeps a s) : KeepsR a (execSkAdc e g s) := by
  unfold execSkAdc
  iterate 40 (try any_goals first | with_reducible assumption | with_reducible apply State.done_keeps | with_reducible apply State.skOne_keeps)

theorem execSkSub_keeps {a s : State} {e : Nat} {g : BitVec 4} (h : Keeps a s) : KeepsR a (execSkSub e g s) := by
  unfold execSkSub
  iterate 40 (try any_goals first | with_reducible assumption | with_reducible apply State.done_keeps | with_reducible apply State.skOne_keeps)

theorem execSkSbc_keeps {a s : State} {e : Nat} {g : BitVec 4} (h : Keeps a s) : KeepsR a (execSkSbc e g s) := by
  unfold execSkSbc
  iterate 40 (try any_goals first | with_reducible assumption | with_reducible apply State.done_keeps | with_reducible apply State.skOne_keeps)

theorem execSkCmp_keeps {a s : State} {e : Nat} {g : BitVec 4} (h : Keeps a s) : KeepsR a (execSkCmp e g s) := by
  unfold execSkCmp
  iterate 40 (try any_goals first | with_reducible assumption | with_reducible apply State.done_keeps | with_reducible apply State.skOne_keeps)

theorem execSkAddi_keeps {a s : State} {e : Nat} {g : BitVec 4} {imm : BitVec 20} (h : Keeps a s) : KeepsR a (execSkAddi e g imm s) := by
  unfold execSkAddi
  iterate 40 (try any_goals first | with_reducible assumption | with_reducible apply State.done_keeps | with_reducible apply State.skOne_keeps)

theorem execSkAnd_keeps {a s : State} {e : Nat} {g : BitVec 4} (h : Keeps a s) : KeepsR a (execSkAnd e g s) := by
  unfold execSkAnd
  iterate 40 (try any_goals first | with_reducible assumption | with_reducible apply State.done_keeps | with_reducible apply State.skOne_keeps)

theorem execSkOr_keeps {a s : State} {e : Nat} {g : BitVec 4} (h : Keeps a s) : KeepsR a (execSkOr e g s) := by
  unfold execSkOr
  iterate 40 (try any_goals first | with_reducible assumption | with_reducible apply State.done_keeps | with_reducible apply State.skOne_keeps)

theorem execSkXor_keeps {a s : State} {e : Nat} {g : BitVec 4} (h : Keeps a s) : KeepsR a (execSkXor e g s) := by
  unfold execSkXor
  iterate 40 (try any_goals first | with_reducible assumption | with_reducible apply State.done_keeps | with_reducible apply State.skOne_keeps)

theorem execSkNot_keeps {a s : State} {e : Nat} {g : BitVec 4} (h : Keeps a s) : KeepsR a (execSkNot e g s) := by
  unfold execSkNot
  iterate 40 (try any_goals first | with_reducible assumption | with_reducible apply State.done_keeps | with_reducible apply State.skOne_keeps)

theorem execSkShl_keeps {a s : State} {e : Nat} {g : BitVec 4} {sh : BitVec 7} (h : Keeps a s) : KeepsR a (execSkShl e g sh s) := by
  unfold execSkShl
  iterate 40 (try any_goals first | with_reducible assumption | with_reducible apply State.done_keeps | with_reducible apply State.skOne_keeps)

theorem execSkShr_keeps {a s : State} {e : Nat} {g : BitVec 4} {sh : BitVec 7} (h : Keeps a s) : KeepsR a (execSkShr e g sh s) := by
  unfold execSkShr
  iterate 40 (try any_goals first | with_reducible assumption | with_reducible apply State.done_keeps | with_reducible apply State.skOne_keeps)

theorem execSkSar_keeps {a s : State} {e : Nat} {g : BitVec 4} {sh : BitVec 7} (h : Keeps a s) : KeepsR a (execSkSar e g sh s) := by
  unfold execSkSar
  iterate 40 (try any_goals first | with_reducible assumption | with_reducible apply State.done_keeps | with_reducible apply State.skOne_keeps)

theorem execSkRol_keeps {a s : State} {e : Nat} {g : BitVec 4} {sh : BitVec 7} (h : Keeps a s) : KeepsR a (execSkRol e g sh s) := by
  unfold execSkRol
  iterate 40 (try any_goals first | with_reducible assumption | with_reducible apply State.done_keeps | with_reducible apply State.skOne_keeps)

theorem execSkClz_keeps {a s : State} {e : Nat} {g : BitVec 4} (h : Keeps a s) : KeepsR a (execSkClz e g s) := by
  unfold execSkClz
  iterate 40 (try any_goals first | with_reducible assumption | with_reducible apply State.done_keeps | with_reducible apply State.skOne_keeps)

theorem execSkCtz_keeps {a s : State} {e : Nat} {g : BitVec 4} (h : Keeps a s) : KeepsR a (execSkCtz e g s) := by
  unfold execSkCtz
  iterate 40 (try any_goals first | with_reducible assumption | with_reducible apply State.done_keeps | with_reducible apply State.skOne_keeps)

theorem execSkBfx_keeps {a s : State} {e : Nat} {g : BitVec 4} {w1 : BitVec 6} {lsb : BitVec 6} (h : Keeps a s) :
    KeepsR a (execSkBfx e g w1 lsb s) := by
  unfold execSkBfx
  iterate 40 (try any_goals first | with_reducible assumption | with_reducible apply State.done_keeps | with_reducible apply State.skOne_keeps)

theorem execSkBfi_keeps {a s : State} {e : Nat} {g : BitVec 4} {w1 : BitVec 6} {lsb : BitVec 6} (h : Keeps a s) :
    KeepsR a (execSkBfi e g w1 lsb s) := by
  unfold execSkBfi
  iterate 40 (try any_goals first | with_reducible assumption | with_reducible apply State.done_keeps | with_reducible apply State.skOne_keeps)

theorem execSkPerm_keeps {a s : State} {e : Nat} {g : BitVec 4} (h : Keeps a s) : KeepsR a (execSkPerm e g s) := by
  unfold execSkPerm
  iterate 40 (try any_goals first | with_reducible assumption | with_reducible apply State.done_keeps | with_reducible apply State.skOne_keeps)

theorem execSkBswap_keeps {a s : State} {e : Nat} {g : BitVec 4} (h : Keeps a s) : KeepsR a (execSkBswap e g s) := by
  unfold execSkBswap
  iterate 40 (try any_goals first | with_reducible assumption | with_reducible apply State.done_keeps | with_reducible apply State.skOne_keeps)

theorem execSkLd_keeps {a s : State} {e : Nat} {g : BitVec 4} {seg : BitVec 4} {off : BitVec 16} (h : Keeps a s) :
    KeepsR a (execSkLd e g seg off s) := by
  unfold execSkLd
  iterate 40 (try any_goals first | with_reducible assumption | with_reducible apply State.done_keeps | with_reducible apply State.skPlain_keeps)

theorem execSkSt_keeps {a s : State} {e : Nat} {g : BitVec 4} {seg : BitVec 4} {off : BitVec 16} (h : Keeps a s) :
    KeepsR a (execSkSt e g seg off s) := by
  unfold execSkSt
  iterate 40 (try any_goals first | with_reducible assumption | with_reducible apply State.done_keeps | with_reducible apply State.skOne_keeps)

theorem execSkLdx_keeps {a s : State} {e : Nat} {g : BitVec 4} {seg : BitVec 4} {off : BitVec 16} (h : Keeps a s) :
    KeepsR a (execSkLdx e g seg off s) := by
  unfold execSkLdx
  iterate 40 (try any_goals first | with_reducible assumption | with_reducible apply State.done_keeps | with_reducible apply State.skPlain_keeps)

theorem execSkStx_keeps {a s : State} {e : Nat} {g : BitVec 4} {seg : BitVec 4} {off : BitVec 16} (h : Keeps a s) :
    KeepsR a (execSkStx e g seg off s) := by
  unfold execSkStx
  iterate 40 (try any_goals first | with_reducible assumption | with_reducible apply State.done_keeps | with_reducible apply State.skOne_keeps)

theorem execSkSeglen_keeps {a s : State} {e : Nat} {g : BitVec 4} {seg : BitVec 4} (h : Keeps a s) : KeepsR a (execSkSeglen e g seg s) := by
  unfold execSkSeglen
  iterate 40 (try any_goals first | with_reducible assumption | with_reducible apply State.done_keeps | with_reducible apply State.skOne_keeps)

theorem execSkCopy_keeps {a s : State} {e : Nat} {g : BitVec 4} (h : Keeps a s) : KeepsR a (execSkCopy e g s) := by
  unfold execSkCopy
  iterate 40 (try any_goals first | with_reducible assumption | with_reducible apply State.done_keeps | with_reducible apply State.skPlain_keeps)

theorem execSkMul_keeps {a s : State} {e : Nat} {g : BitVec 4} (h : Keeps a s) : KeepsR a (execSkMul e g s) := by
  unfold execSkMul
  iterate 40 (try any_goals first | with_reducible assumption | with_reducible apply State.done_keeps | with_reducible apply State.skOne_keeps)

theorem execSkRdml_keeps {a s : State} {e : Nat} {g : BitVec 4} {agree : Bool} (h : Keeps a s) : KeepsR a (execSkRdml e g agree s) := by
  unfold execSkRdml
  iterate 40 (try any_goals first | with_reducible assumption | with_reducible apply State.done_keeps | with_reducible apply State.skCompare_keeps)

theorem execSkRdmh_keeps {a s : State} {e : Nat} {g : BitVec 4} {agree : Bool} (h : Keeps a s) : KeepsR a (execSkRdmh e g agree s) := by
  unfold execSkRdmh
  iterate 40 (try any_goals first | with_reducible assumption | with_reducible apply State.done_keeps | with_reducible apply State.skCompare_keeps)

theorem execSkRdsr_keeps {a s : State} {e : Nat} {g : BitVec 4} {sr : BitVec 4} (h : Keeps a s) : KeepsR a (execSkRdsr e g sr s) := by
  unfold execSkRdsr
  iterate 40 (try any_goals first | with_reducible assumption | with_reducible apply State.done_keeps | with_reducible apply State.skOne_keeps)

theorem execSkWrfl_keeps {a s : State} {e : Nat} {g : BitVec 4} (h : Keeps a s) : KeepsR a (execSkWrfl e g s) := by
  unfold execSkWrfl
  iterate 40 (try any_goals first | with_reducible assumption | with_reducible apply State.done_keeps | with_reducible apply State.skOne_keeps)

theorem State.skGlaze_keeps {a s : State} {e : Nat} {g : BitVec 4} {opc : Nat} {imm : Nat} {own : Nat → Nat}
    {f : SkEnv → Comp → SkRes} (h : Keeps a s) :
    Keeps a (State.skGlaze s e g opc imm own f) := by
  unfold State.skGlaze
  iterate 40 (try any_goals first | with_reducible assumption | with_reducible apply State.skPlain_keeps)

theorem State.skLong_keeps {a s : State} {e : Nat} {r : Req} {v : SkEnv} {c : Comp} {work : Nat} {bound : Nat} {res : SkRes} (h : Keeps a s) :
    Keeps a (State.skLong s e r v c work bound res) := by
  unfold State.skLong
  iterate 40 (try any_goals first
    | with_reducible assumption | intro _ | with_reducible apply State.skFault_keeps | with_reducible apply State.skGo_keeps
    | with_reducible apply State.skYielded_keeps | split | (refine Keeps.lit ?_ rfl rfl rfl rfl rfl rfl rfl rfl rfl rfl rfl))

theorem execGzSetmod_keeps {a s : State} {x : YieldingEasel} {g : BitVec 4} {slot : Bool} (h : Keeps a s) :
    KeepsR a (execGzSetmod x g slot s) := by
  unfold execGzSetmod
  iterate 40 (try any_goals first
    | with_reducible assumption | intro _ | with_reducible apply State.done_keeps | with_reducible apply State.skAt_keeps
    | with_reducible apply State.skLong_keeps)

theorem execGzCurve_keeps {a s : State} {e : Nat} {g : BitVec 4} {slot : Bool} {order : Bool} (h : Keeps a s) :
    KeepsR a (execGzCurve e g slot order s) := by
  unfold execGzCurve
  iterate 40 (try any_goals first | with_reducible assumption | with_reducible apply State.done_keeps | with_reducible apply State.skGlaze_keeps)

theorem execGzSelm_keeps {a s : State} {e : Nat} {g : BitVec 4} {slot : Bool} (h : Keeps a s) : KeepsR a (execGzSelm e g slot s) := by
  unfold execGzSelm
  iterate 40 (try any_goals first | with_reducible assumption | with_reducible apply State.done_keeps | with_reducible apply State.skGlaze_keeps)

theorem execGzIn_keeps {a s : State} {e : Nat} {g : BitVec 4} {seg : BitVec 4} {d : BitVec 5} (h : Keeps a s) : KeepsR a (execGzIn e g seg d s) := by
  unfold execGzIn
  iterate 40 (try any_goals first | with_reducible assumption | with_reducible apply State.done_keeps | with_reducible apply State.skGlaze_keeps)

theorem execGzOut_keeps {a s : State} {e : Nat} {g : BitVec 4} {seg : BitVec 4} {x1 : BitVec 5} {agree : Bool} (h : Keeps a s) :
    KeepsR a (execGzOut e g seg x1 agree s) := by
  unfold execGzOut
  iterate 40 (try any_goals first | with_reducible assumption | with_reducible apply State.done_keeps | with_reducible apply State.skCompare_keeps)

theorem execGzSeti_keeps {a s : State} {e : Nat} {g : BitVec 4} {seg : BitVec 4} {d : BitVec 5} {b : BitVec 5} (h : Keeps a s) :
    KeepsR a (execGzSeti e g seg d b s) := by
  unfold execGzSeti
  iterate 40 (try any_goals first | with_reducible assumption | with_reducible apply State.done_keeps | with_reducible apply State.skGlaze_keeps)

theorem execGzMov_keeps {a s : State} {e : Nat} {g : BitVec 4} {seg : BitVec 4} {d : BitVec 5} {x1 : BitVec 5} (h : Keeps a s) :
    KeepsR a (execGzMov e g seg d x1 s) := by
  unfold execGzMov
  iterate 40 (try any_goals first | with_reducible assumption | with_reducible apply State.done_keeps | with_reducible apply State.skGlaze_keeps)

theorem execGzAdd_keeps {a s : State} {e : Nat} {g : BitVec 4} {seg : BitVec 4} {d : BitVec 5} {x1 : BitVec 5} {b : BitVec 5} (h : Keeps a s) :
    KeepsR a (execGzAdd e g seg d x1 b s) := by
  unfold execGzAdd
  iterate 40 (try any_goals first | with_reducible assumption | with_reducible apply State.done_keeps | with_reducible apply State.skGlaze_keeps)

theorem execGzSub_keeps {a s : State} {e : Nat} {g : BitVec 4} {seg : BitVec 4} {d : BitVec 5} {x1 : BitVec 5} {b : BitVec 5} (h : Keeps a s) :
    KeepsR a (execGzSub e g seg d x1 b s) := by
  unfold execGzSub
  iterate 40 (try any_goals first | with_reducible assumption | with_reducible apply State.done_keeps | with_reducible apply State.skGlaze_keeps)

theorem execGzNeg_keeps {a s : State} {e : Nat} {g : BitVec 4} {seg : BitVec 4} {d : BitVec 5} {x1 : BitVec 5} (h : Keeps a s) :
    KeepsR a (execGzNeg e g seg d x1 s) := by
  unfold execGzNeg
  iterate 40 (try any_goals first | with_reducible assumption | with_reducible apply State.done_keeps | with_reducible apply State.skGlaze_keeps)

theorem execGzMmul_keeps {a s : State} {e : Nat} {g : BitVec 4} {seg : BitVec 4} {d : BitVec 5} {x1 : BitVec 5} {b : BitVec 5} (h : Keeps a s) :
    KeepsR a (execGzMmul e g seg d x1 b s) := by
  unfold execGzMmul
  iterate 40 (try any_goals first | with_reducible assumption | with_reducible apply State.done_keeps | with_reducible apply State.skGlaze_keeps)

theorem execGzMsqr_keeps {a s : State} {e : Nat} {g : BitVec 4} {seg : BitVec 4} {d : BitVec 5} {x1 : BitVec 5} (h : Keeps a s) :
    KeepsR a (execGzMsqr e g seg d x1 s) := by
  unfold execGzMsqr
  iterate 40 (try any_goals first | with_reducible assumption | with_reducible apply State.done_keeps | with_reducible apply State.skGlaze_keeps)

theorem execGzInv_keeps {a s : State} {x : YieldingEasel} {g : BitVec 4} {seg : BitVec 4} {d : BitVec 5} {x1 : BitVec 5} (h : Keeps a s) :
    KeepsR a (execGzInv x g seg d x1 s) := by
  unfold execGzInv
  iterate 40 (try any_goals first
    | with_reducible assumption | intro _ | with_reducible apply State.done_keeps | with_reducible apply State.skAt_keeps
    | with_reducible apply State.skLong_keeps)

theorem execGzCmp_keeps {a s : State} {e : Nat} {g : BitVec 4} {seg : BitVec 4} {x1 : BitVec 5} {b : BitVec 5} {agree : Bool} (h : Keeps a s) :
    KeepsR a (execGzCmp e g seg x1 b agree s) := by
  unfold execGzCmp
  iterate 40 (try any_goals first | with_reducible assumption | with_reducible apply State.done_keeps | with_reducible apply State.skCompare_keeps)

theorem execCustomerExtension_keeps {a s : State} {e : Nat} {g : BitVec 4} {opc : BitVec 4} {imm : BitVec 20} (h : Keeps a s) :
    KeepsR a (execCustomerExtension e g opc imm s) := by
  unfold execCustomerExtension
  iterate 40 (try any_goals first
    | with_reducible assumption | intro _ | with_reducible apply State.done_keeps | with_reducible apply State.skAt_keeps
    | with_reducible apply State.skFault_keeps | with_reducible apply State.setEasel_keeps | split)

theorem State.cxEnd_keeps {a s : State} {e : Nat} {ans : Option Limb} (h : Keeps a s) : Keeps a (State.cxEnd s e ans) := by
  unfold State.cxEnd
  iterate 40 (try any_goals first
    | with_reducible assumption | intro _ | with_reducible apply State.setEasel_keeps | with_reducible apply State.skFault_keeps
    | with_reducible apply State.skBoundary_keeps | with_reducible apply State.addBusy_keeps | split
    | (refine Keeps.lit ?_ rfl rfl rfl rfl rfl rfl rfl rfl rfl rfl rfl))

theorem execCxResponse_keeps {a s : State} {e : Nat} {data : Limb} {err : Bool} (h : Keeps a s) : KeepsR a (execCxResponse e data err s) := by
  unfold execCxResponse
  iterate 40 (try any_goals first | with_reducible assumption | with_reducible apply State.done_keeps | with_reducible apply State.cxEnd_keeps)

theorem execCxTimeout_keeps {a s : State} {e : Nat} (h : Keeps a s) : KeepsR a (execCxTimeout e s) := by
  unfold execCxTimeout
  iterate 40 (try any_goals first | with_reducible assumption | with_reducible apply State.done_keeps | with_reducible apply State.cxEnd_keeps)

-- Machine/Entropy.lean -----------------------------------------------------------------------------------------------------------------

theorem State.entUpdate_keeps {a s : State} (h : Keeps a s) : Keeps a (State.entUpdate s) := by
  unfold State.entUpdate
  iterate 40 (try any_goals first
    | with_reducible assumption | with_reducible apply State.capture_keeps | with_reducible apply Keeps.ite
    | (refine Keeps.lit ?_ rfl rfl rfl rfl rfl rfl rfl rfl rfl rfl rfl))

theorem State.releaseWindows_keeps {a s : State} {ws : List Bytes} (h : Keeps a s) : Keeps a (State.releaseWindows s ws) := by
  unfold State.releaseWindows
  iterate 40 (try any_goals first
    | with_reducible assumption | with_reducible apply State.setReg_keeps | with_reducible apply Keeps.ite
    | (refine Keeps.lit ?_ rfl rfl rfl rfl rfl rfl rfl rfl rfl rfl rfl))

theorem State.tryRelease_keeps {a s : State} (h : Keeps a s) : Keeps a (State.tryRelease s) := by
  unfold State.tryRelease
  iterate 40 (try any_goals first | with_reducible assumption | with_reducible apply State.releaseWindows_keeps | with_reducible apply Keeps.ite)

theorem State.windowPass_keeps {a s : State} {w : Bytes} (h : Keeps a s) : Keeps a (State.windowPass s w) := by
  unfold State.windowPass
  iterate 40 (try any_goals first
    | with_reducible assumption | with_reducible apply State.releaseWindows_keeps | with_reducible apply Keeps.ite
    | (refine Keeps.lit ?_ rfl rfl rfl rfl rfl rfl rfl rfl rfl rfl rfl))

theorem State.discardWindow_keeps {a s : State} (h : Keeps a s) : Keeps a (State.discardWindow s) := by
  unfold State.discardWindow
  iterate 40 (try any_goals first
    | with_reducible assumption | with_reducible apply State.entWordEnd_keeps | with_reducible apply State.bumpSat_keeps)

theorem State.seam_keeps {a s : State} {i : Nat} (h : Keeps a s) : Keeps a (State.seam s i) := by
  unfold State.seam
  iterate 40 (try any_goals first | with_reducible assumption | with_reducible apply State.setSource_keeps)

theorem State.retireSource_keeps {a s : State} {i : Nat} (h : Keeps a s) : Keeps a (State.retireSource s i) := by
  unfold State.retireSource
  iterate 40 (try any_goals first
    | with_reducible assumption | with_reducible apply State.setSource_keeps | with_reducible apply State.markRetired_keeps
    | with_reducible apply State.seam_keeps | with_reducible apply State.tryRelease_keeps | with_reducible apply State.entUpdate_keeps
    | with_reducible apply Keeps.foldl)

theorem State.sourceFails_keeps {a s : State} {i : Nat} {n : Nat} (h : Keeps a s) : Keeps a (State.sourceFails s i n) := by
  unfold State.sourceFails
  iterate 40 (try any_goals first
    | with_reducible assumption
    | ((fail_if_success (conv => arg 2; fun)); ((fail_if_no_progress extract_lets +onlyGivenNames y); have hy : Keeps a y := ?_; (try clear_value y); rotate_left; try unfold y))
    | ((fail_if_success (conv => arg 2; fun)); fail_if_no_progress extract_lets +onlyGivenNames y) | with_reducible apply State.seam_keeps
    | with_reducible apply State.setSource_keeps | with_reducible apply State.retireSource_keeps | with_reducible apply State.entUpdate_keeps | split)

theorem State.healthFail_keeps {a s : State} {i : Nat} {n : Nat} (h : Keeps a s) : Keeps a (State.healthFail s i n) := by
  unfold State.healthFail
  iterate 40 (try any_goals first
    | with_reducible assumption | intro _ | with_reducible apply State.recover_keeps | with_reducible apply State.capture_keeps
    | with_reducible apply State.discardWindow_keeps | with_reducible apply State.sourceFails_keeps | split)

theorem State.windowEnd_keeps {a s : State} {k : Nat} {jit : BitVec 8192} {met : BitVec 8192} {pj : Nat} {pm : Nat} (h : Keeps a s) :
    Keeps a (State.windowEnd s k jit met pj pm) := by
  unfold State.windowEnd
  iterate 40 (try any_goals first
    | with_reducible assumption | intro _ | with_reducible apply State.setSource_keeps | with_reducible apply State.windowPass_keeps
    | with_reducible apply State.discardWindow_keeps | with_reducible apply State.recover_keeps | with_reducible apply State.capture_keeps
    | with_reducible apply State.sourceFails_keeps | split)

theorem State.startupPass_keeps {a s : State} {i : Nat} (h : Keeps a s) : Keeps a (State.startupPass s i) := by
  unfold State.startupPass
  iterate 40 (try any_goals first
    | with_reducible assumption | with_reducible apply State.tryRelease_keeps | with_reducible apply State.entUpdate_keeps
    | with_reducible apply State.setSource_keeps | with_reducible apply Keeps.ite)

theorem State.periodEnd_keeps {a s : State} {i : Nat} {n1 : Nat} {neq : Nat} {maxrun : Nat} {aptmax : Nat} (h : Keeps a s) :
    Keeps a (State.periodEnd s i n1 neq maxrun aptmax) := by
  unfold State.periodEnd
  iterate 40 (try any_goals first
    | with_reducible assumption | with_reducible apply State.setReg_keeps | with_reducible apply State.setSource_keeps
    | with_reducible apply State.healthFail_keeps | with_reducible apply Keeps.ite)

theorem State.startTimeout_keeps {a s : State} (h : Keeps a s) : Keeps a (State.startTimeout s) := by
  unfold State.startTimeout
  iterate 40 (try any_goals first
    | with_reducible assumption | intro _ | with_reducible apply State.sourceFails_keeps | with_reducible apply State.setSource_keeps
    | with_reducible apply State.tryRelease_keeps | with_reducible apply State.entUpdate_keeps | with_reducible apply Keeps.ite
    | with_reducible apply Keeps.foldl | (refine Keeps.lit ?_ rfl rfl rfl rfl rfl rfl rfl rfl rfl rfl rfl))

theorem State.waitTimeout_keeps {a s : State} {id : Nat} (h : Keeps a s) : Keeps a (State.waitTimeout s id) := by
  unfold State.waitTimeout
  iterate 40 (try any_goals first | with_reducible assumption | with_reducible apply State.fail_keeps | split)

theorem State.writeEntCtrl_keeps {a s : State} {v : Word} (h : Keeps a s) : KeepsO a (s.writeEntCtrl v) := by
  unfold State.writeEntCtrl
  refine KeepsO.ite (KeepsO.ite (KeepsO.some h) (KeepsO.some (State.entropyStart_keeps h))) (KeepsO.ite (KeepsO.some h) (KeepsO.some ?_))
  refine ⟨h.queue, fun ha => ?_⟩
  obtain ⟨⟨c0, c1, c2, c3, c4, c5, c6, c7, c8, c9, c10, c11⟩, k1, k2, k3, k4, k5, k6⟩ := h.sound ha
  exact ⟨⟨c0, c1, c2, c3, c4, c5, c6, wf_off c7, c8, c9, c10, c11⟩, k1, k2, k3, k4, k5, k6⟩

theorem State.rawStart_keeps {a s : State} {sel : Nat} (h : Keeps a s) : Keeps a (State.rawStart s sel) := by
  unfold State.rawStart
  iterate 40 (try any_goals first
    | with_reducible assumption | with_reducible apply State.setReg_keeps | with_reducible apply State.islWake_keeps
    | (refine Keeps.lit ?_ rfl rfl rfl rfl rfl rfl rfl rfl rfl rfl rfl))

theorem State.rawStop_keeps {a s : State} (h : Keeps a s) : Keeps a (State.rawStop s) := by
  unfold State.rawStop
  iterate 40 (try any_goals first
    | with_reducible assumption | with_reducible apply State.entUpdate_keeps | with_reducible apply State.startSource_keeps
    | with_reducible apply Keeps.foldl | (refine Keeps.lit ?_ rfl rfl rfl rfl rfl rfl rfl rfl rfl rfl rfl))

theorem State.writeRawCtrl_keeps {a s : State} {v : Word} (h : Keeps a s) : KeepsO a (State.writeRawCtrl s v) := by
  unfold State.writeRawCtrl
  iterate 40 (try any_goals first
    | with_reducible assumption | with_reducible apply State.rawStop_keeps | with_reducible apply State.rawStart_keeps
    | with_reducible apply State.setReg_keeps | with_reducible apply KeepsO.none | with_reducible apply KeepsO.some | with_reducible apply KeepsO.ite)

theorem State.rawBeat_keeps {a s : State} {data : BitVec 256} (h : Keeps a s) : Keeps a (State.rawBeat s data) := by
  unfold State.rawBeat
  iterate 40 (try any_goals first
    | with_reducible assumption | with_reducible apply State.halt_keeps | split | (refine Keeps.lit ?_ rfl rfl rfl rfl rfl rfl rfl rfl rfl rfl rfl))

theorem execEntropyWindowEnd_keeps {a s : State} {lane : Nat} {jit met : SourceWindow} (h : Keeps a s) :
    KeepsR a (execEntropyWindowEnd lane jit met s) := by
  unfold execEntropyWindowEnd
  iterate 40 (try any_goals first | with_reducible assumption | with_reducible apply State.done_keeps | with_reducible apply State.windowEnd_keeps)

theorem execSourceHealthFail_keeps {a s : State} {x : SourceSample} (h : Keeps a s) : KeepsR a (execSourceHealthFail x s) := by
  unfold execSourceHealthFail
  iterate 40 (try any_goals first
    | with_reducible assumption | with_reducible apply State.done_keeps | with_reducible apply State.healthFail_keeps)

theorem execSourceStartupPass_keeps {a s : State} {i : Nat} (h : Keeps a s) : KeepsR a (execSourceStartupPass i s) := by
  unfold execSourceStartupPass
  iterate 40 (try any_goals first
    | with_reducible assumption | with_reducible apply State.done_keeps | with_reducible apply State.startupPass_keeps)

theorem execEstimatePeriodEnd_keeps {a s : State} {i : Nat} {n1 : Nat} {neq : Nat} {maxrun : Nat} {aptmax : Nat} (h : Keeps a s) :
    KeepsR a (execEstimatePeriodEnd i n1 neq maxrun aptmax s) := by
  unfold execEstimatePeriodEnd
  iterate 40 (try any_goals first | with_reducible assumption | with_reducible apply State.done_keeps | with_reducible apply State.periodEnd_keeps)

theorem execEntropyStartTimeout_keeps {a s : State} (h : Keeps a s) : KeepsR a (execEntropyStartTimeout s) := by
  unfold execEntropyStartTimeout
  iterate 40 (try any_goals first
    | with_reducible assumption | with_reducible apply State.done_keeps | with_reducible apply State.startTimeout_keeps)

theorem execEntropyWaitTimeout_keeps {a s : State} {id : Nat} (h : Keeps a s) : KeepsR a (execEntropyWaitTimeout id s) := by
  unfold execEntropyWaitTimeout
  iterate 40 (try any_goals first
    | with_reducible assumption | with_reducible apply State.done_keeps | with_reducible apply State.waitTimeout_keeps)

theorem execEntWordTimeout_keeps {a s : State} (h : Keeps a s) : KeepsR a (execEntWordTimeout s) := by
  unfold execEntWordTimeout
  iterate 40 (try any_goals first
    | with_reducible assumption | with_reducible apply State.done_keeps | with_reducible apply State.entWordEnd_keeps)

theorem execEntropyEnable_keeps {a s : State} (h : Keeps a s) : KeepsR a (execEntropyEnable s) := by
  unfold execEntropyEnable
  iterate 40 (try any_goals first
    | with_reducible assumption | with_reducible apply State.done_keeps | with_reducible apply State.mgmt_keeps
    | with_reducible apply State.writeEntCtrl_keeps)

theorem execEntropyDisable_keeps {a s : State} (h : Keeps a s) : KeepsR a (execEntropyDisable s) := by
  unfold execEntropyDisable
  iterate 40 (try any_goals first
    | with_reducible assumption | with_reducible apply State.done_keeps | with_reducible apply State.mgmt_keeps
    | with_reducible apply State.writeEntCtrl_keeps)

theorem execRawModeEnter_keeps {a s : State} {sel : BitVec 4} (h : Keeps a s) : KeepsR a (execRawModeEnter sel s) := by
  unfold execRawModeEnter
  iterate 40 (try any_goals first
    | with_reducible assumption | with_reducible apply State.done_keeps | with_reducible apply State.mgmt_keeps
    | with_reducible apply State.writeRawCtrl_keeps)

theorem execRawModeExit_keeps {a s : State} {sel : BitVec 4} (h : Keeps a s) : KeepsR a (execRawModeExit sel s) := by
  unfold execRawModeExit
  iterate 40 (try any_goals first
    | with_reducible assumption | with_reducible apply State.done_keeps | with_reducible apply State.mgmt_keeps
    | with_reducible apply State.writeRawCtrl_keeps)

theorem execRawCaptureBeat_keeps {a s : State} {data : BitVec 256} (h : Keeps a s) : KeepsR a (execRawCaptureBeat data s) := by
  unfold execRawCaptureBeat
  iterate 40 (try any_goals first | with_reducible assumption | with_reducible apply State.done_keeps | with_reducible apply State.rawBeat_keeps)

-- Machine/SelfTest.lean ----------------------------------------------------------------------------------------------------------------

theorem State.serviceEntry_keeps {a s : State} (h : Keeps a s) : Keeps a (State.serviceEntry s) := by
  unfold State.serviceEntry
  iterate 40 (try any_goals first | with_reducible assumption | (refine Keeps.lit ?_ rfl rfl rfl rfl rfl rfl rfl rfl rfl rfl rfl))

theorem State.startAdvance_keeps {a s : State} (h : Keeps a s) : Keeps a (State.startAdvance s) := by
  unfold State.startAdvance
  iterate 40 (try any_goals first
    | with_reducible assumption | with_reducible apply Keeps.ite | (refine Keeps.lit ?_ rfl rfl rfl rfl rfl rfl rfl rfl rfl rfl rfl))

theorem State.testFails_keeps {a s : State} {u : Nat} (h : Keeps a s) : Keeps a (State.testFails s u) := by
  unfold State.testFails
  iterate 40 (try any_goals first
    | with_reducible assumption | intro _ | with_reducible apply State.capture_keeps | with_reducible apply State.recover_keeps
    | with_reducible apply State.retireUnit_keeps | with_reducible apply Keeps.ite)

theorem State.startTestEnd_keeps {a s : State} {u : Nat} {k : Nat} {sig : BitVec 128} (h : Keeps a s) : Keeps a (State.startTestEnd s u k sig) := by
  unfold State.startTestEnd
  iterate 40 (try any_goals first
    | with_reducible assumption | with_reducible apply State.startAdvance_keeps | with_reducible apply State.testFails_keeps
    | with_reducible apply Keeps.ite | (refine Keeps.lit ?_ rfl rfl rfl rfl rfl rfl rfl rfl rfl rfl rfl))

theorem State.testReturn_keeps {a s : State} {u : Nat} (h : Keeps a s) : Keeps a (State.testReturn s u) := by
  unfold State.testReturn
  iterate 40 (try any_goals first | with_reducible assumption | with_reducible apply State.setTest_keeps | with_reducible apply Keeps.ite)

theorem State.serviceTestEnd_keeps {a s : State} {u k : Nat} {sig : BitVec 128} (h : Keeps a s) : Keeps a (s.serviceTestEnd u k sig) := by
  unfold State.serviceTestEnd
  refine Keeps.ite h ?_
  have hn : ∀ o : Option Bist, Keeps a (match o with
      | none => s
      | some b => if s.sigGood u k sig then State.testReturn { s with bist := b } u else State.testFails { s with bist := b } u) := by
    intro o
    cases o with
    | none => exact h
    | some b =>
      have hb : Keeps a { s with bist := b } := Keeps.lit h rfl rfl rfl rfl rfl rfl rfl rfl rfl rfl rfl
      exact Keeps.ite (State.testReturn_keeps hb) (State.testFails_keeps hb)
  exact hn _

theorem State.testDone_keeps {a s : State} {u : Nat} {k : Nat} {sig : BitVec 128} (h : Keeps a s) : Keeps a (State.testDone s u k sig) := by
  unfold State.testDone
  iterate 40 (try any_goals first
    | with_reducible assumption | with_reducible apply State.startTestEnd_keeps | with_reducible apply State.serviceTestEnd_keeps
    | with_reducible apply Keeps.ite)

theorem State.rotation_keeps {a s : State} (h : Keeps a s) : Keeps a (State.rotation s) := by
  unfold State.rotation
  iterate 40 (try any_goals first | with_reducible assumption | with_reducible apply State.rotateNow_keeps | with_reducible apply Keeps.ite)

theorem State.fieldTest_keeps {a s : State} (h : Keeps a s) : Keeps a (State.fieldTest s) := by
  unfold State.fieldTest
  iterate 40 (try any_goals first
    | with_reducible assumption | with_reducible apply State.setTest_keeps | split
    | (refine Keeps.lit ?_ rfl rfl rfl rfl rfl rfl rfl rfl rfl rfl rfl))

theorem State.writeBistCmd_keeps {a s : State} {v : Word} (h : Keeps a s) : KeepsO a (State.writeBistCmd s v) := by
  unfold State.writeBistCmd
  iterate 40 (try any_goals first
    | with_reducible assumption | with_reducible apply State.setReg_keeps | with_reducible apply State.setTest_keeps
    | with_reducible apply KeepsO.none | with_reducible apply KeepsO.some | with_reducible apply KeepsO.ite
    | (refine Keeps.lit ?_ rfl rfl rfl rfl rfl rfl rfl rfl rfl rfl rfl))

theorem State.ageMeasure_keeps {a s : State} {u : Nat} {slack : Nat} (h : Keeps a s) : Keeps a (State.ageMeasure s u slack) := by
  unfold State.ageMeasure
  iterate 40 (try any_goals first
    | with_reducible assumption | with_reducible apply State.measure_keeps | with_reducible apply State.startAdvance_keeps
    | with_reducible apply Keeps.ite | (refine Keeps.lit ?_ rfl rfl rfl rfl rfl rfl rfl rfl rfl rfl rfl))

theorem State.writeAgeCtrl_keeps {a s : State} {v : Word} (h : Keeps a s) : Keeps a (State.writeAgeCtrl s v) := by
  unfold State.writeAgeCtrl
  iterate 40 (try any_goals first
    | with_reducible assumption | with_reducible apply State.vplanWrite_keeps | with_reducible apply Keeps.ite
    | (refine Keeps.lit ?_ rfl rfl rfl rfl rfl rfl rfl rfl rfl rfl rfl))

theorem State.lifeHour_keeps {a s : State} (h : Keeps a s) : Keeps a (State.lifeHour s) := by
  unfold State.lifeHour
  iterate 40 (try any_goals first | with_reducible assumption | with_reducible apply State.tlyWrite_keeps | with_reducible apply Keeps.ite)

theorem State.tlyStrike_keeps {a s : State} {i : Nat} (h : Keeps a s) : Keeps a (State.tlyStrike s i) := by
  unfold State.tlyStrike
  iterate 40 (try any_goals first
    | with_reducible assumption | intro _ | with_reducible apply State.injFired_keeps | with_reducible apply State.capture_keeps
    | with_reducible apply State.recover_keeps | with_reducible apply State.tlyRepair_keeps | with_reducible apply State.bumpSat_keeps
    | with_reducible apply Keeps.ite)

theorem State.tlySpoil_keeps {a s : State} {p : Nat × Bool} (h : Keeps a s) : Keeps a (s.tlySpoil p) := by
  unfold State.tlySpoil
  refine ⟨h.queue, fun ha => ?_⟩
  obtain ⟨⟨c0, c1, c2, c3, c4, c5, c6, c7, c8, c9, c10, c11⟩, k1, k2, k3, k4, k5, k6⟩ := h.sound ha
  exact ⟨⟨c0, c1, c2, c3, c4, c5, c6, c7, c8, wf_tset _ _ c9, c10, c11⟩, k1, k2, k3, k4, k5, k6⟩

theorem State.tlyScan_keeps {a s : State} {bad : List (Nat × Bool)} (h : Keeps a s) : Keeps a (State.tlyScan s bad) := by
  unfold State.tlyScan
  iterate 40 (try any_goals first
    | with_reducible assumption | with_reducible apply State.bgAsk_keeps | with_reducible apply State.bgDone_keeps
    | with_reducible apply State.tlyStrike_keeps | with_reducible apply State.tlySpoil_keeps | with_reducible apply State.tlyScanOne_keeps
    | with_reducible apply Keeps.ite | with_reducible apply Keeps.foldl)

theorem State.telemetry_keeps {a s : State} {f : Nat} (h : Keeps a s) : Keeps a (State.telemetry s f) := by
  unfold State.telemetry
  iterate 40 (try any_goals first
    | with_reducible assumption | intro _ | with_reducible apply State.setReg_keeps | with_reducible apply Keeps.ite
    | with_reducible apply Keeps.foldl)

theorem execSelfTestDone_keeps {a s : State} {unit : Nat} {kind : Sys2Proof.TestKind} {sig : BitVec 128} (h : Keeps a s) :
    KeepsR a (execSelfTestDone unit kind sig s) := by
  unfold execSelfTestDone
  iterate 40 (try any_goals first | with_reducible assumption | with_reducible apply State.done_keeps | with_reducible apply State.testDone_keeps)

theorem execRotation_keeps {a s : State} (h : Keeps a s) : KeepsR a (execRotation s) := by
  unfold execRotation
  iterate 40 (try any_goals first | with_reducible assumption | with_reducible apply State.done_keeps | with_reducible apply State.rotation_keeps)

theorem execFieldSelfTest_keeps {a s : State} (h : Keeps a s) : KeepsR a (execFieldSelfTest s) := by
  unfold execFieldSelfTest
  iterate 40 (try any_goals first | with_reducible assumption | with_reducible apply State.done_keeps | with_reducible apply State.fieldTest_keeps)

theorem execBistCommand_keeps {a s : State} {kind : BitVec 2} (h : Keeps a s) : KeepsR a (execBistCommand kind s) := by
  unfold execBistCommand
  iterate 40 (try any_goals first
    | with_reducible assumption | with_reducible apply State.done_keeps | with_reducible apply State.mgmt_keeps
    | with_reducible apply State.writeBistCmd_keeps)

theorem execAgeMeasurement_keeps {a s : State} {u : Nat} {slack : BitVec 10} (h : Keeps a s) : KeepsR a (execAgeMeasurement u slack s) := by
  unfold execAgeMeasurement
  iterate 40 (try any_goals first
    | with_reducible assumption | with_reducible apply State.done_keeps | with_reducible apply State.ageMeasure_keeps)

theorem execLifeHours_keeps {a s : State} (h : Keeps a s) : KeepsR a (execLifeHours s) := by
  unfold execLifeHours
  iterate 40 (try any_goals first | with_reducible assumption | with_reducible apply State.done_keeps | with_reducible apply State.lifeHour_keeps)

theorem execTallyScan_keeps {a s : State} {bad : List (Nat × Bool)} (h : Keeps a s) : KeepsR a (execTallyScan bad s) := by
  unfold execTallyScan
  iterate 40 (try any_goals first | with_reducible assumption | with_reducible apply State.done_keeps | with_reducible apply State.tlyScan_keeps)

theorem execTelemetrySnapshot_keeps {a s : State} {f : Nat} (h : Keeps a s) : KeepsR a (execTelemetrySnapshot f s) := by
  unfold execTelemetrySnapshot
  iterate 40 (try any_goals first | with_reducible assumption | with_reducible apply State.done_keeps | with_reducible apply State.telemetry_keeps)

theorem execVretry_keeps {a s : State} (h : Keeps a s) : KeepsR a (execVretry s) := by
  unfold execVretry
  iterate 40 (try any_goals first
    | with_reducible assumption | with_reducible apply State.done_keeps | with_reducible apply State.mgmt_keeps
    | with_reducible apply State.writeAgeCtrl_keeps | with_reducible apply KeepsO.some)

theorem execMeasureAll_keeps {a s : State} (h : Keeps a s) : KeepsR a (execMeasureAll s) := by
  unfold execMeasureAll
  iterate 40 (try any_goals first
    | with_reducible assumption | with_reducible apply State.done_keeps | with_reducible apply State.mgmt_keeps
    | with_reducible apply State.writeAgeCtrl_keeps | with_reducible apply KeepsO.some)

-- Machine/Faults.lean ------------------------------------------------------------------------------------------------------------------

theorem State.struck_keeps {a s : State} {src : Nat} (h : Keeps a s) : Keeps a (State.struck s src) := by
  unfold State.struck
  iterate 40 (try any_goals first | with_reducible assumption | with_reducible apply State.injFired_keeps | with_reducible apply Keeps.ite)

theorem State.laneMem_keeps {a s : State} {n : Nat} {src : Nat} {detail : Nat} {inj : Bool} (h : Keeps a s) :
    Keeps a (State.laneMem s n src detail inj) := by
  unfold State.laneMem
  iterate 40 (try any_goals first
    | with_reducible assumption | with_reducible apply State.failLane_keeps | with_reducible apply State.capture_keeps
    | with_reducible apply Keeps.ite)

theorem State.digMem_keeps {a s : State} {e : Nat} {detail : Nat} {inj : Bool} (h : Keeps a s) : Keeps a (State.digMem s e detail inj) := by
  unfold State.digMem
  iterate 40 (try any_goals first
    | with_reducible assumption | with_reducible apply State.failDig_keeps | with_reducible apply State.capture_keeps
    | with_reducible apply Keeps.ite)

theorem State.easelMem_keeps {a s : State} {e : Nat} {detail : Nat} {inj : Bool} (h : Keeps a s) : Keeps a (State.easelMem s e detail inj) := by
  unfold State.easelMem
  iterate 40 (try any_goals first
    | with_reducible assumption | ((fail_if_success (conv => arg 2; fun)); fail_if_no_progress extract_lets +onlyGivenNames y)
    | with_reducible apply State.failEasel_keeps | with_reducible apply State.setEasel_keeps | with_reducible apply State.capture_keeps | split)

theorem State.keyLost_keeps {a s : State} {idx : Nat} (h : Keeps a s) : Keeps a (State.keyLost s idx) := by
  unfold State.keyLost
  iterate 40 (try any_goals first | with_reducible assumption | (refine Keeps.lit ?_ rfl rfl rfl rfl rfl rfl rfl rfl rfl rfl rfl))

theorem State.tlyCorr_keeps {a s : State} {i : Nat} {inj : Bool} (h : Keeps a s) : Keeps a (State.tlyCorr s i inj) := by
  unfold State.tlyCorr
  iterate 40 (try any_goals first
    | with_reducible assumption | intro _ | with_reducible apply State.recover_keeps | with_reducible apply State.capture_keeps
    | with_reducible apply State.tlyRepair_keeps | with_reducible apply State.bumpSat_keeps)

theorem State.collectorEvent_keeps {a s : State} {src : Nat} {inj : Bool} (h : Keeps a s) : Keeps a (State.collectorEvent s src inj) := by
  unfold State.collectorEvent
  iterate 40 (try any_goals first
    | with_reducible assumption | with_reducible apply State.setReg_keeps | (refine Keeps.lit ?_ rfl rfl rfl rfl rfl rfl rfl rfl rfl rfl rfl))

theorem State.tallyOnlyHistory_keeps {a s : State} (h : Keeps a s) : Keeps a s.tallyOnlyHistory :=
  Keeps.tly h rfl (fun k => (List.length_filter_le _ _).trans k)

theorem State.snowDone_keeps {a s : State} (h : Keeps a s) : Keeps a (State.snowDone s) := by
  unfold State.snowDone
  iterate 40 (try any_goals first
    | with_reducible assumption | with_reducible apply State.allOff_keeps | with_reducible apply Keeps.ite
    | (refine Keeps.lit ?_ rfl rfl rfl rfl rfl rfl rfl rfl rfl rfl rfl))

theorem State.snowEnter_keeps {a s : State} (h : Keeps a s) : Keeps a s.snowEnter := by
  unfold State.snowEnter
  refine Keeps.ite h ?_
  have h1 := State.tlyStart_keeps (State.tallyOnlyHistory_keeps (State.wipe_keeps (State.endStall_error h)))
  refine State.snowDone_keeps ⟨h1.queue, fun ha => ?_⟩
  obtain ⟨⟨c0, c1, c2, c3, c4, c5, c6, c7, c8, c9, c10, c11⟩, k1, k2, k3, k4, k5, k6⟩ := h1.sound ha
  refine ⟨⟨c0, wf_filterMap _ c1 ?_, c2, c3, c4, c5, c6, c7, c8, c9, c10, c11⟩, k1, k2, k3.map _ (fun _ => rfl) (fun _ => rfl), k4.map _ (fun _ => rfl) (fun _ => rfl), k5, k6⟩
  intro e _ y hy
  dsimp only at hy
  split at hy
  · cases hy
  · next hn => cases hy; exact ⟨rfl, hn⟩

theorem State.countEvent_keeps {a s : State} {e : Event} (h : Keeps a s) : Keeps a (State.countEvent s e) := by
  unfold State.countEvent
  iterate 40 (try any_goals first | with_reducible assumption | with_reducible apply State.setReg_keeps)

theorem State.countPermanent_keeps {a s : State} {e : Event} (h : Keeps a s) : Keeps a (State.countPermanent s e) := by
  unfold State.countPermanent
  iterate 40 (try any_goals first
    | with_reducible assumption | ((fail_if_success (conv => arg 2; fun)); fail_if_no_progress extract_lets +onlyGivenNames y)
    | with_reducible apply State.retireUnit_keeps | split | (refine Keeps.lit ?_ rfl rfl rfl rfl rfl rfl rfl rfl rfl rfl rfl))

theorem State.latch_keeps {a s : State} {e : Event} (h : Keeps a s) : Keeps a (State.latch s e) := by
  unfold State.latch
  iterate 40 (try any_goals first
    | with_reducible assumption | ((fail_if_success (conv => arg 2; fun)); fail_if_no_progress extract_lets +onlyGivenNames y) | split
    | (refine Keeps.lit ?_ rfl rfl rfl rfl rfl rfl rfl rfl rfl rfl rfl))

theorem State.classifyOne_keeps {a s : State} {e : Event} (h : Keeps a s) : Keeps a (State.classifyOne s e) := by
  unfold State.classifyOne
  iterate 40 (try any_goals first
    | with_reducible assumption | with_reducible apply State.latch_keeps | with_reducible apply State.countEvent_keeps
    | with_reducible apply State.history_keeps | with_reducible apply State.countPermanent_keeps | with_reducible apply Keeps.ite
    | (refine Keeps.lit ?_ rfl rfl rfl rfl rfl rfl rfl rfl rfl rfl rfl))

theorem State.classify_keeps {a s : State} (h : Keeps a s) : Keeps a (State.classify s) := by
  unfold State.classify
  iterate 40 (try any_goals first
    | with_reducible assumption | with_reducible apply State.classifyOne_keeps | with_reducible apply State.snowEnter_keeps
    | with_reducible apply Keeps.ite | with_reducible apply Keeps.foldl | (refine Keeps.lit ?_ rfl rfl rfl rfl rfl rfl rfl rfl rfl rfl rfl))

theorem State.faultClassify_keeps {a s : State} (h : Keeps a s) : Keeps a (State.faultClassify s) := by
  unfold State.faultClassify
  iterate 40 (try any_goals first | with_reducible assumption | with_reducible apply State.classify_keeps | with_reducible apply Keeps.ite)

theorem State.collectorMismatch_keeps {a s : State} {src : Nat} {inj : Bool} (h : Keeps a s) : Keeps a (State.collectorMismatch s src inj) := by
  unfold State.collectorMismatch
  iterate 40 (try any_goals first
    | with_reducible assumption | with_reducible apply State.snowEnter_keeps | with_reducible apply State.history_keeps
    | with_reducible apply State.collectorEvent_keeps | with_reducible apply Keeps.ite
    | (refine Keeps.lit ?_ rfl rfl rfl rfl rfl rfl rfl rfl rfl rfl rfl))

theorem State.accessLost_keeps {a s : State} {p : Fin 2} {tag : Nat} {n : Nat} {inj : Bool} (h : Keeps a s) :
    Keeps a (State.accessLost s p tag n inj) := by
  unfold State.accessLost
  iterate 40 (try any_goals first
    | with_reducible assumption | ((fail_if_success (conv => arg 2; fun)); fail_if_no_progress extract_lets +onlyGivenNames y)
    | with_reducible apply State.accessError_keeps | with_reducible apply State.dropRead_keeps | with_reducible apply State.dropWrite_keeps
    | with_reducible apply State.capture_keeps | split)

theorem State.klEvent_keeps {a s : State} {src tag slot : Nat} {inj : Bool} (h : Keeps a s) : Keeps a (s.klEvent src tag slot inj) := by
  unfold State.klEvent
  have hc : Keeps a (s.capture src (if src ≤ 0x75 then slot else 0) tag inj) := State.capture_keeps h
  dsimp only
  split
  · exact hc
  · next k _ =>
    refine State.recover_keeps hc (fun v hv => ?_)
    have hk : Keeps a { v with kl := { v.kl with out := if src = 0x76 then v.kl.out.map (fun q => if q = k then { q with timedOut := true } else q)
                                                       else v.kl.out.erase k } } := by
      refine Keeps.kl hv (fun n => ?_)
      dsimp only
      split
      · rw [List.length_map]; exact n
      · exact (List.length_erase_le).trans n
    exact Keeps.ite (State.klRepeat_keeps hk) (State.klRefuse_keeps (Keeps.ite (State.bumpSat_keeps hk) hk))

theorem State.checker_keeps {a s : State} {src : Nat} {tag : Nat} {detail : Nat} {inj : Bool} {at_ : Nat} (h : Keeps a s) :
    Keeps a (State.checker s src tag detail inj at_) := by
  unfold State.checker
  iterate 40 (try any_goals first
    | with_reducible assumption | intro _ | with_reducible apply State.collectorMismatch_keeps | with_reducible apply State.capture_keeps
    | with_reducible apply State.portFault_keeps | with_reducible apply State.laneMem_keeps | with_reducible apply State.digMem_keeps
    | with_reducible apply State.easelMem_keeps | with_reducible apply State.retLate_keeps | with_reducible apply State.vstepLate_keeps
    | with_reducible apply State.accessLost_keeps | with_reducible apply State.healthFail_keeps | with_reducible apply State.recover_keeps
    | with_reducible apply State.retireSource_keeps | with_reducible apply State.klEvent_keeps | with_reducible apply State.halt_keeps
    | with_reducible apply State.bumpSat_keeps | with_reducible apply State.tlyCorr_keeps | with_reducible apply State.testFails_keeps
    | with_reducible apply State.retireUnit_keeps | with_reducible apply Keeps.ite | split
    | (refine Keeps.lit ?_ rfl rfl rfl rfl rfl rfl rfl rfl rfl rfl rfl))

theorem State.faultCapture_keeps {a s : State} {src : Nat} {tag : Nat} {detail : Nat} (h : Keeps a s) :
    Keeps a (State.faultCapture s src tag detail) := by
  unfold State.faultCapture
  iterate 40 (try any_goals first
    | with_reducible assumption | with_reducible apply State.checker_keeps | with_reducible apply State.struck_keeps | with_reducible apply Keeps.ite)

theorem State.checkWord_keeps {a s : State} {m : ScrubMem} {idx : Nat} {o : CheckOutcome} (h : Keeps a s) : Keeps a (s.checkWord m idx o) := by
  have hm : ∀ (u : State) (x : CheckOutcome) (inj : Bool), Keeps a u → Keeps a (match x with
      | .good => u
      | .correctable => (match (scrubSrc m).1 with
        | some c => u.capture c idx 31 inj
        | none => u)
      | .uncorrectable => u.checker (scrubSrc m).2 31 (idx % 0x10000) inj) := by
    intro u x inj hu
    cases x with
    | good => exact hu
    | correctable =>
      dsimp only
      split
      · exact State.capture_keeps hu
      · exact hu
    | uncorrectable => exact State.checker_keeps hu
  unfold State.checkWord
  exact hm _ _ _ (Keeps.ite (State.injFired_keeps h) h)

theorem State.scrubWord_keeps {a s : State} {m : Sys2Proof.ScrubMem} {idx : Nat} {o : Sys2Proof.CheckOutcome} (h : Keeps a s) :
    Keeps a (State.scrubWord s m idx o) := by
  unfold State.scrubWord
  iterate 40 (try any_goals first
    | with_reducible assumption | with_reducible apply State.bump_keeps | with_reducible apply State.checkWord_keeps | with_reducible apply Keeps.ite
    | (refine Keeps.lit ?_ rfl rfl rfl rfl rfl rfl rfl rfl rfl rfl rfl))

theorem State.checkKept_keeps {a s : State} {i : Nat} (h : Keeps a s) : Keeps a (State.checkKept s i) := by
  unfold State.checkKept
  iterate 40 (try any_goals first
    | with_reducible assumption | with_reducible apply State.checkWord_keeps | with_reducible apply State.setIsl_keeps
    | with_reducible apply Keeps.ite)

theorem State.fireAtOnce_keeps {a s : State} (h : Keeps a s) : Keeps a (State.fireAtOnce s) := by
  unfold State.fireAtOnce
  iterate 40 (try any_goals first
    | with_reducible assumption | with_reducible apply State.capture_keeps | with_reducible apply State.injFired_keeps
    | with_reducible apply State.collectorMismatch_keeps | with_reducible apply Keeps.ite)

theorem State.writeFltInj_keeps {a s : State} {v : Word} (h : Keeps a s) : KeepsO a (State.writeFltInj s v) := by
  unfold State.writeFltInj
  iterate 40 (try any_goals first
    | with_reducible assumption | with_reducible apply State.setReg_keeps | with_reducible apply State.fireAtOnce_keeps
    | with_reducible apply KeepsO.none | with_reducible apply KeepsO.some | with_reducible apply KeepsO.ite
    | (refine Keeps.lit ?_ rfl rfl rfl rfl rfl rfl rfl rfl rfl rfl rfl))

theorem State.writeFltCtrl_keeps {a s : State} {v : Word} (h : Keeps a s) : Keeps a (State.writeFltCtrl s v) := by
  unfold State.writeFltCtrl
  iterate 40 (try any_goals first
    | with_reducible assumption | with_reducible apply Keeps.ite | (refine Keeps.lit ?_ rfl rfl rfl rfl rfl rfl rfl rfl rfl rfl rfl))

theorem State.writeFltPend_keeps {a s : State} {v : Word} (h : Keeps a s) : Keeps a (State.writeFltPend s v) := by
  unfold State.writeFltPend
  iterate 40 (try any_goals first | with_reducible assumption | (refine Keeps.lit ?_ rfl rfl rfl rfl rfl rfl rfl rfl rfl rfl rfl))

theorem execScrub_keeps {a s : State} {m : Sys2Proof.ScrubMem} {idx : Nat} {o : Sys2Proof.CheckOutcome} (h : Keeps a s) :
    KeepsR a (execScrub m idx o s) := by
  unfold execScrub
  iterate 40 (try any_goals first | with_reducible assumption | with_reducible apply State.done_keeps | with_reducible apply State.scrubWord_keeps)

theorem execRetentionAck_keeps {a s : State} {i : Sys2Proof.Island} {v : Bool} (h : Keeps a s) : KeepsR a (execRetentionAck i v s) := by
  unfold execRetentionAck
  iterate 40 (try any_goals first
    | with_reducible assumption | with_reducible apply State.done_keeps | with_reducible apply State.initAdvance_keeps
    | with_reducible apply State.checkKept_keeps | with_reducible apply State.retAck_keeps)

theorem execTallyWriteDurable_keeps {a s : State} (h : Keeps a s) : KeepsR a (execTallyWriteDurable s) := by
  unfold execTallyWriteDurable
  iterate 40 (try any_goals first
    | with_reducible assumption | with_reducible apply State.done_keeps | with_reducible apply State.snowDone_keeps
    | with_reducible apply State.tlyDurable_keeps)

theorem execFaultCapture_keeps {a s : State} {src : BitVec 8} {tag : BitVec 5} {detail : BitVec 16} (h : Keeps a s) :
    KeepsR a (execFaultCapture src tag detail s) := by
  unfold execFaultCapture
  iterate 40 (try any_goals first
    | with_reducible assumption | with_reducible apply State.done_keeps | with_reducible apply State.faultCapture_keeps)

theorem execFaultClassify_keeps {a s : State} (h : Keeps a s) : KeepsR a (execFaultClassify s) := by
  unfold execFaultClassify
  iterate 40 (try any_goals first
    | with_reducible assumption | with_reducible apply State.done_keeps | with_reducible apply State.faultClassify_keeps)

theorem execCollectorMismatch_keeps {a s : State} {logic : Bool} (h : Keeps a s) : KeepsR a (execCollectorMismatch logic s) := by
  unfold execCollectorMismatch
  iterate 40 (try any_goals first
    | with_reducible assumption | with_reducible apply State.done_keeps | with_reducible apply State.collectorMismatch_keeps
    | with_reducible apply State.struck_keeps)

theorem execFaultPendingClear_keeps {a s : State} {v : Word} (h : Keeps a s) : KeepsR a (execFaultPendingClear v s) := by
  unfold execFaultPendingClear
  iterate 40 (try any_goals first
    | with_reducible assumption | with_reducible apply State.done_keeps | with_reducible apply State.mgmt_keeps
    | with_reducible apply State.writeFltPend_keeps | with_reducible apply KeepsO.some)

theorem execRearm_keeps {a s : State} (h : Keeps a s) : KeepsR a (execRearm s) := by
  unfold execRearm
  iterate 40 (try any_goals first
    | with_reducible assumption | with_reducible apply State.done_keeps | with_reducible apply State.mgmt_keeps
    | with_reducible apply State.writeFltCtrl_keeps | with_reducible apply KeepsO.some)

theorem execFaultInjectArm_keeps {a s : State} {v : Word} (h : Keeps a s) : KeepsR a (execFaultInjectArm v s) := by
  unfold execFaultInjectArm
  iterate 40 (try any_goals first
    | with_reducible assumption | with_reducible apply State.done_keeps | with_reducible apply State.mgmt_keeps
    | with_reducible apply State.writeFltInj_keeps)

-- Machine/Regs.lean --------------------------------------------------------------------------------------------------------------------

theorem State.cntCtrl_keeps {a s : State} {c : RegName} {i : Nat} {v : Word} (h : Keeps a s) : Keeps a (State.cntCtrl s c i v) := by
  unfold State.cntCtrl
  iterate 40 (try any_goals first
    | with_reducible assumption | intro _ | with_reducible apply State.setReg_keeps | with_reducible apply Keeps.ite
    | with_reducible apply Keeps.foldl | (refine Keeps.lit ?_ rfl rfl rfl rfl rfl rfl rfl rfl rfl rfl rfl))

theorem State.groupRead_keeps {a s : State} {g : Nat} {j : Nat} (h : Keeps a s) : KeepsP a (State.groupRead s g j) := by
  unfold State.groupRead
  iterate 40 (try any_goals first | with_reducible assumption | with_reducible apply State.setReg_keeps | split | with_reducible apply KeepsP.pair)

theorem State.groupWrite_keeps {a s : State} {g : Nat} {j : Nat} {v : Word} (h : Keeps a s) : Keeps a (State.groupWrite s g j v) := by
  unfold State.groupWrite
  iterate 40 (try any_goals first
    | with_reducible assumption | intro _ | with_reducible apply State.cntCtrl_keeps | with_reducible apply Keeps.ite
    | with_reducible apply Keeps.foldl)

theorem State.regStrike_keeps {a s : State} {n : RegName} (h : Keeps a s) : Keeps a (State.regStrike s n) := by
  unfold State.regStrike
  iterate 40 (try any_goals first
    | with_reducible assumption | with_reducible apply State.capture_keeps | with_reducible apply State.injFired_keeps | split)

theorem State.readReg_keeps {a s : State} {r : Reg} (h : Keeps a s) : KeepsP a (State.readReg s r) := by
  unfold State.readReg
  iterate 40 (try any_goals first
    | with_reducible assumption | with_reducible apply State.groupRead_keeps | with_reducible apply State.setReg_keeps
    | with_reducible apply State.tlyStrike_keeps | with_reducible apply State.regStrike_keeps | split | with_reducible apply KeepsP.pair)

theorem State.doRead_keeps {a s : State} {r : Reg} (h : Keeps a s) : Keeps a (State.doRead s r) := by
  unfold State.doRead
  iterate 40 (try any_goals first
    | with_reducible assumption | with_reducible apply State.refuse_keeps | with_reducible apply State.fenceRead_keeps
    | with_reducible apply State.entWordRead_keeps | with_reducible refine (State.readReg_keeps ?_).eq (by assumption)
    | with_reducible apply State.respond_ok | split)

theorem State.regRead_keeps {a s : State} {addr : Nat} {size : Nat} (h : Keeps a s) : Keeps a (State.regRead s addr size) := by
  unfold State.regRead
  iterate 40 (try any_goals first
    | with_reducible assumption | with_reducible apply State.present_keeps | with_reducible apply State.refuse_keeps
    | with_reducible apply State.doRead_keeps | split)

theorem State.store_keeps {a s : State} {r : Reg} {v : Word} (h : Keeps a s) : Keeps a (State.store s r v) := by
  unfold State.store
  iterate 40 (try any_goals first | with_reducible assumption | with_reducible apply State.setReg_keeps)

theorem State.locked_keeps {a s : State} {r : Reg} {v : Word} {lock : Bool} (h : Keeps a s) : KeepsO a (State.locked s r v lock) := by
  unfold State.locked
  iterate 40 (try any_goals first
    | with_reducible assumption | with_reducible apply State.store_keeps | with_reducible apply KeepsO.none | with_reducible apply KeepsO.some
    | with_reducible apply KeepsO.ite)

theorem State.writeConfig_keeps {a s : State} {r : Reg} {v : Word} (h : Keeps a s) : KeepsO a (State.writeConfig s r v) := by
  unfold State.writeConfig
  iterate 40 (try any_goals first
    | with_reducible assumption | with_reducible apply State.locked_keeps | with_reducible apply KeepsO.some | with_reducible apply KeepsO.ite)

theorem State.writeRingCfg_keeps {a s : State} {f : Nat} {n : Nat} {v : Word} (h : Keeps a s) : KeepsO a (State.writeRingCfg s f n v) := by
  unfold State.writeRingCfg
  iterate 40 (try any_goals first
    | with_reducible assumption | with_reducible apply State.store_keeps | with_reducible apply State.setRing_keeps | with_reducible apply KeepsO.none
    | with_reducible apply KeepsO.some | with_reducible apply KeepsO.ite)

theorem State.meterReset_keeps {a s : State} {f : Nat} {n : Nat} (h : Keeps a s) : Keeps a (State.meterReset s f n) := by
  unfold State.meterReset
  iterate 40 (try any_goals first | with_reducible assumption | with_reducible apply State.setRing_keeps)

theorem State.writeMeter_keeps {a s : State} {f : Nat} {n : Nat} {r : Sys2Proof.MeterReg} {v : Word} (h : Keeps a s) :
    KeepsO a (State.writeMeter s f n r v) := by
  unfold State.writeMeter
  iterate 40 (try any_goals first
    | with_reducible assumption | with_reducible apply State.meterReset_keeps | with_reducible apply State.store_keeps
    | with_reducible apply KeepsO.none | with_reducible apply KeepsO.some | split)

theorem State.writeGateCtrl_keeps {a s : State} {v : Word} (h : Keeps a s) : KeepsO a (State.writeGateCtrl s v) := by
  unfold State.writeGateCtrl
  iterate 40 (try any_goals first
    | with_reducible assumption | with_reducible apply State.store_keeps | with_reducible apply KeepsO.none | with_reducible apply KeepsO.some
    | with_reducible apply KeepsO.ite | (refine Keeps.lit ?_ rfl rfl rfl rfl rfl rfl rfl rfl rfl rfl rfl))

theorem State.tableDisable_keeps {a s : State} (h : Keeps a s) : Keeps a (State.tableDisable s) := by
  unfold State.tableDisable
  iterate 40 (try any_goals first
    | with_reducible assumption | with_reducible apply State.deny_keeps | with_reducible apply Keeps.foldl
    | (refine Keeps.lit ?_ rfl rfl rfl rfl rfl rfl rfl rfl rfl rfl rfl))

theorem State.genAdvance_keeps {a s : State} (h : Keeps a s) : Keeps a (State.genAdvance s) := by
  unfold State.genAdvance
  iterate 40 (try any_goals first
    | with_reducible assumption | with_reducible apply State.capture_keeps | with_reducible apply State.tlyWrite_keeps
    | with_reducible apply Keeps.ite | (refine Keeps.lit ?_ rfl rfl rfl rfl rfl rfl rfl rfl rfl rfl rfl))

theorem State.writeTableCtrl_keeps {a s : State} {v : Word} (h : Keeps a s) : KeepsO a (State.writeTableCtrl s v) := by
  unfold State.writeTableCtrl
  iterate 40 (try any_goals first
    | with_reducible assumption | with_reducible apply State.genAdvance_keeps | with_reducible apply State.tableDisable_keeps
    | with_reducible apply KeepsO.none | with_reducible apply KeepsO.some | with_reducible apply KeepsO.ite
    | (refine Keeps.lit ?_ rfl rfl rfl rfl rfl rfl rfl rfl rfl rfl rfl))

theorem State.writeKlCtrl_keeps {a s : State} {v : Word} (h : Keeps a s) : KeepsO a (State.writeKlCtrl s v) := by
  unfold State.writeKlCtrl
  iterate 40 (try any_goals first
    | with_reducible assumption | with_reducible apply State.store_keeps | with_reducible apply KeepsO.none | with_reducible apply KeepsO.some
    | with_reducible apply KeepsO.ite | (refine Keeps.lit ?_ rfl rfl rfl rfl rfl rfl rfl rfl rfl rfl rfl))

theorem State.writeGalExt_keeps {a s : State} {v : Word} (h : Keeps a s) : KeepsO a (s.writeGalExt v) := by
  have hm : ∀ o : Option Bytes, KeepsO a (match o with
      | none => none
      | some x =>
        if fld v 20 16 < 4 ∨ 30 < fld v 20 16 then none
        else some (({ (s.store ⟨.galExtCtrl, 0, 0⟩ v) with gal := { s.gal with ext := [(fld v 20 16, x)] } } : State).islWake 9)) := by
    intro o
    cases o with
    | none => exact KeepsO.none
    | some x =>
      refine KeepsO.ite KeepsO.none (KeepsO.some (State.islWake_keeps ?_))
      exact Keeps.lit (State.store_keeps h) rfl rfl rfl rfl rfl rfl rfl rfl rfl rfl rfl
  unfold State.writeGalExt
  exact KeepsO.ite KeepsO.none (KeepsO.ite (KeepsO.some (State.store_keeps h)) (hm _))

theorem State.writeTly_keeps {a s : State} {i : Nat} {v : Word} (h : Keeps a s) : KeepsO a (State.writeTly s i v) := by
  unfold State.writeTly
  iterate 40 (try any_goals first
    | with_reducible assumption | with_reducible apply State.tlyWrite_keeps | with_reducible apply KeepsO.none | with_reducible apply KeepsO.some
    | with_reducible apply KeepsO.ite)

theorem State.writeReset_keeps {a s : State} {f : Nat} {v : Word} (h : Keeps a s) : Keeps a (State.writeReset s f v) := by
  unfold State.writeReset
  iterate 40 (try any_goals first | with_reducible assumption | with_reducible apply State.startReset_keeps | with_reducible apply Keeps.ite)

theorem State.writeMgmt_keeps {a s : State} {r : Reg} {v : Word} (h : Keeps a s) : KeepsO a (State.writeMgmt s r v) := by
  unfold State.writeMgmt
  iterate 40 (try any_goals first
    | with_reducible assumption | with_reducible apply State.deepRequest_keeps | with_reducible apply State.writeFnCfg_keeps
    | with_reducible apply State.writeConfig_keeps | with_reducible apply State.writeReset_keeps | with_reducible apply State.writeFltCtrl_keeps
    | with_reducible apply State.writeFltPend_keeps | with_reducible apply State.writeFltInj_keeps | with_reducible apply State.store_keeps
    | with_reducible apply State.writeTly_keeps | with_reducible apply State.locked_keeps | with_reducible apply State.writeGalExt_keeps
    | with_reducible apply State.writeEntCtrl_keeps | with_reducible apply State.writeRawCtrl_keeps | with_reducible apply State.cntCtrl_keeps
    | with_reducible apply State.setReg_keeps | with_reducible apply State.groupWrite_keeps | with_reducible apply State.writeGateCtrl_keeps
    | with_reducible apply State.writeMeter_keeps | with_reducible apply State.writeTableCtrl_keeps | with_reducible apply State.writeKlCtrl_keeps
    | with_reducible apply State.writeBistCmd_keeps | with_reducible apply State.writeAgeCtrl_keeps | with_reducible apply KeepsO.none
    | with_reducible apply KeepsO.some | split)

theorem State.writeRunning_keeps {a s : State} {r : Reg} {v : Word} (h : Keeps a s) : KeepsO a (State.writeRunning s r v) := by
  unfold State.writeRunning
  iterate 40 (try any_goals first
    | with_reducible assumption | with_reducible apply State.locked_keeps | with_reducible apply State.writeRingCfg_keeps
    | with_reducible apply State.bell_keeps | with_reducible apply State.writeReset_keeps | with_reducible apply State.writePm_keeps
    | with_reducible apply State.writeMeter_keeps | with_reducible apply State.store_keeps | with_reducible apply KeepsO.some | split)

theorem State.writeWin_keeps {a s : State} {r : Reg} {v : Word} (h : Keeps a s) : KeepsO a (State.writeWin s r v) := by
  unfold State.writeWin
  iterate 40 (try any_goals first
    | with_reducible assumption | with_reducible apply State.writeReset_keeps | with_reducible apply State.writeRunning_keeps
    | with_reducible apply KeepsO.none | with_reducible apply KeepsO.some | with_reducible apply KeepsO.ite)

theorem State.writeReg_keeps {a s : State} {r : Reg} {v : Word} (h : Keeps a s) : KeepsO a (State.writeReg s r v) := by
  unfold State.writeReg
  iterate 40 (try any_goals first
    | with_reducible assumption | with_reducible apply State.writeWin_keeps | with_reducible apply State.writeMgmt_keeps
    | with_reducible apply KeepsO.ite)

theorem State.put_keeps {a s : State} {r : Reg} {v : Word} (h : Keeps a s) : Keeps a (State.put s r v) := by
  unfold State.put
  iterate 40 (try any_goals first
    | with_reducible assumption | with_reducible apply State.refuse_keeps | with_reducible apply State.capture_keeps
    | with_reducible apply State.mgmt_keeps | with_reducible apply State.writeReg_keeps | with_reducible apply Keeps.ite
    | (refine Keeps.lit ?_ rfl rfl rfl rfl rfl rfl rfl rfl rfl rfl rfl))

theorem State.regWrite_keeps {a s : State} {addr : Nat} {size : Nat} {v : Word} (h : Keeps a s) : Keeps a (State.regWrite s addr size v) := by
  unfold State.regWrite
  iterate 40 (try any_goals first
    | with_reducible assumption | with_reducible apply State.put_keeps | with_reducible apply State.mgmt_keeps | with_reducible apply KeepsO.none
    | split)

-- Machine/RegCmds.lean -----------------------------------------------------------------------------------------------------------------

theorem State.get_keeps {a s : State} {r : Reg} (h : Keeps a s) : Keeps a (State.get s r) := by
  unfold State.get
  iterate 40 (try any_goals first
    | with_reducible assumption | with_reducible apply State.present_keeps | with_reducible apply State.doRead_keeps | with_reducible apply Keeps.ite)

theorem execDoorbell_keeps {a s : State} {f : Nat} {n : Nat} {v : Word} (h : Keeps a s) : KeepsR a (execDoorbell f n v s) := by
  unfold execDoorbell
  iterate 40 (try any_goals first | with_reducible assumption | with_reducible apply State.done_keeps | with_reducible apply State.put_keeps)

theorem execFunctionEnable_keeps {a s : State} {f : Nat} (h : Keeps a s) : KeepsR a (execFunctionEnable f s) := by
  unfold execFunctionEnable
  iterate 40 (try any_goals first | with_reducible assumption | with_reducible apply State.done_keeps | with_reducible apply State.put_keeps)

theorem execFunctionDisable_keeps {a s : State} {f : Nat} (h : Keeps a s) : KeepsR a (execFunctionDisable f s) := by
  unfold execFunctionDisable
  iterate 40 (try any_goals first | with_reducible assumption | with_reducible apply State.done_keeps | with_reducible apply State.put_keeps)

theorem execEpochBump_keeps {a s : State} {f : Nat} (h : Keeps a s) : KeepsR a (execEpochBump f s) := by
  unfold execEpochBump
  iterate 40 (try any_goals first | with_reducible assumption | with_reducible apply State.done_keeps | with_reducible apply State.put_keeps)

theorem execFunctionReset_keeps {a s : State} {f : Nat} {byM : Bool} (h : Keeps a s) : KeepsR a (execFunctionReset f byM s) := by
  unfold execFunctionReset
  iterate 40 (try any_goals first | with_reducible assumption | with_reducible apply State.done_keeps | with_reducible apply State.put_keeps)

theorem execFnPmSleep_keeps {a s : State} {f : Nat} (h : Keeps a s) : KeepsR a (execFnPmSleep f s) := by
  unfold execFnPmSleep
  iterate 40 (try any_goals first | with_reducible assumption | with_reducible apply State.done_keeps | with_reducible apply State.put_keeps)

theorem execFnPmRun_keeps {a s : State} {f : Nat} (h : Keeps a s) : KeepsR a (execFnPmRun f s) := by
  unfold execFnPmRun
  iterate 40 (try any_goals first | with_reducible assumption | with_reducible apply State.done_keeps | with_reducible apply State.put_keeps)

theorem execFnFence_keeps {a s : State} {f : Nat} (h : Keeps a s) : KeepsR a (execFnFence f s) := by
  unfold execFnFence
  iterate 40 (try any_goals first | with_reducible assumption | with_reducible apply State.done_keeps | with_reducible apply State.get_keeps)

theorem execEntWord_keeps {a s : State} {f : Nat} (h : Keeps a s) : KeepsR a (execEntWord f s) := by
  unfold execEntWord
  iterate 40 (try any_goals first | with_reducible assumption | with_reducible apply State.done_keeps | with_reducible apply State.get_keeps)

theorem execRingEnable_keeps {a s : State} {f : Nat} {n : Nat} {v : Word} (h : Keeps a s) : KeepsR a (execRingEnable f n v s) := by
  unfold execRingEnable
  iterate 40 (try any_goals first | with_reducible assumption | with_reducible apply State.done_keeps | with_reducible apply State.put_keeps)

theorem execRingIrqWrite_keeps {a s : State} {f : Nat} {n : Nat} {v : Word} (h : Keeps a s) : KeepsR a (execRingIrqWrite f n v s) := by
  unfold execRingIrqWrite
  iterate 40 (try any_goals first | with_reducible assumption | with_reducible apply State.done_keeps | with_reducible apply State.put_keeps)

theorem execVectorUnmask_keeps {a s : State} {f : Nat} {v : Nat} (h : Keeps a s) : KeepsR a (execVectorUnmask f v s) := by
  unfold execVectorUnmask
  iterate 40 (try any_goals first | with_reducible assumption | with_reducible apply State.done_keeps | with_reducible apply State.put_keeps)

theorem execMeterConfigWrite_keeps {a s : State} {f : Nat} {n : Nat} {viaAlias : Bool} {r : Sys2Proof.MeterReg} {v : Word} (h : Keeps a s) :
    KeepsR a (execMeterConfigWrite f n viaAlias r v s) := by
  unfold execMeterConfigWrite
  iterate 40 (try any_goals first | with_reducible assumption | with_reducible apply State.done_keeps | with_reducible apply State.put_keeps)

theorem execDeepSleepRequest_keeps {a s : State} (h : Keeps a s) : KeepsR a (execDeepSleepRequest s) := by
  unfold execDeepSleepRequest
  iterate 40 (try any_goals first | with_reducible assumption | with_reducible apply State.done_keeps | with_reducible apply State.put_keeps)

theorem execGateSwap_keeps {a s : State} {v : Word} (h : Keeps a s) : KeepsR a (execGateSwap v s) := by
  unfold execGateSwap
  iterate 40 (try any_goals first | with_reducible assumption | with_reducible apply State.done_keeps | with_reducible apply State.put_keeps)

theorem execCtxTableEnable_keeps {a s : State} (h : Keeps a s) : KeepsR a (execCtxTableEnable s) := by
  unfold execCtxTableEnable
  iterate 40 (try any_goals first | with_reducible assumption | with_reducible apply State.done_keeps | with_reducible apply State.put_keeps)

theorem execCtxTableDisable_keeps {a s : State} (h : Keeps a s) : KeepsR a (execCtxTableDisable s) := by
  unfold execCtxTableDisable
  iterate 40 (try any_goals first | with_reducible assumption | with_reducible apply State.done_keeps | with_reducible apply State.put_keeps)

theorem execGenBump_keeps {a s : State} (h : Keeps a s) : KeepsR a (execGenBump s) := by
  unfold execGenBump
  iterate 40 (try any_goals first | with_reducible assumption | with_reducible apply State.done_keeps | with_reducible apply State.put_keeps)

theorem execKeyInvalidate_keeps {a s : State} {v : Word} (h : Keeps a s) : KeepsR a (execKeyInvalidate v s) := by
  unfold execKeyInvalidate
  iterate 40 (try any_goals first | with_reducible assumption | with_reducible apply State.done_keeps | with_reducible apply State.put_keeps)

theorem execGalleryExtend_keeps {a s : State} {v : Word} (h : Keeps a s) : KeepsR a (execGalleryExtend v s) := by
  unfold execGalleryExtend
  iterate 40 (try any_goals first | with_reducible assumption | with_reducible apply State.done_keeps | with_reducible apply State.put_keeps)

theorem execReadClearCounter_keeps {a s : State} {addr : BitVec 24} (h : Keeps a s) : KeepsR a (execReadClearCounter addr s) := by
  unfold execReadClearCounter
  iterate 40 (try any_goals first | with_reducible assumption | with_reducible apply State.done_keeps | with_reducible apply State.regRead_keeps)

theorem execLaneCounterClear_keeps {a s : State} {n : Nat} {freeze : Bool} (h : Keeps a s) : KeepsR a (execLaneCounterClear n freeze s) := by
  unfold execLaneCounterClear
  iterate 40 (try any_goals first | with_reducible assumption | with_reducible apply State.done_keeps | with_reducible apply State.put_keeps)

theorem execDigestCounterClear_keeps {a s : State} {e : Nat} {freeze : Bool} (h : Keeps a s) : KeepsR a (execDigestCounterClear e freeze s) := by
  unfold execDigestCounterClear
  iterate 40 (try any_goals first | with_reducible assumption | with_reducible apply State.done_keeps | with_reducible apply State.put_keeps)

theorem execEaselCounterClear_keeps {a s : State} {e : Nat} {freeze : Bool} (h : Keeps a s) : KeepsR a (execEaselCounterClear e freeze s) := by
  unfold execEaselCounterClear
  iterate 40 (try any_goals first | with_reducible assumption | with_reducible apply State.done_keeps | with_reducible apply State.put_keeps)

theorem execLaneGroupWrite_keeps {a s : State} {w : Sys2Proof.GroupWin} {off : BitVec 10} {v : Word} (h : Keeps a s) :
    KeepsR a (execLaneGroupWrite w off v s) := by
  unfold execLaneGroupWrite
  iterate 40 (try any_goals first | with_reducible assumption | with_reducible apply State.done_keeps | with_reducible apply State.regWrite_keeps)

theorem execLaneGroupRead_keeps {a s : State} {w : Sys2Proof.GroupWin} {off : BitVec 10} (h : Keeps a s) : KeepsR a (execLaneGroupRead w off s) := by
  unfold execLaneGroupRead
  iterate 40 (try any_goals first | with_reducible assumption | with_reducible apply State.done_keeps | with_reducible apply State.regRead_keeps)

theorem execTallyRegisterWrite_keeps {a s : State} {i : Nat} {v : Word} (h : Keeps a s) : KeepsR a (execTallyRegisterWrite i v s) := by
  unfold execTallyRegisterWrite
  iterate 40 (try any_goals first | with_reducible assumption | with_reducible apply State.done_keeps | with_reducible apply State.put_keeps)

theorem execRegisterWrite_keeps {a s : State} {addr : BitVec 24} {size : BitVec 2} {v : Word} (h : Keeps a s) :
    KeepsR a (execRegisterWrite addr size v s) := by
  unfold execRegisterWrite
  iterate 40 (try any_goals first | with_reducible assumption | with_reducible apply State.done_keeps | with_reducible apply State.regWrite_keeps)

theorem State.galDone_keeps {a s : State} (h : Keeps a s) : Keeps a (State.galDone s) := by
  unfold State.galDone
  iterate 40 (try any_goals first
    | with_reducible assumption | with_reducible apply State.galExtend_keeps | with_reducible apply State.digRun_keeps | split
    | (refine Keeps.lit ?_ rfl rfl rfl rfl rfl rfl rfl rfl rfl rfl rfl))

theorem execGalleryExtendComplete_keeps {a s : State} (h : Keeps a s) : KeepsR a (execGalleryExtendComplete s) := by
  unfold execGalleryExtendComplete
  iterate 40 (try any_goals first
    | with_reducible assumption | with_reducible apply State.done_keeps | with_reducible apply State.galDone_keeps
    | with_reducible apply KeepsR.mkNext)

-- Machine/RingCmds.lean ----------------------------------------------------------------------------------------------------------------

theorem State.refillRing_keeps {a s : State} {p : Nat × Nat} (h : Keeps a s) : Keeps a (State.refillRing s p) := by
  obtain ⟨p1, p2⟩ := p
  unfold State.refillRing
  iterate 40 (try any_goals first | with_reducible assumption | with_reducible apply State.setRing_keeps)

theorem execMeterRefill_keeps {a s : State} (h : Keeps a s) : KeepsR a (execMeterRefill s) := by
  unfold execMeterRefill
  iterate 40 (try any_goals first
    | with_reducible assumption | with_reducible apply State.done_keeps | with_reducible apply State.refillRing_keeps | with_reducible apply Keeps.ite
    | with_reducible apply Keeps.foldl)

theorem State.modTimeout_keeps {a s : State} {f : Nat} {n : Nat} (h : Keeps a s) : Keeps a (State.modTimeout s f n) := by
  unfold State.modTimeout
  iterate 40 (try any_goals first | with_reducible assumption | with_reducible apply State.ringDue_keeps | with_reducible apply Keeps.ite)

theorem execModerationTimeout_keeps {a s : State} {f : Nat} {n : Nat} (h : Keeps a s) : KeepsR a (execModerationTimeout f n s) := by
  unfold execModerationTimeout
  iterate 40 (try any_goals first
    | with_reducible assumption | with_reducible apply State.done_keeps | with_reducible apply State.modTimeout_keeps)

theorem State.runOp_keeps {a s : State} {id : Nat} {op : Nat}
    {k : State → Req → State} (h : Keeps a s) (hk : ∀ v0 v1, Keeps a v0 → Keeps a (k v0 v1)) :
    Keeps a (State.runOp s id op k) := by
  unfold State.runOp
  iterate 40 (try any_goals first | with_reducible assumption | with_reducible apply hk | with_reducible apply State.setReq_keeps | split)

theorem State.drawThen_keeps {a s : State} {r : Req} {k : State → State} (h : Keeps a s) (hk : ∀ v0, Keeps a v0 → Keeps a (k v0)) :
    Keeps a (State.drawThen s r k) := by
  unfold State.drawThen
  iterate 40 (try any_goals first
    | with_reducible assumption | with_reducible apply hk | with_reducible apply State.fail_keeps | with_reducible apply State.setReq_keeps
    | with_reducible apply Keeps.ite)

theorem State.runControl_keeps {a s : State} {r : Req} (h : Keeps a s) : Keeps a (State.runControl s r) := by
  unfold State.runControl
  iterate 40 (try any_goals first
    | with_reducible assumption | with_reducible apply State.commit_keeps | with_reducible apply State.fail_keeps | with_reducible apply Keeps.ite)

theorem execNop_keeps {a s : State} {id : Nat} (h : Keeps a s) : KeepsR a (execNop id s) := by
  unfold execNop
  iterate 40 (try any_goals first
    | with_reducible assumption | with_reducible apply State.done_keeps | with_reducible apply State.runOp_keeps
    | with_reducible apply State.runControl_keeps)

theorem execFence_keeps {a s : State} {id : Nat} (h : Keeps a s) : KeepsR a (execFence id s) := by
  unfold execFence
  iterate 40 (try any_goals first
    | with_reducible assumption | with_reducible apply State.done_keeps | with_reducible apply State.runOp_keeps
    | with_reducible apply State.runControl_keeps)

theorem execRandomFill_keeps {a s : State} {id : Nat} (h : Keeps a s) : KeepsR a (execRandomFill id s) := by
  unfold execRandomFill
  iterate 40 (try any_goals first
    | with_reducible assumption | intro _ | with_reducible apply State.done_keeps | with_reducible apply State.runOp_keeps
    | with_reducible apply State.drawThen_keeps)

theorem execRandomKey_keeps {a s : State} {id : Nat} (h : Keeps a s) : KeepsR a (execRandomKey id s) := by
  unfold execRandomKey
  iterate 40 (try any_goals first
    | with_reducible assumption | intro _ | with_reducible apply State.done_keeps | with_reducible apply State.runOp_keeps
    | with_reducible apply State.drawThen_keeps | with_reducible apply State.keyDrawn_keeps)

theorem execCtxCreate_keeps {a s : State} {id : Nat} (h : Keeps a s) : KeepsR a (execCtxCreate id s) := by
  unfold execCtxCreate
  iterate 40 (try any_goals first
    | with_reducible assumption | with_reducible apply State.done_keeps | with_reducible apply State.runOp_keeps
    | with_reducible apply State.ctxCreate_keeps)

theorem execCtxDestroy_keeps {a s : State} {id : Nat} (h : Keeps a s) : KeepsR a (execCtxDestroy id s) := by
  unfold execCtxDestroy
  iterate 40 (try any_goals first
    | with_reducible assumption | intro _ | with_reducible apply State.done_keeps | with_reducible apply State.runOp_keeps
    | with_reducible apply State.withLine_keeps | with_reducible apply State.ctxDestroy_keeps)

theorem execCtxRotate_keeps {a s : State} {id : Nat} (h : Keeps a s) : KeepsR a (execCtxRotate id s) := by
  unfold execCtxRotate
  iterate 40 (try any_goals first
    | with_reducible assumption | intro _ | with_reducible apply State.done_keeps | with_reducible apply State.runOp_keeps
    | with_reducible apply State.drawThen_keeps | with_reducible apply State.keyDrawn_keeps)

theorem execCtxExport_keeps {a s : State} {id : Nat} (h : Keeps a s) : KeepsR a (execCtxExport id s) := by
  unfold execCtxExport
  iterate 40 (try any_goals first
    | with_reducible assumption | intro _ | with_reducible apply State.done_keeps | with_reducible apply State.runOp_keeps
    | with_reducible apply State.withLine_keeps | with_reducible apply State.ctxExport_keeps)

theorem execCtxImport_keeps {a s : State} {id : Nat} (h : Keeps a s) : KeepsR a (execCtxImport id s) := by
  unfold execCtxImport
  iterate 40 (try any_goals first
    | with_reducible assumption | with_reducible apply State.done_keeps | with_reducible apply State.runOp_keeps
    | with_reducible apply State.ctxImport_keeps)

theorem execCtxSnapshot_keeps {a s : State} {id : Nat} (h : Keeps a s) : KeepsR a (execCtxSnapshot id s) := by
  unfold execCtxSnapshot
  iterate 40 (try any_goals first
    | with_reducible assumption | intro _ | with_reducible apply State.done_keeps | with_reducible apply State.runOp_keeps
    | with_reducible apply State.withLine_keeps | with_reducible apply State.ctxSnapshot_keeps)

theorem execCtxFlush_keeps {a s : State} {id : Nat} (h : Keeps a s) : KeepsR a (execCtxFlush id s) := by
  unfold execCtxFlush
  iterate 40 (try any_goals first
    | with_reducible assumption | with_reducible apply State.done_keeps | with_reducible apply State.runOp_keeps
    | with_reducible apply State.ctxFlush_keeps)

end Sys2Proof.Machine
end

