-- ==== Sys2Proof/Laws/Port.lean ====
section
/-! SUPPORT. What the shared operations of the register port do: answers, writes, reads, stored registers. -/
namespace Sys2Proof.Machine

/-- An open port answers a write OK with its effect. -/
theorem State.mgmt_some {s t : State} (h : s.Open) : s.mgmt (some t) = t.ok := by
  simp [State.mgmt, h.1, h.2, State.answer]

/-- An open port answers a refused write ERROR. -/
theorem State.mgmt_none {s : State} (h : s.Open) : s.mgmt none = s.refuse := by
  simp [State.mgmt, h.1, h.2, State.answer]

/-- A write to any register but one of the tally store is the register's own write. -/
theorem State.put_other {s : State} {r : Reg} {v : Word} (h : r.name ≠ .tly) : s.put r v = s.mgmt (s.writeReg r v) := by
  have : s.tlyTurnedAway r = false := by simp [State.tlyTurnedAway, h]
  simp [State.put, this]

/-- An accepted write to an open port. -/
theorem State.put_some {s t : State} {r : Reg} {v : Word} (h : s.Open) (hr : r.name ≠ .tly) (hw : s.writeReg r v = some t) :
    s.put r v = t.ok := by rw [State.put_other hr, hw, State.mgmt_some h]

/-- A refused write to an open port. -/
theorem State.put_none {s : State} {r : Reg} {v : Word} (h : s.Open) (hr : r.name ≠ .tly) (hw : s.writeReg r v = none) :
    s.put r v = s.refuse := by rw [State.put_other hr, hw, State.mgmt_none h]

/-- A write through the window of a running function, where the register takes writes. -/
theorem State.writeReg_running {s : State} {r : Reg} {v : Word} (hw : r.name.row.win = true) (hr : s.Running r.i)
    (hn : winRefused r = false) : s.writeReg r v = s.writeRunning r v := by
  simp [State.writeReg, State.writeWin, hw, hr.1, hr.2.1, hr.2.2, hn]

/-- A read of an open port. -/
theorem State.get_open {s : State} {r : Reg} (h : s.Open) : s.get r = s.doRead r := by simp [State.get, h.1]

/-- An open port reads every register. -/
theorem State.readable_open {s : State} {n : RegName} (h : s.Open) : s.readable n = true := by simp [State.readable, h.2]

end Sys2Proof.Machine
end

