-- ==== Sys2Proof/Laws/Sketch.lean ====
section
/-! SUPPORT. What the shared operations of the sketch instructions do: reaching the instruction, the limits, stack effects. -/
namespace Sys2Proof.Machine

/-- No injection strikes the word that is read (R514). -/
theorem State.wordStrike_none {s : State} {c : Nat} (h : s.armedChecker ≠ some c) : s.wordStrike c = none := by simp [State.wordStrike, h]

/-- No injection strikes: the state is as it was. -/
theorem State.singleStrike_none {s : State} {c src idx : Nat} (h : s.armedChecker ≠ some c) : s.singleStrike c src idx = s := by
  simp [State.singleStrike, State.wordStrike_none h]

/-- The busy counter is no part of the easels. -/
@[simp] theorem State.addBusy_easel (s : State) (u c e : Nat) : (s.addBusy u c).easel e = s.easel e := by simp [State.easel]

/-- An instruction whose easel stands at its word runs its effect. -/
theorem State.skAt_at {s : State} {e : Nat} {g : BitVec 4} {opc imm : Nat} {c : Comp} {r : Req} {i : Nat}
    {k : Req → SkEnv → Comp → State} (h : s.AtWord e g (skWord g opc imm) c r i) :
    s.skAt e g opc imm k = k r (s.skEnv r i) c := by
  simp [State.skAt, h.comp, h.req, h.entry, h.live, h.clock, h.runs, h.canvas, h.idle, h.word, h.unarmed, h.guard, State.wordStrike_none h.unstruck]

/-- An instruction whose guard does not let it execute takes one cycle (R405). -/
theorem State.skAt_guarded {s : State} {e : Nat} {g : BitVec 4} {opc imm : Nat} {c : Comp} {r : Req} {i : Nat}
    {k : Req → SkEnv → Comp → State} (hc : (s.easel e).comp = some c) (hr : s.req c.id = some r) (he : c.entry = some i)
    (hl : s.live = true) (hk : s.clkOk 6 = true) (hf : s.fnRuns r.f = true) (hs : c.segs ≠ []) (hx : c.cx = none)
    (hw : libCode s.tables.library c.pc = skWord g opc imm) (ha : s.armedChecker ≠ some (0x50 + e)) (hu : s.armedChecker ≠ some 0x57)
    (hg : guardOn g c.flags = false) :
    s.skAt e g opc imm k = s.skGo e r (s.skEnv r i) c 1 1 (.next c.step) id := by
  simp [State.skAt, hc, hr, he, hl, hk, hf, hs, hx, hw, ha, hg, State.wordStrike_none hu, State.singleStrike_none hu]

/-- A result within every limit goes on (R434, R435). -/
theorem State.skGo_next {s : State} {e : Nat} {c c' : Comp} {r : Req} {i cost bound : Nat} {k : State → State}
    (h : s.Fits c i cost bound c'.pc) :
    s.skGo e r (s.skEnv r i) c cost bound (.next c') k
      = k ((s.addBusy (13 + e) cost).onEasel e { c' with run := c.run + cost, total := c.total + cost }) := by
  have h1 := Nat.not_lt.mpr h.yieldLimit
  have h2 := Nat.not_lt.mpr h.cap
  have h3 := Nat.not_lt.mpr h.start
  have h4 := Nat.not_le.mpr h.stop
  simp [State.skGo, State.skBoundary, State.skEnv, State.onEasel, h1, h2, h3, h4]

/-- A faulting result ends the sketch (R437). -/
theorem State.skGo_fault {s : State} {e : Nat} {c : Comp} {r : Req} {v : SkEnv} {cost bound : Nat} {f : SkFault}
    {k : State → State} : s.skGo e r v c cost bound (.fault f) k = s.skFault e r v c.pc f := rfl

/-- An instruction of one cycle that goes on to the next word. -/
theorem State.skOne_next {s : State} {e : Nat} {g : BitVec 4} {opc imm : Nat} {c c' : Comp} {r : Req} {i : Nat}
    {f : SkEnv → Comp → SkRes} (h : s.AtWord e g (skWord g opc imm) c r i) (hf : s.Fits c i 1 1 ((c.pc + 1) % 0x10000))
    (hn : f (s.skEnv r i) c = .next c') (hp : c'.pc = c.pc) :
    s.skOne e g opc imm f = s.ran e 1 c c' := by
  have hf' : s.Fits c i 1 1 c'.step.pc := by simpa [Comp.step, hp] using hf
  simp only [State.skOne, State.skPlain, State.skAt_at h, hn, SkRes.step, State.skGo_next hf']
  simp [State.ran, Comp.after, Comp.step, hp]

/-- An instruction of `n` cycles that goes on to the next word. -/
theorem State.skPlain_next {s : State} {e : Nat} {g : BitVec 4} {opc imm : Nat} {c c' : Comp} {r : Req} {i n : Nat}
    {cost : Comp → Nat} {f : SkEnv → Comp → SkRes} (h : s.AtWord e g (skWord g opc imm) c r i)
    (hf : s.Fits c i n n ((c.pc + 1) % 0x10000)) (hn : f (s.skEnv r i) c = .next c') (hp : c'.pc = c.pc) (hc : cost c = n) :
    s.skPlain e g opc imm cost f = s.ran e n c c' := by
  subst hc
  have hf' : s.Fits c i (cost c) (cost c) c'.step.pc := by simpa [Comp.step, hp] using hf
  simp only [State.skPlain, State.skAt_at h, hn, SkRes.step, State.skGo_next hf']
  simp [State.ran, Comp.after, Comp.step, hp]

/-- An instruction that compares the slices, where they agree. -/
theorem State.skCompare_next {s : State} {e : Nat} {g : BitVec 4} {opc imm : Nat} {c c' : Comp} {r : Req} {i n : Nat}
    {cost : Comp → Nat} {f : SkEnv → Comp → SkRes} (h : s.AtWord e g (skWord g opc imm) c r i)
    (hf : s.Fits c i n n ((c.pc + 1) % 0x10000)) (hn : f (s.skEnv r i) c = .next c') (hp : c'.pc = c.pc) (hc : cost c = n) :
    s.skCompare e g opc imm true cost f = s.ran e n c c' := by
  subst hc
  have hf' : s.Fits c i (cost c) (cost c) c'.step.pc := by simpa [Comp.step, hp] using hf
  simp only [State.skCompare, State.skAt_at h, hn, SkRes.step, State.skGo_next hf']
  simp [State.ran, Comp.after, Comp.step, hp]

/-- The depth check passes within the stack's bounds (R414). -/
theorem Comp.depthCheck_ok {c : Comp} {pops pushes : Nat} (h1 : pops ≤ c.stack.length)
    (h2 : c.stack.length - pops + pushes ≤ 32) : c.depthCheck pops pushes = none := by
  simp [Comp.depthCheck, Nat.not_lt.mpr h1, Nat.not_lt.mpr h2]

/-- A stack effect within the stack's bounds (R414). -/
theorem Comp.stackOp_next {c : Comp} {pops : Nat} {push : List Limb} {fl : BitVec 4} (h1 : pops ≤ c.stack.length)
    (h2 : c.stack.length - pops + push.length ≤ 32) :
    c.stackOp pops push fl = .next { c with stack := push ++ c.stack.drop pops, flags := fl } := by
  simp [Comp.stackOp, Comp.depthCheck, Nat.not_lt.mpr h1, Nat.not_lt.mpr h2, SkRes.unless]

/-- Landing the products in flight moves neither the program counter nor the cycles. -/
@[simp] theorem Comp.landAll_pc (c : Comp) : c.landAll.pc = c.pc := by unfold Comp.landAll; split <;> rfl
@[simp] theorem Comp.landAll_run (c : Comp) : c.landAll.run = c.run := by unfold Comp.landAll; split <;> rfl
@[simp] theorem Comp.landAll_total (c : Comp) : c.landAll.total = c.total := by unfold Comp.landAll; split <;> rfl
@[simp] theorem Comp.landAll_stack (c : Comp) : c.landAll.stack = c.stack := by unfold Comp.landAll; split <;> rfl
@[simp] theorem Comp.landAll_segs (c : Comp) : c.landAll.segs = c.segs := by unfold Comp.landAll; split <;> rfl
@[simp] theorem Comp.landAll_flags (c : Comp) : c.landAll.flags = c.flags := by unfold Comp.landAll; split <;> rfl
@[simp] theorem Comp.landAll_slot0 (c : Comp) : c.landAll.slot0 = c.slot0 := by unfold Comp.landAll; split <;> rfl
@[simp] theorem Comp.landAll_slot1 (c : Comp) : c.landAll.slot1 = c.slot1 := by unfold Comp.landAll; split <;> rfl
@[simp] theorem Comp.landAll_active (c : Comp) : c.landAll.active = c.active := by unfold Comp.landAll; split <;> rfl

end Sys2Proof.Machine
end

