-- ==== Sys2Proof/Tests/Slice0.lean ====
section
/-! SUPPORT. Tests: ill-formed commands, words and results of the specification, and for each statement states that meet all its
hypotheses together. -/
namespace Sys2Proof.Tests

set_option Elab.async false
open Sys2Proof Sys2Proof.Machine

-- small states ----------------------------------------------------------------------------------------------------------------

/-- The islands, all up. -/
def islUp : Tbl Isl := (List.range 13).map (fun i => (i, { step := .up, req := true, ack := true }))

/-- A block in service with every clock acknowledged, every island up, and tenants 3 and 4 enabled. -/
def svc : State :=
  { blk := { st := .service, phase := 7, porLow := false, rstLow := false, tlyRead := true }
    pwr := { clkReq := 0x1FFF, clkAck := 0x1FFF, isl := islUp }
    fns := [(3, { enabled := true }), (4, { enabled := true })] }

-- sketches ----------------------------------------------------------------------------------------------------------------------

/-- A library of one entry and four code words, each of them `w` (R439, R440): five segments of 64 bytes, L up to 40. -/
def skLib (w : Nat) : Bytes :=
  natLE 2 1 ++ natLE 2 1 ++ natLE 4 4 ++ zeros 8 ++
  (natLE 2 0x100 ++ natLE 2 1 ++ natLE 4 0xFFFFFFFF ++ natLE 4 0 ++ natLE 4 4 ++ [2, 1, 0, 40] ++ natLE 2 64 ++ natLE 2 64 ++
    natLE 2 2 ++ zeros 6 ++ zeros 64) ++
  (List.replicate 4 (natLE 4 w)).flatten

/-- The request of the sketch: SKETCH_CALL of tenant 3. -/
def skReq : Req := { id := 1, f := 3, n := 0, pos := 0, d := natLE 4 0x6F ++ zeros 60, stage := .running, started := true }

/-- A computation at word 1 with three limbs on its stack: two PLAIN segments, and a DUAL one with two elements of one limb modulo
2^63 + 29. -/
def skComp : Comp :=
  { id := 1, f := 3, entry := some 0, pages := 2, pc := 1, stack := [3, 2, 1], rets := [2], run := 9, total := 9
    slot0 := { mod := some (1, 2 ^ 63 + 29), load := 1 }
    segs := [{ size := 64, r := true, w := true, bytes := natLE 8 (2 ^ 63 + 29) ++ natLE 8 7 ++ zeros 48 },
             { size := 64, r := true, w := true, bytes := zeros 64 },
             { size := 64, dual := true, r := true, w := true, 
               elems := [{ start := 0, len := 16, slot := false, load := 1, val := 5 },
                         { start := 16, len := 16, slot := false, load := 1, val := 2 ^ 63 + 28 }] }] }

/-- Easel 0 runs `c` on a library whose every word is `w`. -/
def skOn (c : Comp) (w : Nat) : State :=
  { svc with reqs := [skReq]
             tables := { library := skLib w, curves := [(31, natLE 2 0x10 ++ zeros 446)] }
             easels := [(0, { comps := [c], running := some 1 })] }

/-- The computation `c` of easel 0 stands at word `w`, and an instruction of `cost` cycles that goes on at `pc` meets no limit. -/
def meets (c : Comp) (w cost pc : Nat) : Bool :=
  decide (((skOn c w).easel 0).comp = some c) && decide ((skOn c w).req c.id = some skReq) && decide (c.entry = some 0)
  && (skOn c w).live && (skOn c w).fnRuns skReq.f && decide (c.segs ≠ []) && decide (c.cx = none)
  && decide (libCode (skOn c w).tables.library c.pc = w) && (skOn c w).clkOk 6
  && decide ((skOn c w).armedChecker ≠ some (0x50 + 0)) && decide ((skOn c w).armedChecker ≠ some 0x57) && guardOn 0 c.flags
  && decide (c.run + cost ≤ (skOn c w).yieldLimit)
  && decide (c.total + cost ≤ (LibEntry.of (libEntryB (skOn c w).tables.library 0)).cap * 65536)
  && decide ((LibEntry.of (libEntryB (skOn c w).tables.library 0)).start ≤ pc)
  && decide (pc < (LibEntry.of (libEntryB (skOn c w).tables.library 0)).start + (LibEntry.of (libEntryB (skOn c w).tables.library 0)).len)

theorem meets_iff (c : Comp) (w cost pc : Nat) :
    meets c w cost pc = true ↔ (skOn c w).AtWord 0 0 w c skReq 0 ∧ (skOn c w).Fits c 0 cost cost pc := by
  simp only [meets, Bool.and_eq_true, decide_eq_true_eq]
  constructor
  · rintro ⟨⟨⟨⟨⟨⟨⟨⟨⟨⟨⟨⟨⟨⟨⟨a, b⟩, c⟩, d⟩, e⟩, f⟩, g⟩, h⟩, o⟩, i⟩, q⟩, j⟩, k⟩, l⟩, m⟩, n⟩
    exact ⟨⟨a, b, c, d, e, f, g, h, o, i, q, j⟩, ⟨k, l, m, n⟩⟩
  · rintro ⟨⟨a, b, c, d, e, f, g, h, o, i, q, j⟩, ⟨k, l, m, n⟩⟩
    exact ⟨⟨⟨⟨⟨⟨⟨⟨⟨⟨⟨⟨⟨⟨⟨a, b⟩, c⟩, d⟩, e⟩, f⟩, g⟩, h⟩, o⟩, i⟩, q⟩, j⟩, k⟩, l⟩, m⟩, n⟩

/-- The words of the stack, arithmetic, logic and shift statements, with immediates at the ends of their ranges. -/
theorem witness_SketchStackArithmeticAndShifts :
    (∀ w ∈ [0, 0x10FFFFF, 0x11FFFFF, 0x12FFFFF, 0x1300000, 0x1400000, 0x1500000, 0x1600000, 0x1700000, 0x1800002, 0x1900000, 0x2000000,
            0x2100000, 0x2200000, 0x2300000, 0x2400000, 0x25FFFFF, 0x2600000, 0x2700000, 0x2800000, 0x2900000, 0x2E00000, 0x2F00000,
            0x3000F81, 0x3100F81, 0x3200000, 0x3300000, 0x2A0003F, 0x2B0003F, 0x2C00000, 0x2D00001, 0x2A00040, 0x2B00040,
            0x2C00040, 0x2D00040], meets skComp w 1 ((skComp.pc + 1) % 0x10000)) ∧
    skComp.stack = [3, 2, 1] ∧ skComp.stack.length < 32 ∧ skComp.stack[2]? = some 1 := by
  decide +kernel

/-- A claim about every bit of two words follows from their 64 bits. -/
theorem bits {p : Nat → Bool} {x : Limb} (h : ∀ j < 64, x.getLsbD j = p j) (h' : ∀ j, 64 ≤ j → p j = false) (j : Nat) :
    x.getLsbD j = p j := by
  by_cases hj : j < 64
  · exact h j hj
  · rw [h' j (by omega)]; exact BitVec.getLsbD_of_ge _ _ (by omega)

/-- The results that the logic statement describes by their bits, for the operands 2 and 3. -/
theorem witness_SketchLogicAndBitFieldResults :
    (∀ j, 64 - 62 ≤ j → (3 : Limb).getLsbD j = false) ∧ (3 : Limb).getLsbD (63 - 62) = true ∧
    (∀ j, j < 0 → (3 : Limb).getLsbD j = false) ∧ (3 : Limb).getLsbD 0 = true ∧
    (∀ j, (1 : Limb).getLsbD j = (decide (j ≤ 62) && (3 : Limb).getLsbD (1 + j))) ∧
    (∀ k j, k < 8 → j < 8 → (0x0202020202020200 : Limb).getLsbD (8 * k + j)
      = (!(3 : Limb).getLsbD (8 * k + 3) && (2 : Limb).getLsbD (8 * ((3 : Limb).toNat / 2 ^ (8 * k) % 8) + j))) ∧
    (∀ k j, k < 8 → j < 8 → (0x0300000000000000 : Limb).getLsbD (8 * k + j) = (3 : Limb).getLsbD (8 * (7 - k) + j)) ∧
    (∀ j, (6 : Limb).getLsbD j = if 1 ≤ j ∧ j ≤ 1 + 62 then (3 : Limb).getLsbD (j - 1) else (2 : Limb).getLsbD j) := by
  have h : ∀ k < 8, ∀ j < 8, (0x0202020202020200 : Limb).getLsbD (8 * k + j)
      = (!(3 : Limb).getLsbD (8 * k + 3) && (2 : Limb).getLsbD (8 * ((3 : Limb).toNat / 2 ^ (8 * k) % 8) + j)) := by decide +kernel
  have h' : ∀ k < 8, ∀ j < 8, (0x0300000000000000 : Limb).getLsbD (8 * k + j) = (3 : Limb).getLsbD (8 * (7 - k) + j) := by decide +kernel
  refine ⟨fun j hj => ?_, by decide, by omega, by decide, bits (by decide +kernel) (fun j hj => ?_), fun k j a b => h k a j b,
    fun k j a b => h' k a j b, bits (by decide +kernel) (fun j hj => ?_)⟩
  · by_cases hj' : j < 64
    · exact (by decide +kernel : ∀ j < 64, 2 ≤ j → (3 : Limb).getLsbD j = false) j hj' hj
    · exact BitVec.getLsbD_of_ge _ _ (by omega)
  · simp; omega
  · have : ¬ j ≤ 63 := by omega
    simp only [this, and_false, if_false]; exact BitVec.getLsbD_of_ge _ _ hj

/-- JMP and CALL by -1 and 2 words, RET, DBNZ with a count of 3 and of 1. -/
theorem witness_SketchControlTransfers :
    meets skComp 0x3FFFFF 2 0 ∧ meets skComp 0x400002 2 3 ∧ skComp.rets = [2] ∧ meets skComp 0x500000 2 2 ∧
    meets skComp 0x6FFFFF 2 0 ∧ meets { skComp with stack := [1] } 0x6FFFFF 1 2 ∧
    ((0 : Nat) : Int) = skComp.pc + (0xFFFFF : BitVec 20).toInt ∧ ((3 : Nat) : Int) = skComp.pc + (2 : BitVec 20).toInt := by
  decide +kernel

/-- ADD under the guards Z and NOT Z while Z is 0. -/
theorem witness_SketchGuardsFollowTheFlags :
    meets { skComp with flags := 1 } (skWord 0 0x20 0) 1 2 ∧ guardOn 1 skComp.flags = false ∧ guardOn 9 skComp.flags = true ∧
    libCode (skOn skComp (skWord 1 0x20 0)).tables.library skComp.pc = skWord 1 0x20 0 := by
  decide +kernel

/-- The last limb of segments 0 and 1, and limb 4 + 3 by LDX and STX; SEGLEN of the DUAL segment. -/
theorem witness_SketchMemoryInstructions :
    (∀ w ∈ [0x4000007, 0x4200004], meets skComp w 2 2) ∧ (∀ w ∈ [0x4110007, 0x4310004, 0x4420000], meets skComp w 1 2) ∧
    skComp.stack = [3, 2, 1] ∧ (∀ k : Fin 2, ∃ g : Seg, skComp.segs[k.val]? = some g ∧ g.dual = false ∧ g.r = true ∧
      (k.val = 1 → g.w = true) ∧ 8 * (4 + 3 + 1) ≤ g.size) := by
  refine ⟨?_, ?_, rfl, fun k => ?_⟩
  · decide +kernel
  · decide +kernel
  · revert k; simp only [Fin.forall_fin_two]; exact ⟨⟨_, rfl, by decide⟩, ⟨_, rfl, by decide⟩⟩

/-- COPY of all of segment 0 to segment 1, and of nothing. -/
theorem witness_SketchCopyMovesLimbsInRisingOrder :
    meets { skComp with stack := [8, 0x10000, 0] } 0x4500000 10 2 ∧ meets { skComp with stack := [0, 0xFFFFF, 0xFFFFF] } 0x4500000 2 2 ∧
    skComp.plainCheck 0 0 8 false = none ∧ skComp.plainCheck 1 0 8 true = none := by
  decide +kernel

/-- MUL, the reads of a product that is old enough with a newer one in flight, the special registers, WRFL. -/
theorem witness_SketchMultiplierAndSpecialRegisters :
    (∀ w ∈ [0x5000000, 0x5100000, 0x5200000, 0x5300000, 0x5300006, 0x5400000], meets skComp w 1 2) ∧
    (∀ w ∈ [0x5100000, 0x5200000], meets { skComp with flight := [(2, 5), (3, 6), (4, 7)] } w 1 2) ∧
    3 + 6 ≤ skComp.total ∧ skComp.total < 4 + 6 ∧ skComp.slotL = 1 := by
  decide +kernel

/-- Each instruction of the glaze unit on elements of segment 2, with nothing in flight and with a product still to land. -/
theorem witness_GlazeArithmetic :
    (∀ w ∈ [0xC52001F, 0xC620C20, 0xC720C01, 0xC820C01, 0xC920C20, 0xCA20C01, 0xCB20C20],
      meets skComp w 10 2 ∧ meets { skComp with flight := [(8, 5)] } w 15 2) ∧
    ({ skComp with flight := [(8, 5)] } : Comp).landWait = 5 ∧ skComp.slot.mod = some (1, 2 ^ 63 + 29) ∧ skComp.elem 2 0 = some 5 ∧ skComp.elem 2 1 = some (2 ^ 63 + 28) ∧
    skComp.dualCheck 2 3 true = none ∧ skComp.dualCheck 2 0 true = none ∧ skComp.dualCheck 2 0 false = none ∧
    skComp.dualCheck 2 1 false = none := by
  decide +kernel

/-- GZ_SELM; GZ_CURVE of both values of a curve; GZ_IN and GZ_OUT at limb 7; GZ_CMP. -/
theorem witness_GlazeSlotsConversionsAndCompare :
    meets skComp 0xC200001 1 2 ∧
    (∀ o ∈ [false, true], meets { skComp with stack := [31] } (0xC100001 + 2 * o.toNat) 6 2) ∧
    (skOn { skComp with stack := [31] } 0xC100003).curve 31 = some (natLE 2 0x10 ++ zeros 446) ∧
    meets { skComp with stack := [7] } 0xC320C00 9 2 ∧ meets { skComp with stack := [0x10007] } 0xC420020 11 2 ∧
    meets skComp 0xCD20001 10 2 ∧ skComp.plainCheck 0 7 1 false = none ∧ skComp.plainCheck 1 7 1 true = none := by
  decide +kernel

/-- GZ_SETMOD of one limb, odd and full; of 40 limbs, which takes more than one part; GZ_INV of an element with an inverse and of 0. -/
theorem witness_GlazeSetmodAndInverse :
    meets { skComp with stack := [1, 0] } 0xC000001 104 2 ∧ 40 + 16 * glazeTM 1 ≤ 4096 ∧ 4096 < 40 + 16 * glazeTM 40 ∧
    meets { skComp with stack := [40, 0], segs := [{ size := 512, r := true, bytes := zeros 512 }] } 0xC000001 4116 1 ∧
    meets skComp 0xCC20C00 168 2 ∧ 40 + 128 * 1 * glazeG 1 = 168 ∧ (2 ^ 64 + 59) / 5 * 5 % (2 ^ 63 + 29) = 1 ∧
    meets skComp 0xCC20C40 168 2 ∧ skComp.elem 2 2 = some 0 := by
  decide +kernel

/-- YIELD; END with the outcome OK and 64 bytes, and with the largest DETAIL. -/
theorem witness_SketchYieldAndEnd :
    meets skComp 0x200000 20 2 ∧ skComp.ckptCost (LibEntry.of (libEntryB (skLib 0) 0)) = 0 ∧
    meets { skComp with stack := [0, 0, 64] } 0x100000 8 2 ∧ meets { skComp with stack := [2, 0xFFFF, 0] } 0x100000 8 2 ∧
    (LibEntry.of (libEntryB (skLib 0) 0)).outMax = 64 ∧ (skComp.segs.getD 1 {}).size = 64 := by
  decide +kernel

/-- A request of the extension port, and its answer. -/
theorem witness_ExtensionPortRequestAndAnswer :
    meets skComp 0xEFFFFFF 66 2 ∧ (∀ y ∈ ((skOn skComp 0xEFFFFFF).easel 0).comps, y.cx = none) ∧
    ((skOn { skComp with cx := some (15, 0, 2, 3) } 0).easel 0).comps.find? (fun y => y.cx.isSome)
      = some { skComp with cx := some (15, 0, 2, 3) } ∧ skComp.dead = false := by
  decide +kernel

-- ill-formed commands -------------------------------------------------------------------------------------------------------------

/-- One ill-formed command for each check of `Instr.wf`, which the check refuses. -/
theorem test_illFormed : ∀ i ∈ [Instr.fabricReadComplete 0 256 [], .fabricWriteAck 0 256 0, .fabricTimeout 1 true 256,
    .cxResponse 4 0 false, .cxTimeout 4, .selfTestDone 19 .kat 0, .doorbell 3 64 0, .strokeGrant (.lane 9), .strokeCommit (.dig 4),
    .duplicateMismatch (.lane 9), .moderationTimeout 16 16, .easelGrant 4, .scrub (.lane 9) 0 .good, .scrub (.dig 4) 0 .good,
    .scrub (.canvas 4) 0 .good, .ageMeasurement 19 0, .telemetrySnapshot 17, .tallyScan [(1024, true)], .sourceHealthFail ⟨8, 0⟩,
    .sourceStartupPass 8, .estimatePeriodEnd 8 0 0 0 0, .estimatePeriodEnd 0 65537 0 0 0, .estimatePeriodEnd 0 0 65537 0 0,
    .estimatePeriodEnd 0 0 0 65537 0, .estimatePeriodEnd 0 0 0 0 1025, .functionResetDrained 17, .functionEnable 17,
    .functionDisable 17, .epochBump 17, .functionReset 17 true, .fnPmSleep 17, .fnPmRun 17, .fnFence 17, .entWord 17, .ringEnable 16 16 0,
    .ringIrqWrite 17 0 0, .vectorUnmask 3 64, .meterConfigWrite 17 0 false .cfg 0, .meterConfigWrite 16 0 true .cfg 0,
    .laneCounterClear 9 true, .digestCounterClear 4 true, .easelCounterClear 4 true, .tallyRegisterWrite 511 0,
    .tallyRegisterWrite 1024 0, .skAdd 4 0, .gzMmul 4 0 0 0 0 0], i.wf = false := by decide

/-- The largest operands that the same checks let through. -/
theorem test_wellFormed : ∀ i ∈ [Instr.fabricReadComplete 0 255 [], .cxTimeout 3, .selfTestDone 18 .kat 0, .selfTestDone 31 .lbist 0,
    .doorbell 15 63 0, .doorbell 16 15 0, .strokeGrant (.lane 8), .strokeGrant (.dig 3), .ageMeasurement 18 0, .tallyScan [(1023, true)],
    .estimatePeriodEnd 7 65536 65536 65536 1024, .functionReset 16 true, .meterConfigWrite 15 63 true .cfg 0, .tallyRegisterWrite 512 0,
    .tallyRegisterWrite 1023 0, .skAdd 3 15], i.wf = true := by decide

-- worked examples of the specification ----------------------------------------------------------------------------------------------

/-- The addresses of 17_register_map.md's example (R554 to R563). -/
theorem test_addresses : regAt 0x15C004 = some ⟨.fnStatus, 5, 0⟩ ∧ regAt 0x07A808 = some ⟨.aMeterBurst, 0, 320⟩ ∧ regAt 0x158200 = none ∧
    regAt 0x0E8080 = none ∧ regAt 0x0EF010 = some ⟨.galView, 16, 4⟩ ∧ regAt 0x010010 = some ⟨.fltFirst, 0, 0⟩ ∧
    regAt 0x030004 = some ⟨.entStatus, 0, 0⟩ := by decide +kernel

/-- The check bits of 15_faults_snowplough.md's example: 32 zero bytes at 0x8_4000_0040 (R497, R498). -/
theorem test_checkBits : storedCode 0x84000004 0 = 0x180 ∧ storedCode 0x84000005 0 = 0x081 := by decide +kernel

/-- The latch words of 15_faults_snowplough.md's example: LANE_RETIRE for lane 3, and its mismatches before it (R507, R509). -/
theorem test_latch : eventWord (some ({ src := 0x2A }, 2)) false = 0x821F002A ∧ eventWord (some ({ src := 0x23 }, 1)) false = 0x811F0023 := by
  decide +kernel

/-- The meter of 06_admission_scheduling.md's example: green admitted, yellow and red refused (R196). -/
theorem test_meter : meterDecide 2 true 4 40000 (30000 * 256) 0 12000 = .pass (18000 * 256) ∧
    meterDecide 2 true 4 40000 (18000 * 256) 1 1000 = .refuse ∧ meterDecide 2 true 4 40000 (18000 * 256) 2 64 = .refuse := by decide

/-- The ageing projection of 16_ageing_tally_selftest.md's example (R540). -/
theorem test_projection : projection (anchorWord 140 0 0 100000) 128 60 3 0 118000 0 false true = some 580000 := by decide +kernel

/-- The rounds of 06_admission_scheduling.md's example: WEIGHT 3, 1 and 2 on rings 0, 66 and 133 (R206). -/
def weighted : State := ((svc.setReg .ringSched 0 0 0x300).setReg .ringSched 1 2 0x100).setReg .ringSched 2 5 0x200
def grant7 : State × List Nat := (List.range 7).foldl (fun (p : State × List Nat) _ =>
  match p.1.arbitrate 0 [{ cls := 0, g := 0, id := 1, adm := 1 }, { cls := 0, g := 66, id := 2, adm := 2 }, { cls := 0, g := 133, id := 3, adm := 3 }] with
  | (s, some c) => (s, p.2 ++ [c.g])
  | (s, none) => (s, p.2)) (weighted, [])

set_option maxRecDepth 100000 in
theorem test_rounds : grant7.2 = [0, 0, 0, 66, 133, 133, 0] ∧ [0, 66, 133].map (grant7.1.credit 0) = [2, 1, 2] := by decide +kernel

/-- The pipeline of 12_sketch_isa.md's example: products issued in cycles 0 and 1, read in cycles 5, 6 and 7 (R420). -/
theorem test_pipeline :
    let c : Comp := { skComp with flight := [(0, 0x0F), (1, 0x4D)], stack := [] }
    ({ c with total := 5 } : Comp).readProduct false = .next { c with total := 5, stack := [0] } ∧
    ({ c with total := 6 } : Comp).readProduct false = .next { c with total := 6, stack := [15], ml := 15, flight := [(1, 0x4D)] } ∧
    ({ c with total := 7 } : Comp).readProduct false = .next { c with total := 7, stack := [77], ml := 77, flight := [] } := by
  decide +kernel

-- values of the standards that the specification names --------------------------------------------------------------------------------

/-- FIPS 197, appendix C.1: AES-128. -/
theorem test_aes : aesEnc (natBE 16 0x000102030405060708090A0B0C0D0E0F) (natBE 16 0x00112233445566778899AABBCCDDEEFF)
    = natBE 16 0x69C4E0D86A7B0430D8CDB78070B4C55A := by decide +kernel

/-- FIPS 180-4: SHA-256 of "abc". -/
theorem test_sha256 : Halg.sha256.hashMsg [0x61, 0x62, 0x63]
    = natBE 32 0xBA7816BF8F01CFEA414140DE5DAE2223B00361A396177A9CB410FF61F20015AD := by decide +kernel

-- the register port: states that meet the hypotheses of each clause ---------------------------------------------------------------

theorem svc_open : svc.Open := ⟨by decide, by decide⟩

/-- Every register that the statement names has an address; an address past the map, a size of 16 bits, an odd half word. -/
theorem witness_RegisterAccessesAnswerStoreAndClear :
    svc.Open ∧ regAt 0xFFFFFC = none ∧ (1 : BitVec 2).toNat ≠ 2 ∧ (0x15C002 : BitVec 24).toNat % 4 ≠ 0 ∧
    (∀ p ∈ [(8, RegName.fabTimeout, 0, 0), (84, .pmCfg, 0, 0), (92, .bgCfg, 0, 0), (65540, .fltPermCfg, 0, 0), (65548, .fltIrqEn, 0, 0),
            (196616, .entCfg, 0, 0), (196624, .entRct, 0, 0), (196628, .entApt, 0, 0), (196632, .entEst, 0, 0), (299020, .laneGroup, 0, 3),
            (393216, .easelCfg, 0, 0), (393220, .easelRecover, 0, 0), (459012, .gateLead, 0, 0), (589836, .timeCfg, 0, 0),
            (589840, .timeHoldover, 0, 0), (655364, .bistUnit, 0, 0), (655376, .bistFieldCfg, 0, 0), (720900, .ageCfg, 0, 0),
            (96, .scrubCount, 0, 0), (589848, .timeLoadCount, 0, 0), (589852, .timeRejectCount, 0, 0), (589856, .timeMissCount, 0, 0),
            (589860, .timeStepCount, 0, 0), (524552, .klRefuseCount, 0, 0), (851976, .skFaultCount, 0, 0), (196636, .entWindowCount, 0, 0),
            (196640, .entDiscardCount, 0, 0), (196644, .entUnavailCount, 0, 0), (294920, .laneStrokeCount, 8, 0),
            (294924, .laneRetryCount, 8, 0), (328456, .digBlockCount, 3, 0), (394248, .easelCompCount, 3, 0)],
      regAt p.1 = some ⟨p.2.1, p.2.2.1, p.2.2.2⟩ ∧ p.1 % 4 = 0) :=
  ⟨svc_open, by decide +kernel, by decide, by decide, by decide +kernel⟩

/-- Lanes 2 and 5 in group 1 with different counts, lane 8 alone in group 2, nobody in group 0. -/
def grouped : State := ((svc.setReg .laneGroup 0 1 0x24).setReg .laneStrokeCount 2 0 7).setReg .laneGroup 0 2 0x100

theorem witness_CounterControlsAndLaneGroups :
    grouped.Open ∧ (List.range 9).filter (fun n => (grouped.reg .laneGroup 0 1).getLsbD n) = [2, 5] ∧
    grouped.reg .laneStrokeCount 2 ≠ grouped.reg .laneStrokeCount 5 ∧
    (List.range 9).filter (fun n => (grouped.reg .laneGroup 0 2).getLsbD n) = [8] ∧
    (List.range 9).filter (fun n => (grouped.reg .laneGroup 0 0).getLsbD n) = [] :=
  ⟨⟨by decide, by decide⟩, by decide +kernel, by decide +kernel, by decide +kernel, by decide +kernel⟩

/-- Function 5 disabled with epoch 0 or 0xFFFF, function 3 enabled; function 3 at the last step of its reset with a write of function
4 outstanding. -/
def epochEnd : State := { svc with tly := { cells := [(21, ({ val := 0xFFFF, gen := 1 }, {}))] } }
def drained3 : State := { svc with
  fns := [(3, { enabled := true, resetting := true, resetWb := true }), (4, { enabled := true })]
  fab := { wr := [{ tag := 4, use := .compl 9 }] } }

theorem witness_FunctionLifecycleAndReset :
    svc.Open ∧ svc.fnDisabled 5 = true ∧ (svc.fn 5).epochBusy = false ∧ svc.rangeTaken 5 = false ∧ (svc.fn 3).enabled = true ∧
    (svc.fn 3).resetting = false ∧ svc.epoch 5 ≠ 0xFFFF ∧ epochEnd.Open ∧ epochEnd.fnDisabled 5 = true ∧ epochEnd.epoch 5 = 0xFFFF ∧
    (drained3.fn 3).resetting = true ∧ (drained3.fn 3).resetWb = true ∧
    drained3.deadComp 3 = false ∧ drained3.live = true ∧
    (∀ t ∈ drained3.fab.rd ++ drained3.fab.rdQ ++ drained3.fab.wr ++ drained3.fab.wrQ, t.tag ≠ 3 ∧ t.use = .compl 9) := by
  refine ⟨svc_open, ?_, ?_, ?_, ?_, ?_, ?_, ⟨?_, ?_⟩, ?_, ?_, ?_, ?_, ?_, ?_, ?_⟩ <;> decide +kernel

/-- Function 3 in run and asleep, disabled function 5 and function 3 in reset for the fence; the block in service, and drained on its way to
deep sleep. -/
def sleepy : State := { svc with blk := { svc.blk with st := .deepSleep, pm := 1 } }

theorem witness_SleepFenceAndDeepSleep :
    svc.Open ∧ svc.Running 3 ∧ (∀ e ∈ svc.rings, ringF e.1 = 3 → e.2.counted = 0) ∧ (svc.fn 3).pm = .run ∧
    ((svc.setFn 3 { enabled := true, pm := .asleep }).fn 3).pm ≠ .run ∧ (svc.setFn 3 { enabled := true, pm := .asleep }).Running 3 ∧
    (svc.fn 5).enabled = false ∧ ((svc.setFn 3 { enabled := true, resetting := true }).fn 3).resetting = true ∧
    svc.blk.st = .service ∧ svc.blk.pm = 0 ∧ sleepy.blk.pm = 1 ∧ sleepy.blk.phase ≠ 8 ∧ sleepy.drained = true ∧ sleepy.ctx.cache = [] := by
  simp only [State.Running]; refine ⟨svc_open, ?_⟩; decide +kernel

/-- A ring of 16 entries whose head is 14 and tail 17: TAIL 2 of the next lap moves it, TAIL 1 does not, TAIL 16 and TAIL 0 are illegal. -/
def ring16 : State := { (svc.setReg .ringCfg 3 2 0x80000004) with rings := [(ringG 3 2, { head := 14, tail := 17 })] }

theorem witness_RingDoorbellsAndConfiguration :
    ring16.Open ∧ ring16.Running 3 ∧ ringOk 3 2 = true ∧ ring16.armedChecker = none ∧ ring16.ringOn 3 2 = true ∧ ring16.ringSize 3 2 = 16 ∧
    (17 + 2 * 16 - (ring16.ring (ringG 3 2)).head) % (2 * 16) = 3 ∧
    (fld (0x10002 : Word) 16 16 * 16 + fld (0x10002 : Word) 15 0 + 2 * 16 - (ring16.ring (ringG 3 2)).head) % (2 * 16) = 4 ∧
    (fld (0x10000 : Word) 16 16 * 16 + fld (0x10000 : Word) 15 0 + 2 * 16 - (ring16.ring (ringG 3 2)).head) % (2 * 16) = 2 ∧
    fld (0x10010 : Word) 15 0 = 16 ∧ ring16.ringOn 3 3 = false ∧ fld (16 : Word) 4 0 = 16 ∧ fld (17 : Word) 4 0 = 17 := by
  simp only [State.Open, State.Running]; decide +kernel

/-- Function 3's ring 63 through its view, and M's own ring 15; a reserved MODE, a zero BURST, a zero WEIGHT; a tenant's own write. -/
theorem witness_MeterWritesByMSetTheLevel :
    svc.Open ∧ svc.Running 16 ∧ fld (0xFFFFFFFF : Word) 1 0 = 3 ∧ fld (0xFF000000 : Word) 23 0 = 0 ∧ fld (0xFFFF00FF : Word) 15 8 = 0 ∧
    fld (0x11 : Word) 1 0 ≠ 3 ∧ fld (1 : Word) 23 0 ≠ 0 ∧ svc.fnDisabled 3 = false ∧ (svc.fn 3).resetting = false := by
  simp only [State.Running]; refine ⟨svc_open, ?_⟩; decide +kernel

/-- One metered ring, and completions that are counted on it. -/
def metered : State := { ((svc.setReg .meterCfg 3 2 0x11).setReg .ringIrq 3 2 0x100003) with rings := [(ringG 3 2, { counted := 3 })] }

theorem witness_MeterRefillAndModerationTimeout :
    metered.live = true ∧ ringOk 3 2 = true ∧ metered.meteredRings = [(3, 2)] ∧ (metered.ring (ringG 3 2)).counted ≠ 0 ∧
    metered.modTime 3 2 ≠ 0 ∧ (metered.fn 3).pm = .run := by
  decide +kernel

/-- The context table off, on and without a request in its checks; an extension under way, and one that asks for register 4 or 30. -/
def extending : State := { svc with gal := { ext := [(30, zeros 64)] } }
def invalidating : State := { svc with ctx := { inval := some (3, none) } }

theorem witness_ContextTableKeyAndGalleryCommands :
    svc.Open ∧ svc.ctx.disabling = false ∧ svc.ctx.genBusy = false ∧ svc.ctx.enable = false ∧ svc.gen ≠ 0xFFFF ∧
    ({ svc with ctx := { enable := true } } : State).Open ∧ svc.reqs = [] ∧ fld (0x10000000 : Word) 28 24 = 16 ∧ fld (0x1F000000 : Word) 28 24 = 31 ∧
    svc.gal.ext = [] ∧ (0x00040000 : Word).getLsbD 28 = false ∧ fld (0x00040000 : Word) 20 16 = 4 ∧ fld (0x001E0000 : Word) 20 16 = 30 ∧
    extending.Open ∧ extending.live = true ∧ extending.islandUp 9 = true ∧ extending.clkOk 5 = true ∧ extending.digIn 3 = true ∧
    extending.digIdle 3 = true ∧ svc.ctx.inval = none ∧ invalidating.Open ∧ invalidating.ctx.inval = some (3, none) := by
  simp only [State.Open]; decide +kernel

/-- Injection enabled, disabled, and armed; units 9 and 12 for a test, and a test in progress; VREFUSED. -/
def injects : State := svc.setReg .fltCtrl 0 0 0x40000000

theorem witness_CollectorSelfTestAndAgeingCommands :
    svc.Open ∧ injects.Open ∧ (injects.reg .fltCtrl).getLsbD 30 = true ∧ injects.flt.armed = false ∧ (svc.reg .fltCtrl).getLsbD 30 = false ∧
    injectable 0xFF = false ∧ fld ((svc.setReg .bistUnit 0 0 9).reg .bistUnit) 4 0 = 9 ∧ fld ((svc.setReg .bistUnit 0 0 12).reg .bistUnit) 4 0 = 12 ∧
    svc.bist.busy = false ∧ svc.retired 9 = false ∧ svc.retired 12 = false ∧ (svc.setReg .bistUnit 0 0 9).Open ∧
    ({ svc with bist := { busy := true } } : State).Open ∧ ({ svc with pwr := { svc.pwr with vref := true } } : State).Open := by
  simp only [State.Open]; decide +kernel

/-- Register 512 free, at its endurance limit, and with a write of M's under way. -/
def worn : State := { svc with tly := { cells := [(512, ({ val := 3, wear := 1000000 }, {}))] } }
def writing : State := { svc with tly := { cur := some { idx := 700, val := 2, cls := 3, who := [.m] } } }

theorem witness_TallyRegisterWriteQueuedOrTurnedAway :
    svc.Open ∧ svc.mBusy = false ∧ svc.tlyWearOf 512 < 1000000 ∧ svc.tlyWearOf 1023 < 1000000 ∧ worn.Open ∧ worn.mBusy = false ∧
    1000000 ≤ worn.tlyWearOf 512 ∧ writing.Open ∧ writing.mBusy = true ∧ svc.tlyTurnedAway ⟨.tly, 0, 511⟩ = false := by
  simp only [State.Open]; decide +kernel

-- resets, the start sequence, power, fabric, key lift -------------------------------------------------------------------------------

/-- After power-on, and in service, with nothing in progress in the tally store; `blk_rst_n` low with `por_n` high. -/
def powered : State := { blk := { porLow := false } }

/-- INIT with the tally clock requested and the core island up. -/
def starting1 : State := { svc with blk := { st := .starting, phase := 1, porLow := false, rstLow := false }, pwr := { clkReq := 0x1000, isl := [(12, { step := .up, req := true, ack := true })] } }

theorem witness_ResetsKeepOnlyTheDurableState_ColdStartLoadsImageA :
    svc.tly.cur = none ∧ powered.blk.porLow = false ∧ powered.blk.rstLow = true ∧ powered.blk.frozen = false ∧ powered.tly.cells = [] ∧
    powered.pwr = {} ∧ powered.kl = {} ∧ powered.blk.scan = false ∧ powered.isl 12 = {} ∧ powered.blk.snow = 0 ∧
    starting1.blk.st = .starting ∧ starting1.blk.phase = 1 ∧ starting1.blk.tlyRead = false ∧ starting1.blk.frozen = false ∧ starting1.blk.rstLow = false ∧
    starting1.blk.porLow = false ∧ starting1.pwr.clkReq.getLsbD 12 = true ∧ starting1.islandUp 12 = true ∧ starting1.tly.cells = [] ∧
    starting1.pwr.v = 0 ∧ starting1.kl = {} ∧ svc.blk.porLow = false ∧ svc.blk.rstLow = false ∧ svc.blk.tst = false := by
  and_intros <;> decide +kernel

/-- LOAD with 124 bytes received, and of image B; VERIFY of an image whose header gives FLOOR 0; a test of WARMUP whose signature the
section gives. -/
def loading (img : Nat) : State := { svc with
  blk := { svc.blk with st := .starting, phase := 2 }, primer := { img := img, due := 4, rev := zeros 124 } }
def verifying : State := { svc with blk := { svc.blk with st := .starting, phase := 3 }, primer := { img := 1, rev := zeros 256 } }
def warming : State := { svc with
  blk := { svc.blk with st := .starting, phase := 5, toTest := [(9, 2)] }
  tables := { sigs := zeros 16 ++ [1, 2] ++ zeros 14 ++ natLE 16 77 } }

theorem witness_PrimerImageIsLoadedVerifiedAndReleased :
    (loading 1).primerOpen = true ∧ (loading 1).primer.due = 4 ∧ (loading 1).primer.rev.length + 2 < 128 ∧ (loading 2).primerOpen = true ∧
    verifying.live = true ∧ verifying.blk.st = .starting ∧ verifying.blk.phase = 3 ∧ verifying.primer.rev.reverse = zeros 256 ∧
    verifying.primer.img = 1 ∧ fieldLE (zeros 256) 0x10 4 ≤ (verifying.tlyVal 0).toNat ∧
    verifying.verifyOn = true ∧ imageAgrees (verifying.primer.rootKey.getD []) (zeros 256) = true ∧
    warming.live = true ∧ warming.blk.st = .starting ∧ warming.clkOk 11 = true ∧ warming.islandUp (unitIsland 9) = true ∧ (9, testCode .kat) ∈ warming.blk.toTest ∧
    (77 : BitVec 128).toNat = sigOf warming.tables.sigs (testTarget 9) (testCode .kat) := by
  decide +kernel

/-- The lane clock requested, and not. -/
theorem witness_ClockHandshakes :
    svc.awake = true ∧ svc.blk.porLow = false ∧ svc.port.stall = none ∧ svc.pwr.clkReq.getLsbD (clkIdx .lane) = true ∧
    powered.pwr.clkReq.getLsbD (clkIdx .lane) = false := by
  and_intros <;> decide

/-- The digest cluster's island in every step of its sequences. -/
theorem witness_IslandPowerSequences :
    islIdx .dig = 9 ∧ islIdx .easel = 10 ∧ svc.live = true ∧ svc.blk.st = .service ∧
    (∀ x ∈ [({} : Isl), { step := .upPower, req := true }, { step := .upPower, req := true, retReq := true }, { step := .upRet, req := true, ack := true },
            { step := .downRet, req := true, ack := true, retReq := true }, { step := .downPower, ack := true }],
      (svc.setIsl 9 x).isl 9 = x ∧ (svc.setIsl 9 x).live = true) ∧
    (svc.isl 9).step = .up ∧ svc.islandIdle 9 = true ∧ svc.islandIdle 10 = true ∧ (svc.isl 9).req = true ∧
    (svc.isl 9).retAck = false ∧ (svc.setIsl 9 { step := .downRet, req := true, ack := true, retReq := true }).islandUp 9 = false := by
  decide +kernel

/-- Unit 5 has asked for step 1, and no unit has. -/
def asking : State := { svc with pwr := { svc.pwr with vreq := 1, vwait := some (some 5) } }

theorem witness_VoltageStepTakenOrRefused :
    (1 : BitVec 2).toNat = asking.pwr.vreq ∧ asking.pwr.vwait = some (some 5) ∧ asking.pwr.v < asking.pwr.vreq ∧
    (2 : BitVec 2).toNat ≠ asking.pwr.vreq ∧ svc.pwr.vwait = none := by
  and_intros <;> decide

/-- A request whose read of one line is outstanding on port 1 as number 255, with its data beat and with one in error; its completion and
data writes. -/
def moving (u : Use) : State := { svc with
  reqs := [{ id := 1, f := 3, n := 2, pos := 0, d := zeros 64, stage := .running, started := true }]
  fab := { rd := [{ num := 255, port := 1, addr := 0x84000004A0, len := 32, tag := 3, use := u }]
           wr := [{ num := 127, port := 1, addr := 0x4000, len := 64, tag := 3, use := u }] } }
def goodBeat : ReadBeat := { beat := 0, data := 0, chk := storedCode 0x84000004B 0 ++ storedCode 0x84000004A 0, stat := 0 }

theorem witness_FabricResponsesAreDelivered :
    (moving (.req 1)).live = true ∧ ((moving (.req 1)).capture 0x13 0 3).blk.frozen = false ∧ (moving (.req 1)).portInput 1 = true ∧ (moving (.req 1)).armedChecker = none ∧
    (moving (.req 1)).fab.rd.find? (fun t => t.port == 1 && t.num == 255)
      = some { num := 255, port := 1, addr := 0x84000004A0, len := 32, tag := 3, use := .req 1 } ∧
    beatsInOrder (Txn.beats { num := 255, port := 1, addr := 0x84000004A0, len := 32, tag := 3, use := .req 1 }) [goodBeat] = true ∧
    (readBurst 0x84000004A0 [goodBeat]).bytes = some (zeros 32) ∧ (readBurst 0x84000004A0 [goodBeat]).corr = 0 ∧
    (readBurst 0x84000004A0 [{ goodBeat with stat := 1 }]).bytes = none ∧ (readBurst 0x84000004A0 [{ goodBeat with stat := 1 }]).corr = 0 ∧
    ((moving (.req 1)).req 1).isSome = true ∧ (∀ r ∈ (moving (.req 1)).reqs, r.inFlight = true) ∧
    (∀ u ∈ [Use.compl 1, .data 1], ((moving u).fab.wr.find? (fun t => t.port == 1 && t.num == 127)).map (·.use) = some u) ∧
    (moving (.data 1)).fab.wr.find? (fun t => t.port == 1 && t.num == 126) = none := by
  decide +kernel

/-- A key request in answer, wanted, with four good beats; one that has timed out. -/
def lifting (late : Bool) : State := { svc with
  reqs := [{ id := 1, f := 3, n := 2, pos := 0, d := zeros 64, stage := .checking, kneed := [(5, 3, 1)] }]
  kl := { out := [{ slot := 5, tag := 3, use := 1, timedOut := late }] } }

theorem witness_KeyLiftAnswers :
    (lifting false).live = true ∧ (lifting false).clkOk 8 = true ∧ (lifting false).kl.out = [{ slot := 5, tag := 3, use := 1 }] ∧
    (lifting false).armedChecker = none ∧
    (∀ i ∈ [10, 11], readWord i (((2 : BitVec 64) ++ (1 : BitVec 64)) : BitVec 128) (storedCode i ((2 : BitVec 64) ++ (1 : BitVec 64)))
      = .good ((2 : BitVec 64) ++ (1 : BitVec 64))) ∧ ((lifting false).klAsker { slot := 5, tag := 3, use := 1 }).all (fun r => keyFits r 1 16) = true ∧
    (lifting false).klOldest = some { slot := 5, tag := 3, use := 1 } ∧ attrBytes 0 = some 16 ∧ attrBytes 2 = some 32 ∧
    (lifting false).klWanted { slot := 5, tag := 3, use := 1 } = true ∧ (lifting true).kl.out = [{ slot := 5, tag := 3, use := 1, timedOut := true }] := by
  decide +kernel

-- time ----------------------------------------------------------------------------------------------------------------------------------

/-- An edge latched at 7,000,000,100 ns: loads of a small offset, of one past MAX_SLEW in both directions, of a time with a part of a
millisecond, and of 1,000,000,000 ns. -/
def edged : State := { svc with time := { count := 7000000123, edge := some 7000000100, edgeAge := 500, fine := true, sync := true } }

theorem witness_TimeLoadsCorrectTheCount :
    edged.clkOk 10 = true ∧ edged.islandUp 12 = true ∧ edged.time.edge = some 7000000100 ∧ edged.time.edgeAge ≤ 500 ∧
    (999000000 : BitVec 32).toNat < 1000000000 ∧ (999000000 : BitVec 32).toNat % 1000000 = 0 ∧
    (BitVec.ofNat 64 (7 * 1000000000) - BitVec.ofNat 64 7000000100).toInt = -100 ∧
    (-100 : Int).natAbs ≤ fld (edged.reg .timeCfg) 27 16 ∧
    (fld (edged.reg .timeCfg) 27 16 : Int) < (BitVec.ofNat 64 (7 * 1000000000 + 1000000) - BitVec.ofNat 64 7000000100).toInt ∧
    (BitVec.ofNat 64 (6 * 1000000000 + 999000000) - BitVec.ofNat 64 7000000100).toInt < -(fld (edged.reg .timeCfg) 27 16 : Int) ∧
    edged.time.wake = none ∧ ({ edged with time := { edged.time with wake := some (-50) } } : State).clkOk 10 = true ∧
    (1000000000 : BitVec 32).toNat = 1000000000 ∧ (100 : BitVec 32).toNat % 1000000 ≠ 0 := by
  decide +kernel

/-- Counts before and after a millisecond, with the core island up and down. -/
def coreDown (n : Nat) : State := ({ svc with time := { count := n } } : State).setIsl 12 {}

theorem witness_TimeEdgesSyncAndReads :
    svc.blk.porLow = false ∧ svc.islandUp 12 = true ∧ svc.time.due = false ∧ svc.time.fine = false ∧ edged.time.fine = true ∧
    (coreDown 6999950000).islandUp 12 = false ∧ (6999950000 + 500000) / 1000000 * 1000000 - 6999950000 < 100000 ∧
    (7000050000 + 500000) / 1000000 * 1000000 < 7000050000 ∧ 7000050000 - 7000000000 < 100000 ∧ 100000 ≤ 7000100000 - 7000000000 ∧
    ({ edged with time := { edged.time with due := true } } : State).time.due = true ∧ edged.time.sync = true ∧ svc.Open ∧
    (({} : TimeU).upTo 0).count ≤ nearestMs (({} : TimeU).upTo 0).count ∧
    nearestMs (({ count := 600000 } : TimeU).upTo 999).count ≥ 600999 ∧ nearestMs (({ count := 100000 } : TimeU).upTo 999).count < 100999 ∧
    (∀ n ∈ [500, 501], 0 < ({ edged with time := { edged.time with slow := n } } : State).time.slow) ∧
    ({ slewPos := 1000000 } : TimeU).advance.count = 1000 := by
  simp only [State.Open]; decide +kernel

-- entropy ---------------------------------------------------------------------------------------------------------------------------------

/-- A source without a run before the window. -/
theorem witness_EntropyWindowBitsAndTests : ({} : Src).last = none ∧ (1023 : Nat) < 1024 := by decide

/-- Sources all healthy, the palette empty or full; windows of alternating samples pass, constant ones do not. -/
def sources (st : SrcState) : Tbl Src := (List.range 8).map (fun i => (i, { state := st }))
def producing (n : Nat) : State := { svc with ent := { state := 2, enable := true, src := sources .healthy, pal := List.replicate n (zeros 128) } }
/-- The start waits for source 7 while lane 0 produces. -/
def beginning : State :=
  let s := (producing 0).setSource 7 { state := .starting, awaited := true }
  { s with ent := { s.ent with starting := true } }
def alternating : BitVec 8192 := BitVec.ofNat 8192 (2 ^ 8192 / 3)

theorem witness_EntropyWindowsReleasedOrDiscarded :
    (producing 59).live = true ∧ (producing 59).laneProduces 0 = true ∧ (producing 59).islandUp 11 = true ∧ (producing 59).clkOk 7 = true ∧
    (producing 59).laneSources 0 = some (0, 4) ∧ (producing 59).ent.raw = false ∧ (producing 59).ent.starting = false ∧
    (producing 59).ent.held = [] ∧ (producing 59).ent.pal.length < 60 ∧ (producing 60).ent.pal.length = 60 ∧
    (producing 59).ent.state ≠ 1 ∧ (producing 59).ent.state ≠ 4 ∧
    beginning.live = true ∧ beginning.laneProduces 0 = true ∧ beginning.ent.starting = true ∧ beginning.startPassed = false := by
  decide +kernel

set_option maxRecDepth 100000 in
/-- The two windows' tests. -/
theorem witness_windowTests :
    ((producing 0).windowTests ((producing 0).source 0) alternating).1 = true ∧
    ((producing 0).windowTests ((producing 0).source 4) 0).1 = false := by
  constructor <;> decide +kernel

/-- Source 2 starting, healthy, and with two failures in the span; a start that waits for nothing. -/
def failing (l : List Nat) : State := { svc with ent := { state := 2, enable := true, src := [(2, { state := .healthy, pos := 255, recent := l })] } }
def ending : State := { svc with ent := { state := 1, enable := true, starting := true } }

theorem witness_EntropySourcesStartFailAndRetire :
    ({ svc with ent := { state := 1, enable := true, src := sources .starting } } : State).live = true ∧
    (failing [0]).live = true ∧ ((failing [0]).source 2).runs = true ∧ (failing [0]).retired 21 = false ∧ (failing [0]).laneOfSource 2 = none ∧
    (∀ n ∈ [255 * 65536, 255 * 65536 + 65535], (((failing [0, 65536]).source 2).recent.filter (fun p => decide (n < p + 2 ^ 24))).length = 2) ∧
    (((failing [0, 65536]).source 2).recent.filter (fun p => decide (256 * 65536 < p + 2 ^ 24))).length = 1 ∧
    (producing 0).laneOfSource 2 = some 2 ∧
    fld ((svc.setReg .entEst 0 0 100).reg .entEst) 15 0 ≤ (min ((32868 : Int) - 32768) 32767).natAbs ∧
    fld ((svc.setReg .entEst 0 0 0).reg .entEst) 15 0 = 0 ∧ ending.ent.starting = true ∧ ending.ent.raw = false ∧ (∀ j < 8, (ending.source j).awaited = false) ∧
    ending.ent.held = [] := by
  decide +kernel

/-- A request and a read that wait for entropy; words to read; raw mode over a window of M of 64 bytes, and its exit. -/
def starved : State := { svc with
  reqs := [{ id := 1, f := 3, n := 2, pos := 0, d := natLE 4 0x70 ++ zeros 60, stage := .running, started := true, entWaits := true }]
  ent := { state := 3, enable := true }, port := { stall := some (.entWord 3) } }
def rawReady (e : Ent) : State :=
  ((((({ svc with ent := e } : State).setReg .entRawLen 0 0 64).setReg .entRawCtrl 0 0 3).setReg .winBaseLo 16 0 0x1003).setReg .winLimitLo 16 0 0xFFFFF000).setReg
    .entRawAddrLo 0 0 0x2000

theorem witness_EntropyReadersAndControl :
    (starved.req 1).map (·.entWaits) = some true ∧ starved.live = true ∧ starved.palBytes = 0 ∧ starved.port.stall = some (.entWord 3) ∧
    (producing 1).Open ∧ ((producing 1).fn 3).enabled = true ∧ (producing 1).ent.state ≠ 6 ∧ (producing 1).armedChecker = none ∧ (producing 1).ent.pal = [zeros 128] ∧ (svc.fn 5).enabled = false ∧
    svc.ent.enable = false ∧ (rawReady { state := 2, enable := true }).Open ∧ fld ((rawReady { state := 2, enable := true }).reg .entRawLen) 24 0 = 64 ∧
    (rawReady { state := 2, enable := true }).rawAddr = 0x2000 ∧ (rawReady { state := 2, enable := true }).winFail 16 0x2000 64 true = none ∧
    (rawReady { state := 6, enable := true, raw := true, rawLen := 64 }).Open ∧
    fld ((rawReady { state := 6, enable := true, raw := true, rawLen := 64 }).reg .entRawCtrl) 3 0 = 3 ∧
    (rawReady { state := 6, enable := true, raw := true, rawLen := 64 }).kindGone = false ∧
    (rawReady { state := 6, enable := true, raw := true, rawLen := 64 }).gal.ext = [] ∧ (svc.fn 16).resetting = false ∧ (svc.fn 16).quiet = false := by
  simp only [State.Open]; decide +kernel

-- faults and the tally store -----------------------------------------------------------------------------------------------------------

/-- Sources with a floor and without one; each class below BLOCK_FATAL, and BLOCK_FATAL; an armed injection of a port's checker. -/
def injecting : State := { (svc.setReg .fltInj 0 0 0x10) with flt := { armed := true } }

theorem witness_FaultEventsAreCaptured :
    svc.blk.porLow = false ∧ faultFloor 0xFF = none ∧ svc.armedChecker = none ∧ svc.faultClass 0x39 = 0 ∧ svc.faultClass 0x10 < 4 ∧
    svc.faultClass 0x02 = 4 ∧ svc.awake = true ∧ powered.awake = false ∧ svc.kl.out = [] ∧ injecting.blk.porLow = false ∧ injecting.armedChecker = some (faultChecker 0x10) ∧
    injecting.faultClass 0x10 < 4 := by
  decide +kernel

/-- One captured event of each class, in service and in the snowplough state. -/
def caught (src least : Nat) (f : Flt) : State := { svc with flt := { f with captured := [{ src := src, tag := 16, least := least }] } }
def ploughed : State := { svc with
  blk := { svc.blk with st := .snowplough, snow := 2, frozen := true }, flt := { captured := [{ src := 0x39, least := 2 }] } }

theorem witness_FaultEventsAreClassified :
    (∀ l ∈ [0, 2, 3, 4], (caught 0x39 l {}).blk.porLow = false ∧ (caught 0x39 l {}).flt.captured = [{ src := 0x39, tag := 16, least := l }] ∧
      max ((caught 0x39 l {}).faultClass 0x39) l = l) ∧
    (caught 0x39 4 {}).awake = true ∧ isRetirement 0x39 = false ∧ svc.permUnit 0x39 = none ∧ svc.blk.snow = 0 ∧
    (caught 0x39 2 { first := some ({ src := 9 }, 3) }).flt.first ≠ none ∧ ploughed.blk.snow ≠ 0 ∧ ploughed.blk.porLow = false ∧
    max (ploughed.faultClass 0x39) 2 = 2 := by
  decide +kernel

/-- The first, the third and an injected mismatch of lane 8. -/
def mismatched (n : Nat) (inj : Bool) : State := { svc with
  flt := { captured := [{ src := 0x28, inj := inj }], perm := List.replicate n (0x28, 0) } }

theorem witness_RepeatedFaultsRetireTheUnit :
    (mismatched 2 false).blk.porLow = false ∧ (mismatched 2 false).blk.snow = 0 ∧ (mismatched 2 false).faultClass 0x28 = 1 ∧
    (mismatched 2 false).flt.captured = [{ src := 0x20 + 8 }] ∧ (mismatched 2 false).retired 8 = false ∧
    max 2 (fld ((mismatched 2 false).reg .fltPermCfg) 19 16) ≤ 3 ∧ 1 < max 2 (fld ((mismatched 0 false).reg .fltPermCfg) 19 16) ∧
    (mismatched 0 true).flt.captured = [{ src := 0x20 + 8, inj := true }] := by
  decide +kernel

/-- Every memory's island up and nothing armed. -/
theorem witness_ScrubberAndCollectorCopies :
    svc.live = true ∧ svc.armedChecker = none ∧ svc.blk.snow = 0 ∧ svc.blk.porLow = false ∧ svc.awake = true ∧ svc.flt.first = none ∧
    (∀ m ∈ [ScrubMem.lane 8, .dig 3, .canvas 3, .table, .palette, .ctxCache, .keyCache, .dispatcher, .config, .gallery],
      m.ok = true ∧ svc.islandUp (scrubIsland m) = true ∧ svc.clkOk (scrubClock m) = true ∧
        ({ svc with pwr := { svc.pwr with clkAck := 0 } } : State).clkOk (scrubClock m) = false) ∧ scrubSrc .table ≠ (none, 0x02) ∧ scrubSrc .gallery = (none, 0x02) := by
  decide +kernel

/-- A frozen block. -/
theorem witness_FrozenBlockCommitsAndIssuesNothing : ploughed.blk.frozen = true := by decide

/-- A pair of which one cell holds the value; a write in progress that nobody waits for. -/
theorem witness_TallyWritesAreAtomicOverPairedCells :
    tlyPick ({ val := 7, wear := 3, gen := 2 }, { good := false }) = some { val := 7, wear := 3, gen := 2 } ∧
    ({ svc with tly := { cur := some { idx := 5, val := 4, cls := 4 } } } : State).tly.queue = [] ∧ svc.blk.snow ≠ 1 ∧ svc.clkOk 12 = true := by decide

/-- An empty store that is read; the last hour but one that fits; a register at its limit. -/
theorem witness_TallyScanRepairsAndRefusals :
    svc.blk.tlyRead = true ∧ svc.blk.snow = 0 ∧ svc.armedChecker = none ∧ svc.tly.cells = [] ∧ svc.tly.cur = none ∧ svc.tly.queue = [] ∧
    svc.tly.wait = [] ∧ svc.clkOk 12 = true ∧ svc.blk.frozen = false ∧ svc.faultClass 0x90 < 4 ∧ powered.blk.tlyRead = false ∧ powered.clkOk 12 = false ∧
    (({ svc with tly := { cells := [(7, ({ good := false }, {}))] } } : State).tlyCells 7).2.good = true ∧
    ({ svc with tly := { cells := [(7, ({ good := false }, {}))] } } : State).tlyAhead 7 = [] ∧ (({ svc with tly := { cells := [(161, ({ val := 0xFFFFE, gen := 1 }, {}))] } } : State).tlyNext 161).toNat < 0xFFFFF ∧
    1000000 ≤ worn.tlyWearOf 512 ∧ worn.tly.cur = none := by
  decide +kernel

-- background activities and the gate list --------------------------------------------------------------------------------------------

/-- The reserve on lane 8; the field tests enabled and none in progress; an idle unit; a running function with telemetry on. -/
def rotating : State := { (svc.setReg .bistFieldCfg 0 0 0xC0000000) with reserve := some 8 }

theorem witness_BackgroundActivities :
    rotating.live = true ∧ rotating.blk.st = .service ∧ rotating.reserve = some 8 ∧ (∀ u < 9, rotating.retired u = false) ∧
    rotating.sched.laneRetry = [] ∧ rotating.lane 0 = {} ∧ rotating.lane 8 = {} ∧ rotating.bist.field = [] ∧ rotating.bist.lastField < 9 ∧
    rotating.retired 9 = false ∧ bitOf (rotating.reg .bistFieldCfg) 30 = true ∧ svc.retired 16 = false ∧ svc.unitIdle 16 = true ∧
    (∀ u < 19, svc.laneTurn u = true ∧ svc.islandUp (unitIsland u) = true ∧ svc.clkOk (unitClock u) = true) ∧
    ({ rotating with lanes := [(0, { run := some { id := 1, k := 0 } })] } : State).lane 0 ≠ {} ∧
    fld (svc.reg .ageCfg) 9 0 ≤ (0x3FF : BitVec 10).toNat ∧ svc.Running 3 ∧ svc.Running 16 ∧ fld (svc.reg .bgCfg) 31 16 ≠ 0 := by
  simp only [State.Running]; decide +kernel

/-- A legal list of one interval that opens every gate, in the admin registers and in operation; a swap that waits. -/
def gated (o p : Bool) (el : List Elig) : State :=
  (((((((((({ svc with gate := { oper := o, pending := p, elig := el } } : State).setReg .gateOperCycle 0 0 1000000).setReg .gateOperLen 0 0 1).setReg
    .gateOperIvl 0 0 1000000).setReg .gateOperGates 0 0 0xFF).setReg .gateAdminCycle 0 0 2000000).setReg .gateAdminLen 0 0 1).setReg
    .gateAdminIvl 0 0 2000000).setReg .gateAdminGates 0 0 4).setReg .gateCtrl 0 0 0xFF33)

theorem witness_GateListEvents :
    (gated true false []).Open ∧ (gated true false []).gate.pending = false ∧ (gated true false []).swapOk = true ∧ svc.swapOk = false ∧
    fld (0x81 : Word) 7 4 = 8 ∧ (gated true true []).gate.pending = true ∧
    (gated true true []).thisMicro (gated true true []).swapAt = some 0 ∧ ({ svc with time := { count := 1 } } : State).thisMicro ({ svc with time := { count := 1 } } : State).swapAt = none ∧
    (gated true false []).thisMicro (fun x => ((gated true false []).windowAt 7 (x + fld ((gated true false []).reg .gateLead) 19 0)).isSome) = some 0 ∧
    (gated true false []).windowAt 7 (0 + fld ((gated true false []).reg .gateLead) 19 0) = some 0 ∧
    (∀ o ∈ [0, 5], (gated true false [{ g := 7, opens := o, lead := 0 }]).gate.elig.find? (fun e => e.g == 7) = some { g := 7, opens := o, lead := 0 } ∧
      ((gated true false [{ g := 7, opens := o, lead := 0 }]).thisMicro
        (fun x => (gated true false [{ g := 7, opens := o, lead := 0 }]).windowAt 7 (x + 0) != some o) = none ↔ o = 0)) ∧ bitOf ((gated true false []).reg .gateCtrl) (8 + 7) = true ∧
    (gated true false []).live = true := by
  simp only [State.Open]; decide +kernel

-- operations -----------------------------------------------------------------------------------------------------------------------------

/-- A request of operation `op` of tenant 3 on 64 bytes. -/
def rq (op : Nat) : Req :=
  { id := 1, f := 3, n := 2, pos := 0, d := natLE 4 op ++ natLE 4 20 ++ natLE 8 0x4000 ++ natLE 8 0x5000 ++ natLE 4 64 ++ zeros 36, stage := .ready
    adm := 1, keys := [{ sel := 0, key := zeros 16 }], segsS := [(0x4000, 64)], segsD := [(0x5000, 64)], srcs := [(0, zeros 64)] }

/-- The block with one request, whose function may reach 0x1000 to 0xFFFFFFFF and the handles 16 to 64. -/
def withReq (r : Req) : State :=
  (((((({ svc with reqs := [r], reserve := some 8 } : State).setReg .winBaseLo 3 0 0x1003).setReg .winLimitLo 3 0 0xFFFFF000).setReg
    .fnCtxBase 3 0 16).setReg .fnCtxLimit 3 0 64).setReg .ctxTableSize 0 0 10).setReg .ringCfg 3 2 0x80000004

/-- Every lane and digest operation holds a stroke whose source has been read. -/
def stroke : Run := { id := 1, k := 0, src := some (zeros 64) }
def onLane (op : Nat) : State := { withReq { rq op with stage := .running, started := true } with lanes := [(8, { banks := [1], run := some stroke })] }
def onDig (op : Nat) : State := { withReq { rq op with stage := .running, started := true } with digs := [(3, { banks := [1], run := some stroke })] }

theorem witness_LaneAndDigestOperationsComputeTheirStroke :
    (∀ op ∈ [0x10, 0x11, 0x12, 0x13, 0x14, 0x15, 0x16, 0x18, 0x19, 0x1A, 0x1B, 0x1C, 0x1D, 0x1E, 0x1F, 0x20, 0x21, 0x22, 0x23, 0x24,
             0x40, 0x41, 0x42, 0x50, 0x51, 0x52, 0x53, 0x30, 0x31, 0x32, 0x33, 0x34], dOp (rq op).d = op) ∧
    (onLane 0x14).live = true ∧ (onLane 0x14).clkOk 4 = true ∧ (onDig 0x30).clkOk 5 = true ∧ ((onLane 0x14).lane 8).run = some stroke ∧ (onLane 0x14).req 1 = some { rq 0x14 with stage := .running, started := true } ∧
    (∀ m < 9, m ≠ 8 → ((onLane 0x14).lane m).run = none) ∧ (∀ e < 4, ((onLane 0x14).dig e).run = none) ∧
    (onDig 0x30).live = true ∧ ((onDig 0x30).dig 3).run = some stroke ∧ (∀ m < 9, ((onDig 0x30).lane m).run = none) ∧
    (∀ m < 4, m ≠ 3 → ((onDig 0x30).dig m).run = none) ∧ stroke.src ≠ none ∧ stroke.out = none ∧
    0 < passStrokes (rq 0x14).d ∧ ((onLane 0x14).outSpan (rq 0x14) 0).1 < ((onLane 0x14).outSpan (rq 0x14) 0).2 ∧
    dCont (rq 0x30).d = false ∧ dPadCheck (rq 0x30).d = false ∧ Halg.ofCode (dHalg (rq 0x30).d) = some .sha224 ∧ Halg.sha224.isShake = false := by
  decide +kernel

/-- A GCM request and its decryption have a key of 16 bytes. -/
theorem witness_CounterModesDecryptWhatTheyEncrypt :
    ((rq 0x18).key 0).length = 16 ∧ (rq 0x19).key 0 = (rq 0x18).key 0 ∧ (rq 0x19).nonce = (rq 0x18).nonce ∧ dOp (rq 0x18).d = 0x18 ∧
    dOp (rq 0x19).d = 0x19 ∧ (zeros 32).length = 32 ∧ (zeros 12).length = 12 := by
  decide +kernel

/-- A lane, a digest engine and an easel with a request for its first grant, in a round that has begun, and with none. -/
def waiting (op : Nat) : State := { withReq (rq op) with sched := { began := List.range 9 } }

/-- A request whose first stroke has run, for its next grant on lane 7. -/
def begun : State := { withReq { rq 0x14 with d := natLE 4 0x14 ++ zeros 20 ++ natLE 4 40000 ++ zeros 36, stage := .running, started := true, strokes := 3, home := [7], committed := [0] } with
  sched := { began := List.range 9 } }

theorem witness_GrantsStartWork :
    begun.live = true ∧ begun.laneIn 7 = true ∧ begun.laneIdle 7 = true ∧ begun.leaving = none ∧ (waiting 0x14).leaving = none ∧
    (begun.arbitrate 0 (begun.cands (fun r => begun.readyLane r 7))).2.map (·.id) = some 1 ∧
    (begun.req 1).bind (fun r => begun.nextOn r 7) = some 1 ∧
    (waiting 0x14).live = true ∧ (waiting 0x14).laneIn 7 = true ∧ (waiting 0x14).laneIdle 7 = true ∧
    svc.cands (fun r => svc.readyLane r 7) = [] ∧
    ((waiting 0x14).arbitrate 0 ((waiting 0x14).cands (fun r => (waiting 0x14).readyLane r 7))).2.map (·.id) = some 1 ∧
    dPair (rq 0x14).d = false ∧ (waiting 0x30).digFree 3 = true ∧
    ((waiting 0x30).arbitrate 1 ((waiting 0x30).cands (fun r => (waiting 0x30).readyDig r 3))).2.map (·.id) = some 1 ∧
    (waiting 0x66).easelIdle 3 = true ∧ (waiting 0x66).sched.easelMove = [] ∧
    ((waiting 0x66).arbitrate 2 ((waiting 0x66).cands (fun r => (waiting 0x66).readyEasel r 3))).2.map (·.id) = some 1 := by
  decide +kernel

/-- The first of three strokes with its output, on its first, second and third attempt. -/
def cut (a : Nat) : State := { withReq { rq 0x14 with d := natLE 4 0x14 ++ zeros 20 ++ natLE 4 40000 ++ zeros 36, stage := .running, started := true, strokes := 3, home := [0] } with
  lanes := [(0, { banks := [1], run := some { id := 1, k := 0, attempt := a, src := some (zeros 64), out := some (zeros 64) } })] }

theorem witness_StrokesCommitOrAreRetried :
    (cut 1).live = true ∧ ((cut 1).lane 0).run.map (·.failed) = some [] ∧ ((cut 1).lane 0).run.map (·.failedDig) = some [] ∧
    (cut 1).bufferFull 0 = false ∧ ((cut 3).lane 0).run.map (·.attempt) = some 3 ∧
    ((cut 2).lane 0).run.map (·.attempt) = some 2 ∧ (cut 1).fnRuns 3 = true ∧ (cut 1).armedChecker = none ∧
    (((cut 1).req 1).bind (fun r => (cut 1).ended { r with committed := r.committed ++ [0] })).isNone = true ∧
    bitOf ((cut 1).reg .laneCntCtrl 0) 0 = false ∧ (cut 1).faultClass (0x20 + 0) = 1 ∧ (cut 1).reserve = some 8 ∧ ((cut 1).lane 8).run = none ∧
    (cut 1).islandUp 8 = true ∧ (cut 1).clkOk 4 = true ∧ (cut 1).sched.laneRetry = [] ∧ (cut 1).sched.digRetry = [] ∧ (cut 1).sched.digMove = [] := by
  decide +kernel

/-- Easel 3 runs a MODEXP_PUBLIC of 7 to the 13th modulo 251, the load of a curve, or a sketch that has not begun. -/
def onEasel3 (op : Nat) (c : Comp) : State := { withReq { rq op with stage := .running, started := true
                                                                     staged := natLE 2 8 ++ natLE 2 8 ++ zeros 12 ++ natLE 8 251 ++ natLE 8 7 ++ natLE 8 13 } with
  easels := [(3, { comps := [c], running := some 1 })], tables := { library := skLib 0 } }

theorem witness_EaselOperationsEndRestartAndStart :
    (∀ op ∈ [0x60, 0x61, 0x62, 0x63, 0x64, 0x65, 0x66, 0x67, 0x68], dOp (rq op).d = op) ∧
    (onEasel3 0x66 { id := 1, f := 3 }).live = true ∧ (onEasel3 0x66 { id := 1, f := 3 }).easelRunning 1 = some 3 ∧
    (onEasel3 0x66 { id := 1, f := 3 }).fnRuns 3 = true ∧ (onEasel3 0x66 { id := 1, f := 3 }).armedChecker = none ∧
    (((onEasel3 0x66 { id := 1, f := 3 }).req 1).map (fun r => (onEasel3 0x66 { id := 1, f := 3 }).easelFinish r)) = some { dst := natLE 8 (7 ^ 13 % 251) } ∧
    (((onEasel3 0x66 { id := 1, f := 3 }).req 1).bind (fun r => (onEasel3 0x66 { id := 1, f := 3 }).dstFail r 0 8)).isNone = true ∧
    (onEasel3 0x66 { id := 1, f := 3 }).clkOk 6 = true ∧ (onEasel3 0x66 { id := 1, f := 3 }).blk.frozen = false ∧
    (onEasel3 0x66 { id := 1, f := 3 }).faultClass (0x50 + 3) < 4 ∧
    ((onEasel3 0x66 { id := 1, f := 3 }).easel 3).comp = some { id := 1, f := 3 } ∧
    ((onEasel3 0x6F { id := 1, f := 3, entry := some 0 }).easel 3).comp = some { id := 1, f := 3, entry := some 0 } := by
  decide +kernel

/-- Operations that take no grant, in their turn, with their context in the cache. -/
def line20 : CLine := { h := 20, mem := natLE 8 ({ owner := 3, alg := 1, format := 1, exp := true } : Hdr).toNat ++ zeros 56, pins := [1] }
def spent20 : CLine := { line20 with mem := natLE 8 ({ owner := 3, alg := 1, format := 1, version := 0x0FFFFFFE } : Hdr).toNat ++ zeros 56, work := 5, res := true }
def inTurn (op : Nat) (st : Nat) : State := { withReq (rq op) with
  ctx := { enable := true, key := some (zeros 32), cache := [line20] }, ent := { state := st, enable := true } }

theorem witness_UngrantedOperationsRunInTheirTurn :
    (∀ op ∈ [0x00, 0x01, 0x70, 0x71, 0x80, 0x81, 0x82, 0x83, 0x84, 0x85, 0x86], (inTurn op 2).req 1 = some (rq op) ∧ (inTurn op 2).mayRun (rq op) = true ∧
      dOp (rq op).d = op) ∧
    (inTurn 0x70 2).entGone = false ∧ (inTurn 0x70 5).entGone = true ∧ (rq 0x70).got.length < (inTurn 0x70 2).entNeed (rq 0x70) ∧
    (inTurn 0x85 2).lookup (rq 0x85) = .go (inTurn 0x85 2) line20 ∧ line20.canWrite = true ∧ dPbit (rq 0x83).d 8 = false ∧ line20.hdr.owner = 3 ∧
    dParam (rq 0x00).d = 0 ∧ dParam ({ rq 0x00 with d := natLE 4 0x100 ++ zeros 60 } : Req).d ≠ 0 ∧ line20.dirty = false ∧
    spent20.dirty = true ∧ spent20.canPut (if spent20.res then spent20.work else spent20.memCtr) spent20.pay = false := by
  and_intros <;> first | rfl | decide +kernel

/-- Two requests that fill: with 64 bytes left, and with more. -/
def filling (n : Nat) : State := { withReq { rq 0x70 with d := natLE 4 0x70 ++ zeros 20 ++ natLE 4 n ++ zeros 36, stage := .running, started := true, entWaits := true } with
  ent := { state := 2, enable := true, pal := [zeros 128] } }

theorem witness_EntropyTurnFillsTheRequest :
    (filling 64).ent.state ≠ 6 ∧ (filling 64).entTurn.map (·.id) = some 1 ∧ (filling 65).entTurn.map (·.id) = some 1 ∧ (filling 64).palBytes = 128 := by
  decide +kernel

-- the block as a whole -------------------------------------------------------------------------------------------------------------------

/-- The state after reset is sound, and a step leaves it. -/
theorem witness_EveryStepKeepsTheStateSound : State.reset.Sound ∧ step State.reset = .next State.reset := by
  refine ⟨⟨⟨?_, ?_, ?_, ?_, ?_, ?_, ?_, ?_, ?_, ?_, ?_, ?_⟩, ?_, ?_, ⟨?_, ?_⟩, ⟨?_, ?_⟩, ?_, ?_⟩, ?_⟩ <;> first | rfl | decide

/-- A queue with a command, and an empty one with `por_n` low and high. -/
theorem witness_StepRunsTheFrontCommand :
    ({ svc with pending := [.rearm, .nop 1] } : State).pending = [.rearm, .nop 1] ∧ State.reset.pending = [] ∧ State.reset.blk.porLow = true ∧
    svc.pending = [] ∧ svc.blk.porLow = false := by decide

/-- Each outcome of the word reader for word 5 with the data 0: good, one data bit, one check bit, the parity bit, an odd syndrome that is no
column, an even number of errors, and a word with another key. -/
theorem witness_WordReaderFollowsTheSyndromeTable :
    readWord 5 0 (storedCode 5 0) = .good 0 ∧ readWord 5 (1 <<< 127) (storedCode 5 0) = .corrected 0 ∧
    readWord 5 0 (storedCode 5 0 ^^^ 1) = .corrected 0 ∧ readWord 5 0 (storedCode 5 0 ^^^ 0x100) = .corrected 0 ∧
    readWord 5 0 (storedCode 5 0 ^^^ 7) = .corrected (BitVec.ofNat 128 (2 ^ 3)) ∧ readWord 5 0 (storedCode 5 0 ^^^ 3) = .bad ∧
    columnValue 3 = 7 ∧ columnValue 127 = 136 ∧ wordKey 4 ≠ wordKey 5 := by
  decide +kernel

end Sys2Proof.Tests
end

section
/-! PROOFS. The register port on any address: which accesses are refused, which writes only store the writable bits, which reads only
show a stored value and clear it where the register's access is RC (R16, R45, R555 to R557). -/
namespace Sys2Proof.Machine

-- the two commands and the access check ---------------------------------------------------------------------------------------

/-- REGISTER_WRITE is one write access. -/
theorem exec_registerWrite (addr : BitVec 24) (size : BitVec 2) (v : Word) (s : State) :
    exec (.registerWrite addr size v) s = .next (s.regWrite addr.toNat size.toNat v).settle := rfl

/-- READ_CLEAR_COUNTER is one read access of 32 bits. -/
theorem exec_readClearCounter (addr : BitVec 24) (s : State) :
    exec (.readClearCounter addr) s = .next (s.regRead addr.toNat 2).settle := rfl

theorem accessOk_iff {addr size : Nat} : accessOk addr size = true ↔ size = 2 ∧ addr % 4 = 0 := by simp [accessOk]

/-- An illegal access is of another size than 32 bits, off a word boundary, or to an address without a register (R555, R556). -/
def illegalAccess (addr size : Nat) : Prop := size ≠ 2 ∨ addr % 4 ≠ 0 ∨ regAt addr = none

/-- A legal size and alignment leaves the missing register as the reason. -/
theorem regAt_none_of_illegalAccess {addr size : Nat} (hbad : illegalAccess addr size) (hok : accessOk addr size = true) :
    regAt addr = none := by
  obtain ⟨hsize, halign⟩ := accessOk_iff.mp hok
  exact (hbad.resolve_left (not_not.mpr hsize)).resolve_left (not_not.mpr halign)

theorem State.regWrite_illegal {s : State} {addr size : Nat} (v : Word) (h : s.Open) (hbad : illegalAccess addr size) :
    s.regWrite addr size v = s.refuse := by
  unfold State.regWrite
  split
  case isTrue hok => rw [regAt_none_of_illegalAccess hbad hok]; exact State.mgmt_none h
  case isFalse => exact State.mgmt_none h

theorem State.regRead_illegal {s : State} {addr size : Nat} (h : s.Open) (hbad : illegalAccess addr size) :
    s.regRead addr size = s.refuse := by
  cases hok : accessOk addr size
  case false => simp [State.regRead, h.1, hok]
  case true => simp [State.regRead, h.1, hok, regAt_none_of_illegalAccess hbad hok]

theorem State.regWrite_mapped {s : State} {addr : Nat} {r : Reg} (v : Word) (halign : addr % 4 = 0) (hr : regAt addr = some r) :
    s.regWrite addr 2 v = s.put r v := by
  simp [State.regWrite, accessOk, halign, hr]

theorem State.regRead_mapped {s : State} {addr : Nat} {r : Reg} (h : s.Open) (halign : addr % 4 = 0) (hr : regAt addr = some r) :
    s.regRead addr 2 = s.doRead r := by
  simp [State.regRead, h.1, accessOk, halign, hr]

-- writes that only store --------------------------------------------------------------------------------------------------------

/-- Registers of the management window whose write stores the writable bits and does nothing else. -/
def plainStored : List RegName :=
  [.fabTimeout, .pmCfg, .bgCfg, .fltPermCfg, .fltIrqEn, .entCfg, .entRct, .entApt, .entEst, .laneGroup, .easelCfg,
    .easelRecover, .gateLead, .timeCfg, .timeHoldover, .bistUnit, .bistFieldCfg, .ageCfg]

theorem plainStored_outside_windows : ∀ n ∈ plainStored, n.row.win = false := by decide

theorem tly_not_plainStored : RegName.tly ∉ plainStored := by decide

/-- No arm of `writeMgmt` names a plainly stored register: each takes the last one. -/
theorem State.writeMgmt_plainStored (s : State) {n : RegName} (hn : n ∈ plainStored) (i j : Nat) (v : Word) :
    s.writeMgmt ⟨n, i, j⟩ v = some (s.store ⟨n, i, j⟩ v) := by
  fin_cases hn <;> rfl

theorem State.put_plainStored {s : State} (h : s.Open) {n : RegName} (hn : n ∈ plainStored) (i j : Nat) (v : Word) :
    s.put ⟨n, i, j⟩ v = (s.store ⟨n, i, j⟩ v).ok := by
  have hname : n ≠ .tly := fun he => tly_not_plainStored (he ▸ hn)
  have hwrite : s.writeReg ⟨n, i, j⟩ v = some (s.store ⟨n, i, j⟩ v) := by
    simp [State.writeReg, plainStored_outside_windows n hn, State.writeMgmt_plainStored s hn]
  exact State.put_some h hname hwrite

-- reads of stored counters ------------------------------------------------------------------------------------------------------

/-- Counters that are stored as registers; a read of one whose access is not RC leaves it as it is (log entry 30). -/
def storedCounters : List RegName :=
  [.scrubCount, .timeLoadCount, .timeRejectCount, .timeMissCount, .timeStepCount, .klRefuseCount, .skFaultCount,
    .entWindowCount, .entDiscardCount, .entUnavailCount, .laneStrokeCount, .laneRetryCount, .digBlockCount, .easelCompCount]

/-- The storage of the counters stands under no word-code checker, so that no armed injection strikes it on a read (R500, R514). -/
theorem wordChecker_storedCounters : ∀ n ∈ storedCounters, wordChecker n = none := by decide

theorem State.regStrike_of_no_checker (s : State) {n : RegName} (hc : wordChecker n = none) : s.regStrike n = s := by
  simp [State.regStrike, hc]

/-- A counter shows what is stored, and its read clears it where its access is RC. -/
theorem State.readReg_storedCounter (s : State) {n : RegName} (hn : n ∈ storedCounters) (i j : Nat) :
    s.readReg ⟨n, i, j⟩ = (if n.row.rc then s.setReg n i j 0 else s, s.reg n i j) := by
  have hstrike := s.regStrike_of_no_checker (wordChecker_storedCounters n hn)
  fin_cases hn <;> simp only [State.readReg, hstrike, State.readVal]

/-- A read that neither stalls nor captures an event answers the register's value. -/
theorem State.doRead_answers {s t : State} {r : Reg} {v : Word} (h : s.Open) (hfence : r.name ≠ .fnFence) (hword : r.name ≠ .entWord)
    (hread : s.readReg r = (t, v)) (hblk : t.blk = s.blk) : s.doRead r = t.respond 0 v := by
  simp [State.doRead, State.readable_open h, hread, hblk]

theorem State.doRead_storedCounter {s : State} (h : s.Open) {n : RegName} (hn : n ∈ storedCounters) (i j : Nat) :
    s.doRead ⟨n, i, j⟩ = (if n.row.rc then s.setReg n i j 0 else s).respond 0 (s.reg n i j) := by
  have hfence : n ≠ .fnFence := fun he => absurd (he ▸ hn) (by decide)
  have hword : n ≠ .entWord := fun he => absurd (he ▸ hn) (by decide)
  refine State.doRead_answers h hfence hword (s.readReg_storedCounter hn i j) ?_
  split
  · exact s.setReg_blk n i j 0
  · rfl

-- the statement -----------------------------------------------------------------------------------------------------------------

/-- Settles O15: an access is either refused by its size or address, or reaches one register, whose write stores or whose read shows
and clears. -/
theorem registerAccessesAnswerStoreAndClear : Obligations.RegisterAccessesAnswerStoreAndClear := by
  refine ⟨fun s addr size v h hbad => ⟨?_, fun hsize => ?_⟩,
    fun s addr v h halign => ⟨fun n hn i j hr => ?_, fun n hn i j hr => ?_⟩⟩
  · rw [exec_registerWrite, State.regWrite_illegal v h hbad]; rfl
  · rw [exec_readClearCounter, State.regRead_illegal h (hsize ▸ hbad)]; rfl
  · have hput : s.regWrite addr.toNat (2 : BitVec 2).toNat v = _ := State.regWrite_mapped v halign hr
    rw [exec_registerWrite, hput, State.put_plainStored h hn]; rfl
  · rw [exec_readClearCounter, State.regRead_mapped h halign hr, State.doRead_storedCounter h hn]

end Sys2Proof.Machine
end

section
/-! PROOFS. One step of the block: it takes the first command of the queue, none of the 219 commands stops, and a sound state stays
sound (R43, R45, R50, R59, R524). -/
namespace Sys2Proof.Machine

-- every command ---------------------------------------------------------------------------------------------------------------

/-- Whatever the command, it answers a next state, adds no command to the queue and removes none, and keeps a sound state sound. -/
theorem exec_keeps {a s : State} (i : Instr) (h : Keeps a s) : KeepsR a (exec i s) := by
  cases i with
  | porAssert => exact execPorAssert_keeps h
  | porRelease => exact execPorRelease_keeps h
  | blkRstAssert => exact execBlkRstAssert_keeps h
  | coldStart _ => exact execColdStart_keeps h
  | tstModeChange _ => exact execTstModeChange_keeps h
  | primerData _ _ => exact execPrimerData_keeps h
  | nvmError => exact execNvmError_keeps h
  | imageVerified _ => exact execImageVerified_keeps h
  | selfTestDone _ _ _ => exact execSelfTestDone_keeps h
  | registerPortWake => exact execRegisterPortWake_keeps h
  | clockAck _ _ => exact execClockAck_keeps h
  | clockAckLoss _ => exact execClockAckLoss_keeps h
  | powerAck _ _ => exact execPowerAck_keeps h
  | powerAckLoss _ => exact execPowerAckLoss_keeps h
  | retentionAck _ _ => exact execRetentionAck_keeps h
  | retAck _ => exact execRetAck_keeps h
  | islandIdleTimeout _ => exact execIslandIdleTimeout_keeps h
  | islandWake _ => exact execIslandWake_keeps h
  | vstepEcho _ => exact execVstepEcho_keeps h
  | vstep => exact execVstep_keeps h
  | fabricReadComplete _ _ _ => exact execFabricReadComplete_keeps h
  | fabricWriteAck _ _ _ => exact execFabricWriteAck_keeps h
  | fabricTimeout _ _ _ => exact execFabricTimeout_keeps h
  | keyLiftResponse _ => exact execKeyLiftResponse_keeps h
  | klTimeout => exact execKlTimeout_keeps h
  | cxResponse _ _ _ => exact execCxResponse_keeps h
  | cxTimeout _ => exact execCxTimeout_keeps h
  | timeAlign _ => exact execTimeAlign_keeps h
  | timeLoad _ _ => exact execTimeLoad_keeps h
  | timeMiss => exact execTimeMiss_keeps h
  | timeSync => exact execTimeSync_keeps h
  | slowingEnd => exact execSlowingEnd_keeps h
  | timeNowRead => exact execTimeNowRead_keeps h
  | doorbell _ _ _ => exact execDoorbell_keeps h
  | meterRefill => exact execMeterRefill_keeps h
  | strokeGrant _ => exact execStrokeGrant_keeps h
  | strokeCommit _ => exact execStrokeCommit_keeps h
  | duplicateMismatch _ => exact execDuplicateMismatch_keeps h
  | moderationTimeout _ _ => exact execModerationTimeout_keeps h
  | easelGrant _ => exact execEaselGrant_keeps h
  | rotation => exact execRotation_keeps h
  | fieldSelfTest => exact execFieldSelfTest_keeps h
  | scrub _ _ _ => exact execScrub_keeps h
  | ageMeasurement _ _ => exact execAgeMeasurement_keeps h
  | telemetrySnapshot _ => exact execTelemetrySnapshot_keeps h
  | lifeHours => exact execLifeHours_keeps h
  | tallyScan _ => exact execTallyScan_keeps h
  | tallyWriteDurable => exact execTallyWriteDurable_keeps h
  | faultCapture _ _ _ => exact execFaultCapture_keeps h
  | faultClassify => exact execFaultClassify_keeps h
  | collectorMismatch _ => exact execCollectorMismatch_keeps h
  | entropyWindowEnd _ _ _ => exact execEntropyWindowEnd_keeps h
  | sourceHealthFail _ => exact execSourceHealthFail_keeps h
  | sourceStartupPass _ => exact execSourceStartupPass_keeps h
  | estimatePeriodEnd _ _ _ _ _ => exact execEstimatePeriodEnd_keeps h
  | entropyStartTimeout => exact execEntropyStartTimeout_keeps h
  | entropyWaitTimeout _ => exact execEntropyWaitTimeout_keeps h
  | entWordTimeout => exact execEntWordTimeout_keeps h
  | gateSwapEffect => exact execGateSwapEffect_keeps h
  | eligibilityStart _ => exact execEligibilityStart_keeps h
  | eligibilityEnd _ => exact execEligibilityEnd_keeps h
  | prewake _ => exact execPrewake_keeps h
  | functionResetDrained _ => exact execFunctionResetDrained_keeps h
  | deepSleepDrained => exact execDeepSleepDrained_keeps h
  | galleryExtendComplete => exact execGalleryExtendComplete_keeps h
  | functionEnable _ => exact execFunctionEnable_keeps h
  | functionDisable _ => exact execFunctionDisable_keeps h
  | epochBump _ => exact execEpochBump_keeps h
  | functionReset _ _ => exact execFunctionReset_keeps h
  | fnPmSleep _ => exact execFnPmSleep_keeps h
  | fnPmRun _ => exact execFnPmRun_keeps h
  | fnFence _ => exact execFnFence_keeps h
  | entWord _ => exact execEntWord_keeps h
  | ringEnable _ _ _ => exact execRingEnable_keeps h
  | ringIrqWrite _ _ _ => exact execRingIrqWrite_keeps h
  | vectorUnmask _ _ => exact execVectorUnmask_keeps h
  | meterConfigWrite _ _ _ _ _ => exact execMeterConfigWrite_keeps h
  | deepSleepRequest => exact execDeepSleepRequest_keeps h
  | gateSwap _ => exact execGateSwap_keeps h
  | ctxTableEnable => exact execCtxTableEnable_keeps h
  | ctxTableDisable => exact execCtxTableDisable_keeps h
  | genBump => exact execGenBump_keeps h
  | keyInvalidate _ => exact execKeyInvalidate_keeps h
  | galleryExtend _ => exact execGalleryExtend_keeps h
  | entropyEnable => exact execEntropyEnable_keeps h
  | entropyDisable => exact execEntropyDisable_keeps h
  | rawModeEnter _ => exact execRawModeEnter_keeps h
  | rawModeExit _ => exact execRawModeExit_keeps h
  | faultPendingClear _ => exact execFaultPendingClear_keeps h
  | rearm => exact execRearm_keeps h
  | faultInjectArm _ => exact execFaultInjectArm_keeps h
  | readClearCounter _ => exact execReadClearCounter_keeps h
  | bistCommand _ => exact execBistCommand_keeps h
  | vretry => exact execVretry_keeps h
  | measureAll => exact execMeasureAll_keeps h
  | laneCounterClear _ _ => exact execLaneCounterClear_keeps h
  | digestCounterClear _ _ => exact execDigestCounterClear_keeps h
  | easelCounterClear _ _ => exact execEaselCounterClear_keeps h
  | laneGroupWrite _ _ _ => exact execLaneGroupWrite_keeps h
  | laneGroupRead _ _ => exact execLaneGroupRead_keeps h
  | tallyRegisterWrite _ _ => exact execTallyRegisterWrite_keeps h
  | registerWrite _ _ _ => exact execRegisterWrite_keeps h
  | nop _ => exact execNop_keeps h
  | fence _ => exact execFence_keeps h
  | ecbEncrypt _ => exact execEcbEncrypt_keeps h
  | ecbDecrypt _ => exact execEcbDecrypt_keeps h
  | cbcEncrypt _ => exact execCbcEncrypt_keeps h
  | cbcDecrypt _ => exact execCbcDecrypt_keeps h
  | ctr _ => exact execCtr_keeps h
  | xtsEncrypt _ => exact execXtsEncrypt_keeps h
  | xtsDecrypt _ => exact execXtsDecrypt_keeps h
  | gcmEncrypt _ => exact execGcmEncrypt_keeps h
  | gcmDecrypt _ => exact execGcmDecrypt_keeps h
  | ccmEncrypt _ => exact execCcmEncrypt_keeps h
  | ccmDecrypt _ => exact execCcmDecrypt_keeps h
  | gmacGenerate _ => exact execGmacGenerate_keeps h
  | gmacVerify _ => exact execGmacVerify_keeps h
  | cmacGenerate _ => exact execCmacGenerate_keeps h
  | cmacVerify _ => exact execCmacVerify_keeps h
  | chacha20 _ => exact execChacha20_keeps h
  | chachaPolyEncrypt _ => exact execChachaPolyEncrypt_keeps h
  | chachaPolyDecrypt _ => exact execChachaPolyDecrypt_keeps h
  | keyWrap _ => exact execKeyWrap_keeps h
  | keyUnwrap _ => exact execKeyUnwrap_keeps h
  | cbcHmacEncrypt _ => exact execCbcHmacEncrypt_keeps h
  | cbcHmacVerifyDecrypt _ => exact execCbcHmacVerifyDecrypt_keeps h
  | ctrHmac _ => exact execCtrHmac_keeps h
  | hash _ => exact execHash_keeps h
  | hashPartial _ => exact execHashPartial_keeps h
  | hmac _ => exact execHmac_keeps h
  | hmacVerify _ => exact execHmacVerify_keeps h
  | hmacPartial _ => exact execHmacPartial_keeps h
  | stencilOut _ => exact execStencilOut_keeps h
  | stencilIn _ => exact execStencilIn_keeps h
  | sealRecord _ => exact execSealRecord_keeps h
  | sealCheck _ => exact execSealCheck_keeps h
  | ecdsaVerify _ _ => exact execEcdsaVerify_keeps h
  | eddsaVerify _ _ => exact execEddsaVerify_keeps h
  | eddsaBatch _ _ => exact execEddsaBatch_keeps h
  | rsaVerifyPss _ _ => exact execRsaVerifyPss_keeps h
  | rsaVerifyPkcs1 _ _ => exact execRsaVerifyPkcs1_keeps h
  | rsaPublic _ _ => exact execRsaPublic_keeps h
  | modexpPublic _ _ => exact execModexpPublic_keeps h
  | pointCheck _ _ => exact execPointCheck_keeps h
  | curveLoad _ _ => exact execCurveLoad_keeps h
  | sketchCall _ => exact execSketchCall_keeps h
  | randomFill _ => exact execRandomFill_keeps h
  | randomKey _ => exact execRandomKey_keeps h
  | ctxCreate _ => exact execCtxCreate_keeps h
  | ctxDestroy _ => exact execCtxDestroy_keeps h
  | ctxRotate _ => exact execCtxRotate_keeps h
  | ctxExport _ => exact execCtxExport_keeps h
  | ctxImport _ => exact execCtxImport_keeps h
  | ctxSnapshot _ => exact execCtxSnapshot_keeps h
  | ctxFlush _ => exact execCtxFlush_keeps h
  | skNop _ _ => exact execSkNop_keeps h
  | skEnd _ _ _ => exact execSkEnd_keeps h
  | skYield _ _ _ => exact execSkYield_keeps h
  | skJmp _ _ _ => exact execSkJmp_keeps h
  | skCall _ _ _ => exact execSkCall_keeps h
  | skRet _ _ => exact execSkRet_keeps h
  | skDbnz _ _ _ => exact execSkDbnz_keeps h
  | skPushi _ _ _ => exact execSkPushi_keeps h
  | skPushs _ _ _ => exact execSkPushs_keeps h
  | skPushx _ _ _ => exact execSkPushx_keeps h
  | skDup _ _ => exact execSkDup_keeps h
  | skDrop _ _ => exact execSkDrop_keeps h
  | skSwap _ _ => exact execSkSwap_keeps h
  | skOver _ _ => exact execSkOver_keeps h
  | skRot _ _ => exact execSkRot_keeps h
  | skPick _ _ _ => exact execSkPick_keeps h
  | skDepth _ _ => exact execSkDepth_keeps h
  | skAdd _ _ => exact execSkAdd_keeps h
  | skAdc _ _ => exact execSkAdc_keeps h
  | skSub _ _ => exact execSkSub_keeps h
  | skSbc _ _ => exact execSkSbc_keeps h
  | skCmp _ _ => exact execSkCmp_keeps h
  | skAddi _ _ _ => exact execSkAddi_keeps h
  | skAnd _ _ => exact execSkAnd_keeps h
  | skOr _ _ => exact execSkOr_keeps h
  | skXor _ _ => exact execSkXor_keeps h
  | skNot _ _ => exact execSkNot_keeps h
  | skShl _ _ _ => exact execSkShl_keeps h
  | skShr _ _ _ => exact execSkShr_keeps h
  | skSar _ _ _ => exact execSkSar_keeps h
  | skRol _ _ _ => exact execSkRol_keeps h
  | skClz _ _ => exact execSkClz_keeps h
  | skCtz _ _ => exact execSkCtz_keeps h
  | skBfx _ _ _ _ => exact execSkBfx_keeps h
  | skBfi _ _ _ _ => exact execSkBfi_keeps h
  | skPerm _ _ => exact execSkPerm_keeps h
  | skBswap _ _ => exact execSkBswap_keeps h
  | skLd _ _ _ _ => exact execSkLd_keeps h
  | skSt _ _ _ _ => exact execSkSt_keeps h
  | skLdx _ _ _ _ => exact execSkLdx_keeps h
  | skStx _ _ _ _ => exact execSkStx_keeps h
  | skSeglen _ _ _ => exact execSkSeglen_keeps h
  | skCopy _ _ => exact execSkCopy_keeps h
  | skMul _ _ => exact execSkMul_keeps h
  | skRdml _ _ _ => exact execSkRdml_keeps h
  | skRdmh _ _ _ => exact execSkRdmh_keeps h
  | skRdsr _ _ _ => exact execSkRdsr_keeps h
  | skWrfl _ _ => exact execSkWrfl_keeps h
  | gzSetmod _ _ _ => exact execGzSetmod_keeps h
  | gzCurve _ _ _ _ => exact execGzCurve_keeps h
  | gzSelm _ _ _ => exact execGzSelm_keeps h
  | gzIn _ _ _ _ => exact execGzIn_keeps h
  | gzOut _ _ _ _ _ => exact execGzOut_keeps h
  | gzSeti _ _ _ _ _ => exact execGzSeti_keeps h
  | gzMov _ _ _ _ _ => exact execGzMov_keeps h
  | gzAdd _ _ _ _ _ _ => exact execGzAdd_keeps h
  | gzSub _ _ _ _ _ _ => exact execGzSub_keeps h
  | gzNeg _ _ _ _ _ => exact execGzNeg_keeps h
  | gzMmul _ _ _ _ _ _ => exact execGzMmul_keeps h
  | gzMsqr _ _ _ _ _ => exact execGzMsqr_keeps h
  | gzInv _ _ _ _ _ => exact execGzInv_keeps h
  | gzCmp _ _ _ _ _ _ => exact execGzCmp_keeps h
  | customerExtension _ _ _ _ => exact execCustomerExtension_keeps h
  | rawCaptureBeat _ => exact execRawCaptureBeat_keeps h

-- one step ----------------------------------------------------------------------------------------------------------------------

theorem step_of_pending_nil {s : State} (h : s.pending = []) : step s = .next (aonTick s) := by simp [step, h]

theorem step_of_pending_cons {s : State} {c : Instr} {rest : List Instr} (h : s.pending = c :: rest) :
    step s = exec c { s with pending := rest } := by simp [step, h]

/-- The queue of commands is no part of what makes a state sound. -/
theorem State.Sound.withPending {s : State} (h : s.Sound) (q : List Instr) : ({ s with pending := q } : State).Sound := by
  obtain ⟨⟨regs, fns, rings, lanes, digs, easels, islands, sources, ages, cells, gallery, galleryCounts⟩, code, errorData, reads,
    writes, lift, queue⟩ := h
  exact ⟨⟨regs, fns, rings, lanes, digs, easels, islands, sources, ages, cells, gallery, galleryCounts⟩, code, errorData, reads,
    writes, lift, queue⟩

/-- One step keeps all but the first command of the queue, and a sound state stays sound: the queue is empty and a tick passes, or the
first command runs. -/
theorem step_keeps (s : State) : KeepsR { s with pending := s.pending.tail } (step s) := by
  cases hq : s.pending with
  | nil =>
    rw [step_of_pending_nil hq]
    exact .mkNext (aonTick_keeps ⟨hq, fun h => h.withPending s.pending⟩)
  | cons c rest =>
    rw [step_of_pending_cons hq]
    exact exec_keeps c (Keeps.refl _)

/-- Settles O57: a step keeps the rest of the queue. -/
theorem everyStepTakesOneCommandInOrder : Obligations.EveryStepTakesOneCommandInOrder := by
  intro s
  obtain ⟨t, hstep, hkeeps⟩ := (step_keeps s).next
  exact ⟨t, hstep, hkeeps.queue⟩

/-- Settles O59: soundness is kept by each command on the rest of the queue, and by a tick. -/
theorem everyStepKeepsTheStateSound : Obligations.EveryStepKeepsTheStateSound := by
  intro s t hs ht
  obtain ⟨u, hstep, hkeeps⟩ := (step_keeps s).next
  obtain rfl : u = t := by simpa [ht] using hstep.symm
  exact hkeeps.sound (hs.withPending _)

-- a tick of aon_clk ---------------------------------------------------------------------------------------------------------------

/-- The capture of an event changes the collector, ends a stalled read and may freeze the block: no time passes. -/
@[simp] theorem State.capture_time (s : State) (src detail tag : Nat) (inj : Bool) (least : Nat) :
    (s.capture src detail tag inj least).time = s.time := by
  unfold State.capture State.endStall
  dsimp only
  repeat' split
  all_goals rfl

@[simp] theorem State.capture_ticks (s : State) (src detail tag : Nat) (inj : Bool) (least : Nat) :
    (s.capture src detail tag inj least).ticks = s.ticks := by
  unfold State.capture State.endStall
  dsimp only
  repeat' split
  all_goals rfl

@[simp] theorem State.updateSync_count (s : State) : s.updateSync.time.count = s.time.count := by
  simp only [State.updateSync]
  split <;> simp

@[simp] theorem State.updateSync_ticks (s : State) : s.updateSync.ticks = s.ticks := by
  simp only [State.updateSync]
  split <;> simp

@[simp] theorem State.ringDue_time (s : State) (f n : Nat) : (s.ringDue f n).time = s.time := by
  simp only [State.ringDue, State.due]
  split <;> simp

@[simp] theorem State.ringDue_ticks (s : State) (f n : Nat) : (s.ringDue f n).ticks = s.ticks := by
  simp only [State.ringDue, State.due]
  split <;> simp

/-- What each step of a fold leaves as it was, the fold leaves as it was. -/
theorem foldl_keeps_field {α β : Type} (field : State → β) {f : State → α → State} (hf : ∀ s x, field (f s x) = field s)
    (l : List α) (s : State) : field (l.foldl f s) = field s := by
  induction l generalizing s with
  | nil => rfl
  | cons x l ih => exact (ih (f s x)).trans (hf s x)

@[simp] theorem State.moderate_time (s : State) : s.moderate.time = s.time :=
  foldl_keeps_field State.time (fun s e => by rw [apply_ite State.time, State.ringDue_time, ite_self]) _ s

@[simp] theorem State.moderate_ticks (s : State) : s.moderate.ticks = s.ticks :=
  foldl_keeps_field State.ticks (fun s e => by rw [apply_ite State.ticks, State.ringDue_ticks, ite_self]) _ s

@[simp] theorem State.tickTimers_time (s : State) : s.tickTimers.time = s.time := rfl
@[simp] theorem State.tickTimers_ticks (s : State) : s.tickTimers.ticks = s.ticks := rfl

/-- While `por_n` is low no tick passes. -/
theorem aonTick_of_porLow {s : State} (h : s.blk.porLow = true) : aonTick s = s := by simp [aonTick, h]

/-- The block one tick on, before what follows from it: the count, the ages and the running times have moved. -/
def State.ticked (s : State) : State :=
  { s with time := { s.time.advance with age := s.time.age + 1, edgeAge := s.time.edgeAge + 1 }, ticks := s.ticks + 1
           runLane := s.runLane + (if s.clkOk 4 then 1 else 0)
           runDig := s.runDig + (if s.clkOk 5 then 1 else 0)
           runPke := s.runPke + (if s.clkOk 6 then 1 else 0) }

theorem aonTick_of_not_porLow {s : State} (h : s.blk.porLow = false) :
    aonTick s = s.ticked.updateSync.tickTimers.moderate.settle := by simp [aonTick, h, State.ticked]

/-- The count never falls within a tick: a slowing and a holding take no more than the tick gives (R480, R481). -/
theorem TimeU.count_le_advance (t : TimeU) : t.count ≤ t.advance.count := Nat.le_add_right _ _

/-- Settles O56: the two forms of the queue; on an empty one a tick moves the count of ticks and lets the time pass. -/
theorem stepRunsTheFrontCommand : Obligations.StepRunsTheFrontCommand := by
  refine ⟨fun s c rest hq => step_of_pending_cons hq, fun s hq hlow => ?_, fun s hq hhigh => ?_⟩
  · rw [step_of_pending_nil hq, aonTick_of_porLow hlow]
  · refine ⟨s.ticked.updateSync.tickTimers.moderate, ?_, ?_, ?_⟩
    · rw [step_of_pending_nil hq, aonTick_of_not_porLow hhigh]
    · simp [State.ticked]
    · simpa [State.ticked] using s.time.count_le_advance

end Sys2Proof.Machine
end

section
/-! PROOFS. The state after reset, and what the two resets of the block leave of a state (R40, R79, R112, R520, R521). -/
namespace Sys2Proof.Machine

-- the state after reset -------------------------------------------------------------------------------------------------------

theorem numbered_nil (lim : Nat) : numbered [] lim := ⟨by simp, by simp⟩

/-- After reset every table is empty, and nothing is outstanding or queued. -/
theorem reset_sound : State.reset.Sound where
  canonical := ⟨rfl, rfl, rfl, rfl, rfl, rfl, rfl, rfl, rfl, rfl, rfl, rfl⟩
  code := Nat.zero_le 1
  errorData := fun _ => rfl
  reads := numbered_nil 256
  writes := numbered_nil 128
  lift := Nat.zero_le 4
  queue := Nat.zero_le 16

theorem reset_reg (n : RegName) (i j : Nat) : State.reset.reg n i j = regDefault (regKey n i j) := tget_nil regDefault _

/-- Settles O58: the tables of the state after reset are empty, so every read of it gives the default. -/
theorem resetStateIsSound : Obligations.ResetStateIsSound :=
  ⟨reset_sound, rfl, rfl, fun _ => ⟨rfl, rfl, rfl⟩, reset_reg, fun _ => ⟨rfl, rfl⟩, rfl, fun _ => rfl, rfl, rfl⟩

-- resets ------------------------------------------------------------------------------------------------------------------------

theorem exec_porAssert (s : State) : exec .porAssert s = .next s.porReset := rfl

theorem exec_porRelease (s : State) : exec .porRelease s = .next { s with blk := { s.blk with porLow := false } } := rfl

theorem exec_blkRstAssert (s : State) : exec .blkRstAssert s = .next s.blkReset := rfl

/-- A reset cuts no tally write short where none is in progress (R88, R521). -/
theorem State.tlyCut_of_no_write {s : State} (h : s.tly.cur = none) : s.tlyCut = s := by simp [State.tlyCut, h]

/-- A table of which only the keys with `p` are kept: the others read as the default. -/
theorem tget_filter_key {α : Type} (d : Nat → α) (p : Nat → Bool) (t : Tbl α) (k : Nat) :
    tget d (t.filter (fun e => p e.1)) k = if p k then tget d t k else d k := by
  induction t with
  | nil => simp
  | cons e t ih =>
    by_cases hk : e.1 = k
    · subst hk
      cases hp : p e.1 <;> simp [hp, tget, ih]
    · cases hp : p e.1 <;> simp [hp, tget, hk, ih]

/-- Settles O25: both resets build the state afresh from what they keep; with no write in progress the cells are those of before. -/
theorem resetsKeepOnlyTheDurableState : Obligations.ResetsKeepOnlyTheDurableState := by
  intro s hidle
  have hcut := State.tlyCut_of_no_write hidle
  refine ⟨⟨s.porReset, exec_porAssert s, ?_⟩, exec_porRelease s, ⟨s.blkReset, exec_blkRstAssert s, ?_⟩⟩
  · simp [State.porReset, hcut]
  · simp [State.blkReset, hcut, tget_filter_key]

end Sys2Proof.Machine
end

section
/-! PROOFS. Clock handshakes and voltage steps (R41, R46, R69, R70, R73, R500, R535 to R537). -/
namespace Sys2Proof.Machine

-- clocks ------------------------------------------------------------------------------------------------------------------------

theorem exec_registerPortWake (s : State) : exec .registerPortWake s = .next s.present.settle := rfl

theorem exec_clockAck (d : ClkDomain) (v : Bool) (s : State) :
    exec (.clockAck d v) s = .next (s.clockAck (clkIdx d) v).initAdvance.settle := rfl

theorem exec_clockAckLoss (d : ClkDomain) (s : State) : exec (.clockAckLoss d) s = .next (s.clockAck (clkIdx d) false).settle := rfl

/-- A request that the port does not take waits for the register clock, where no read is stalled (R43, R46). -/
theorem State.present_waits {s : State} (hawake : s.awake = true) (hpor : s.blk.porLow = false) (hstall : s.port.stall = none) :
    s.present = { s with port := { s.port with waiting := true } } := by
  simp [State.present, hawake, hpor, hstall]

/-- The acknowledge line of a domain's clock stands at a level. -/
def State.clkAckAt (s : State) (d : Nat) (v : Bool) : State := { s with pwr := { s.pwr with clkAck := setBit13 s.pwr.clkAck d v } }

/-- An acknowledge that rises, or falls while the clock is not requested, is only taken. -/
theorem State.clockAck_taken {s : State} {d : Nat} {v : Bool} (h : v = true ∨ s.pwr.clkReq.getLsbD d = false) :
    s.clockAck d v = s.clkAckAt d v := by
  have hno : (!v && s.pwr.clkReq.getLsbD d) = false := by
    rcases h with rfl | h
    · rfl
    · rw [h, Bool.and_false]
  simp only [State.clockAck, hno]
  rfl

/-- An acknowledge that falls while the clock is requested is CLK_ACK (R70, R500). -/
theorem State.clockAck_lost {s : State} {d : Nat} (h : s.pwr.clkReq.getLsbD d = true) :
    s.clockAck d false = (s.clkAckAt d false).capture 0x04 := by
  simp [State.clockAck, State.clkAckAt, h]

/-- Settles O28: a waiting request asks for the clock; an acknowledge is taken, and lost only where its clock is requested. -/
theorem clockHandshakes : Obligations.ClockHandshakes := by
  intro s d v t
  refine ⟨fun hawake hpor hstall => ?_, fun ht => ?_⟩
  · rw [exec_registerPortWake, State.present_waits hawake hpor hstall]
  · obtain rfl : t = s.clkAckAt (clkIdx d) v := ht
    refine ⟨fun htaken => ?_, fun hv hreq => ?_, fun hv hreq => ?_⟩
    · rw [exec_clockAck, State.clockAck_taken htaken]
    · subst hv
      rw [exec_clockAck, exec_clockAckLoss, State.clockAck_lost hreq]
      exact ⟨rfl, rfl⟩
    · subst hv
      rw [exec_clockAckLoss, State.clockAck_taken (.inr hreq)]

-- voltage steps -------------------------------------------------------------------------------------------------------------------

theorem exec_vstepEcho (v : BitVec 2) (s : State) : exec (.vstepEcho v) s = .next (s.vstepEcho v.toNat).settle := rfl

theorem exec_vstep (s : State) : exec .vstep s = .next s.vstepLate.settle := rfl

/-- An echo of another value than the requested one, or one that is not awaited, is only taken (R73). -/
theorem State.vstepEcho_idle {s : State} {v : Nat} (h : v ≠ s.pwr.vreq ∨ s.pwr.vwait = none) :
    s.vstepEcho v = { s with pwr := { s.pwr with vack := v } } := by
  rcases h with hv | hwait
  · simp [State.vstepEcho, hv]
  · simp [State.vstepEcho, hwait]

/-- The echo of the step that unit `u` asked for puts the requested voltage in force and records it (R535, R537). -/
theorem State.vstepEcho_taken {s : State} {u : Nat} (hwait : s.pwr.vwait = some (some u)) (hup : s.pwr.v < s.pwr.vreq) :
    s.vstepEcho s.pwr.vreq
      = (({ s with pwr := { s.pwr with vack := s.pwr.vreq, v := s.pwr.vreq, vwait := none } } : State).vplanWrite).capture 0x93 u := by
  simp [State.vstepEcho, State.vstepTaken, hwait, hup]

/-- The unit whose step was not echoed in time is to be retired, and no further step is asked for (R536). -/
theorem State.vstepLate_unit {s : State} {u : Nat} (hwait : s.pwr.vwait = some (some u)) :
    s.vstepLate = (s.capture 0x07).recover (fun t =>
      (({ t with pwr := { t.pwr with vwait := none, vref := true } } : State).vplanWrite).marginRetire u) := by
  simp [State.vstepLate, hwait]

/-- Settles O30: an echo is idle or takes the step; without one in time the step is refused. -/
theorem voltageStepTakenOrRefused : Obligations.VoltageStepTakenOrRefused := by
  intro s v u
  refine ⟨fun hidle => ?_, fun hv hwait hup => ?_, fun hwait => ?_⟩
  · rw [exec_vstepEcho, State.vstepEcho_idle hidle]
  · rw [exec_vstepEcho, hv, State.vstepEcho_taken hwait hup]
  · rw [exec_vstep, State.vstepLate_unit hwait]

end Sys2Proof.Machine
end

section
/-! PROOFS. Loads of the time unit: what each of them corrects, and which are rejected (R67, R68, R481, R482, R484, R496). -/
namespace Sys2Proof.Machine

theorem exec_timeLoad {s : State} (sec : BitVec 48) (ns : BitVec 32) (hclk : s.clkOk 10 = true) (hcore : s.islandUp 12 = true) :
    exec (.timeLoad sec ns) s = .next (s.timeLoad sec.toNat ns.toNat).settle := by
  change Host.Outcome.next (if s.clkOk 10 && s.islandUp 12 then s.timeLoad sec.toNat ns.toNat else s).settle = _
  simp [hclk, hcore]

/-- R68 names a load that awaits no edge, comes too late after it, or carries an ill-formed time. -/
theorem State.loadBad_iff {s : State} {ns : Nat} :
    s.loadBad ns = true ↔ s.time.edge = none ∨ 500 < s.time.edgeAge ∨ 1000000000 ≤ ns ∨ ns % 1000000 ≠ 0 := by
  simp [State.loadBad, or_assoc]

theorem State.timeLoad_rejected {s : State} {sec ns : Nat}
    (h : s.time.edge = none ∨ 500 < s.time.edgeAge ∨ 1000000000 ≤ ns ∨ ns % 1000000 ≠ 0) :
    s.timeLoad sec ns = (s.bumpSat .timeRejectCount).capture 0xA0 := by
  simp [State.timeLoad, State.loadBad_iff.mpr h]

/-- An accepted load is counted and its offset recorded (R496). -/
def State.loadNoted (s : State) (d : Int) : State := (s.setReg .timeOffset 0 0 (sat32 d)).bump .timeLoadCount

/-- What every accepted load of offset `d` leaves of the time unit, but for the correction (R481, R482). -/
def TimeU.loaded (t : TimeU) (d : Int) : TimeU :=
  { t with rate := Config.rateEstimate t.rate d, ever := true, age := 0, due := false, wake := none }

@[simp] theorem State.loadNoted_time (s : State) (d : Int) : (s.loadNoted d).time = s.time := by simp [State.loadNoted]

@[simp] theorem State.loadNoted_timeCfg (s : State) (d : Int) : (s.loadNoted d).reg .timeCfg = s.reg .timeCfg := by
  have hcount : regKey .timeCfg 0 0 ≠ regKey .timeLoadCount 0 0 := by decide
  have hoffset : regKey .timeCfg 0 0 ≠ regKey .timeOffset 0 0 := by decide
  rw [State.loadNoted, State.bump, State.reg_setReg_ne _ _ hcount, State.reg_setReg_ne _ _ hoffset]

/-- An accepted load after its correction: what it leaves of the time unit, and whether it was near (R482). -/
def State.loadTaken (s : State) (near : Bool) (d : Int) : State := { s with time := { s.time.loaded d with near := near } }

section accepted
variable {s : State} {sec ns c : Nat} {d : Int} (hgood : s.loadBad ns = false) (hedge : s.time.edge = some c)
  (hd : d = timeOffset (sec * 1000000000 + ns) c)
include hgood hedge hd

/-- A load of offset `d` is corrected by its size and judged by SYNC_TOL (R481, R482). -/
theorem State.timeLoad_running (hwake : s.time.wake = none) :
    s.timeLoad sec ns
      = (((s.loadNoted d).correct d).loadTaken (decide (d.natAbs ≤ fld (s.reg .timeCfg) 7 0)) d).updateSync := by
  have hoffset : timeOffset (sec * 1000000000 + ns) (s.time.edge.getD 0) = d := by rw [hedge, hd]; rfl
  have hcfg := s.loadNoted_timeCfg d
  rw [State.timeLoad, if_neg (by simp [hgood]), hoffset]
  simp only [State.loadNoted] at hcfg ⊢
  simp only [State.setReg_time, State.bump_time, hwake, hcfg, State.loadTaken, TimeU.loaded]

/-- The first load after a wake takes the rest of the correction at once, and leaves what SYNC is judged by (R484). -/
theorem State.timeLoad_woken {x : Int} (hwake : s.time.wake = some x) :
    s.timeLoad sec ns = (((s.loadNoted d).wakeCorrect (d - x)).loadTaken s.time.near d).updateSync := by
  have hoffset : timeOffset (sec * 1000000000 + ns) (s.time.edge.getD 0) = d := by rw [hedge, hd]; rfl
  rw [State.timeLoad, if_neg (by simp [hgood]), hoffset]
  simp only [State.loadNoted, State.setReg_time, State.bump_time, hwake, State.loadTaken, TimeU.loaded]

end accepted

-- corrections (R481, R484) --------------------------------------------------------------------------------------------------------

theorem State.correct_slew {s : State} {d : Int} (h : d.natAbs ≤ fld (s.reg .timeCfg) 27 16) :
    s.correct d = { s with time := { s.time with slew := d, slewPos := 0, slow := 0 } } := by
  simp [State.correct, h]

theorem State.correct_step {s : State} {d : Int} (h : (fld (s.reg .timeCfg) 27 16 : Int) < d) :
    s.correct d = { s.bumpSat .timeStepCount with time := { s.time with
      count := s.time.count + d.toNat, slew := 0, slewPos := 1000000, slow := 0 } } := by
  have hlarge : ¬ d.natAbs ≤ fld (s.reg .timeCfg) 27 16 := by omega
  have hpos : 0 < d := by omega
  simp [State.correct, hlarge, hpos]

theorem State.correct_slow {s : State} {d : Int} (h : d < -(fld (s.reg .timeCfg) 27 16 : Int)) :
    s.correct d = { s.bumpSat .timeStepCount with time := { s.time with slew := 0, slewPos := 1000000, slow := d.natAbs } } := by
  have hlarge : ¬ d.natAbs ≤ fld (s.reg .timeCfg) 27 16 := by omega
  have hneg : ¬ 0 < d := by omega
  simp [State.correct, hlarge, hneg]

theorem State.wakeCorrect_forward {s : State} {rest : Int} (h : 0 ≤ rest) :
    s.wakeCorrect rest = { s with time := { s.time with count := s.time.count + rest.toNat } } := by
  simp [State.wakeCorrect, h]

theorem State.wakeCorrect_hold {s : State} {rest : Int} (h : rest < 0) :
    s.wakeCorrect rest = { s with time := { s.time with hold := s.time.hold + rest.natAbs } } := by
  simp [State.wakeCorrect, not_le.mpr h]

-- the statement -----------------------------------------------------------------------------------------------------------------

/-- Settles O33: the load is rejected, or its offset is corrected by its size, or at once after a wake. -/
theorem timeLoadsCorrectTheCount : Obligations.TimeLoadsCorrectTheCount := by
  intro s base sec ns c mx d t hclk hcore
  refine ⟨fun hedge hage hns hms hd hmx hbase ht => ⟨fun hwake => ?_, fun x hwake => ?_⟩, fun hbad => ?_⟩
  · have hgood : s.loadBad ns.toNat = false := by simp [State.loadBad, hedge, hage, hns, hms]
    have hload := State.timeLoad_running (sec := sec.toNat) hgood hedge hd hwake
    have hcfg := s.loadNoted_timeCfg d
    subst hmx hbase ht
    refine ⟨fun hsmall => ?_, fun hstep => ?_, fun hslow => ?_⟩
    · rw [exec_timeLoad sec ns hclk hcore, hload, State.correct_slew (hcfg ▸ hsmall)]
      simp [State.loadNoted, State.loadTaken, TimeU.loaded]
    · rw [exec_timeLoad sec ns hclk hcore, hload, State.correct_step (hcfg ▸ hstep)]
      simp [State.loadNoted, State.loadTaken, TimeU.loaded]
    · rw [exec_timeLoad sec ns hclk hcore, hload, State.correct_slow (hcfg ▸ hslow)]
      simp [State.loadNoted, State.loadTaken, TimeU.loaded]
  · have hgood : s.loadBad ns.toNat = false := by simp [State.loadBad, hedge, hage, hns, hms]
    have hload := State.timeLoad_woken (sec := sec.toNat) hgood hedge hd hwake
    subst hbase ht
    refine ⟨fun hle => ?_, fun hlt => ?_⟩
    · rw [exec_timeLoad sec ns hclk hcore, hload, State.wakeCorrect_forward (sub_nonneg.mpr hle)]
      simp [State.loadNoted, State.loadTaken, TimeU.loaded]
    · rw [exec_timeLoad sec ns hclk hcore, hload, State.wakeCorrect_hold (sub_neg.mpr hlt)]
      simp [State.loadNoted, State.loadTaken, TimeU.loaded]
  · rw [exec_timeLoad sec ns hclk hcore, State.timeLoad_rejected hbad]

end Sys2Proof.Machine
end

section
/-! PROOFS. The lane operations: the row of an operation computes the output of the stroke that a lane holds (R70, R272, R286, R337, R349,
R351; log entry 10). -/
namespace Sys2Proof.Machine

-- one engine ------------------------------------------------------------------------------------------------------------------

/-- An engine after the row of the operation of request `id`: the stroke of the request has its output, where its source has been read. -/
def State.strokeComputed (s : State) (id : Nat) (r : Req) (x : Eng) : Eng :=
  match x.run with
  | some w => if w.id = id ∧ w.src.isSome ∧ w.out.isNone then { x with run := some { w with out := some (s.strokeOut r w.k) } } else x
  | none => x

/-- An engine stays where its stroke is of another request or has its output already. -/
theorem State.strokeComputed_same {s : State} {id : Nat} {r : Req} {x : Eng}
    (h : ∀ w, x.run = some w → w.id = id → w.out ≠ none) : s.strokeComputed id r x = x := by
  cases hrun : x.run with
  | none => simp [State.strokeComputed, hrun]
  | some w =>
    have hdone : ¬ (w.id = id ∧ w.src.isSome ∧ w.out.isNone) := fun ⟨hid, _, hout⟩ =>
      h w hrun hid (Option.isNone_iff_eq_none.mp hout)
    simp only [State.strokeComputed, hrun, if_neg hdone]

theorem State.strokeComputed_due {s : State} {id : Nat} {r : Req} {x : Eng} {w : Run} (hrun : x.run = some w) (hid : w.id = id)
    (hsrc : w.src ≠ none) (hout : w.out = none) :
    s.strokeComputed id r x = { x with run := some { w with out := some (s.strokeOut r w.k) } } := by
  simp [State.strokeComputed, hrun, hid, hout, Option.isSome_iff_ne_none.mpr hsrc]

-- all engines -------------------------------------------------------------------------------------------------------------------

/-- A fold whose steps change nothing. -/
theorem foldl_of_steps_idle {σ α : Type} {f : σ → α → σ} {l : List α} (t : σ) (h : ∀ m ∈ l, ∀ t, f t m = t) :
    l.foldl f t = t := by
  induction l generalizing t with
  | nil => rfl
  | cons m l ih => rw [List.foldl_cons, h m (by simp), ih t (fun k hk => h k (by simp [hk]))]

/-- A fold of which one step alone changes anything. -/
theorem foldl_of_one_step {σ α : Type} {f : σ → α → σ} {l : List α} {n : α} (t : σ) (hnodup : l.Nodup) (hn : n ∈ l)
    (h : ∀ m ∈ l, m ≠ n → ∀ t, f t m = t) : l.foldl f t = f t n := by
  induction l generalizing t with
  | nil => simp at hn
  | cons m l ih =>
    obtain ⟨hm, hl⟩ := List.nodup_cons.mp hnodup
    rw [List.foldl_cons]
    by_cases hmn : m = n
    · subst hmn
      exact foldl_of_steps_idle _ (fun k hk => h k (by simp [hk]) (fun he => hm (he ▸ hk)))
    · rw [h m (by simp) hmn]
      exact ih t hl (by simpa [Ne.symm hmn] using hn) (fun k hk => h k (by simp [hk]))

/-- While the block is live and the clock of the operation's engines runs, its row computes on all of them (R70). -/
theorem State.compute_running {s : State} {op id : Nat} {r : Req} (hreq : s.req id = some r) (hop : dOp r.d = op)
    (hlive : s.live = true) (hclk : s.clkOk (if opDigest op then 5 else 4) = true) :
    s.compute op id
      = (List.range 4).foldl
          (fun t e => if s.strokeComputed id r (s.dig e) = s.dig e then t else t.setDig e (s.strokeComputed id r (s.dig e)))
          ((List.range 9).foldl
            (fun t n => if s.strokeComputed id r (s.lane n) = s.lane n then t else t.setLane n (s.strokeComputed id r (s.lane n))) s) := by
  have hruns : ¬ (dOp r.d ≠ op ∨ ¬ s.live ∨ ¬ s.clkOk (if opDigest op then 5 else 4)) := by simp [hop, hlive, hclk]
  simp only [State.compute, hreq, if_neg hruns]
  rfl

/-- The row of a lane operation gives its output to the stroke of lane `n`, the only one of the request that waits for it. -/
theorem State.compute_onlyOnLane {s : State} {op id n : Nat} {r : Req} {w : Run} (hreq : s.req id = some r) (hop : dOp r.d = op)
    (hdig : opDigest op = false) (hlive : s.live = true) (hclk : s.clkOk 4 = true) (hn : n < 9) (hrun : (s.lane n).run = some w)
    (hid : w.id = id) (hsrc : w.src ≠ none) (hout : w.out = none) (honly : onlyOnLane s id n) :
    s.compute op id = s.setLane n { s.lane n with run := some { w with out := some (s.strokeOut r w.k) } } := by
  obtain ⟨hlanes, hdigs⟩ := honly
  have hdue := State.strokeComputed_due (s := s) (r := r) hrun hid hsrc hout
  have hchanged : s.strokeComputed id r (s.lane n) ≠ s.lane n := fun he => by
    have : (s.lane n).run = some { w with out := some (s.strokeOut r w.k) } := by rw [← he, hdue]
    have hsame : w = { w with out := some (s.strokeOut r w.k) } := Option.some_injective _ (hrun.symm.trans this)
    simpa [hout] using congrArg Run.out hsame
  rw [State.compute_running hreq hop hlive (by simpa [hdig] using hclk),
    foldl_of_one_step (n := n) s List.nodup_range (List.mem_range.mpr hn)
      (fun m hm hne t => if_pos (State.strokeComputed_same (hlanes m (List.mem_range.mp hm) hne))),
    foldl_of_steps_idle _ (fun e he t => if_pos (State.strokeComputed_same (hdigs e (List.mem_range.mp he)))),
    if_neg hchanged, hdue]

-- the operations ------------------------------------------------------------------------------------------------------------------

/-- The rows of the lane operations with their operation codes. -/
def laneRows (id : Nat) : List (Instr × Nat) :=
  [(.ecbEncrypt id, 0x10), (.ecbDecrypt id, 0x11), (.cbcEncrypt id, 0x12), (.cbcDecrypt id, 0x13), (.ctr id, 0x14),
   (.xtsEncrypt id, 0x15), (.xtsDecrypt id, 0x16), (.gcmEncrypt id, 0x18), (.gcmDecrypt id, 0x19), (.ccmEncrypt id, 0x1A),
   (.ccmDecrypt id, 0x1B), (.gmacGenerate id, 0x1C), (.gmacVerify id, 0x1D), (.cmacGenerate id, 0x1E), (.cmacVerify id, 0x1F),
   (.chacha20 id, 0x20), (.chachaPolyEncrypt id, 0x21), (.chachaPolyDecrypt id, 0x22), (.keyWrap id, 0x23),
   (.keyUnwrap id, 0x24), (.cbcHmacEncrypt id, 0x40), (.cbcHmacVerifyDecrypt id, 0x41), (.ctrHmac id, 0x42),
   (.stencilOut id, 0x50), (.stencilIn id, 0x51), (.sealRecord id, 0x52), (.sealCheck id, 0x53)]

/-- Every lane operation is the computation of its code, which is no digest operation. -/
theorem exec_laneRow (s : State) (id : Nat) :
    ∀ p ∈ laneRows id, exec p.1 s = .next (s.compute p.2 id).settle ∧ opDigest p.2 = false := by
  simp only [laneRows, List.forall_mem_cons, List.not_mem_nil, false_implies, implies_true, and_true]
  and_intros <;> rfl

/-- A cipher operation works on one pass over its source. -/
theorem dTwoPass_cipher {d : Bytes} (hhi : dOp d ≤ 0x24) : dTwoPass d = false := by
  have h41 : dOp d ≠ 0x41 := by omega
  have h42 : dOp d ≠ 0x42 := by omega
  simp [dTwoPass, dDir, h41, h42]

/-- A cipher's stroke that releases bytes gives its span of the output over the payload read so far (R272, R337). -/
theorem State.strokeOut_cipher {s : State} {r : Req} {k : Nat} (hhi : dOp r.d ≤ 0x24)
    (hspan : (s.outSpan r k).1 < (s.outSpan r k).2) :
    s.strokeOut r k
      = ((r.text ((r.srcTo 0 k).drop (dAad r.d))).drop (s.outSpan r k).1).take ((s.outSpan r k).2 - (s.outSpan r k).1) := by
  have hdig : opDigest (dOp r.d) = false := by simp [opDigest]; omega
  have htransform : opTransform (dOp r.d) = false := by simp [opTransform]; omega
  simp [State.strokeOut, srcStroke, dTwoPass_cipher hhi, hdig, htransform, not_le.mpr hspan]

/-- Settles O48: the row computes on the one lane that waits for it, and a cipher's stroke is its span of the output over the payload. -/
theorem laneOperationsComputeTheirStroke : Obligations.LaneOperationsComputeTheirStroke := by
  intro s id n r w hlive hclk hn hreq hrun hid hsrc hout honly
  refine ⟨fun p hp hop => ?_, fun _ hhi _ hspan => ?_⟩
  · obtain ⟨hexec, hdig⟩ := exec_laneRow s id p hp
    rw [hexec, State.compute_onlyOnLane hreq hop hdig hlive hclk hn hrun hid hsrc hout honly]
  · exact State.strokeOut_cipher hhi hspan

end Sys2Proof.Machine
end

section
/-! PROOFS. What the fabric ports bring: read returns, write responses and timeouts (R51, R54 to R57). -/
namespace Sys2Proof.Machine

-- the commands ------------------------------------------------------------------------------------------------------------------

theorem exec_fabricReadComplete (p : Fin 2) (n : Nat) (bs : List ReadBeat) (s : State) :
    exec (.fabricReadComplete p n bs) s = .next (s.readReturn p n bs).settle := rfl

theorem exec_fabricWriteAck (p : Fin 2) (n : Nat) (stat : BitVec 2) (s : State) :
    exec (.fabricWriteAck p n stat) s = .next (s.writeReturn p n stat).settle := rfl

theorem exec_fabricTimeout (p : Fin 2) (write : Bool) (n : Nat) (s : State) :
    exec (.fabricTimeout p write n) s = .next (s.fabTimeout p write n).settle := rfl

-- the two responses ---------------------------------------------------------------------------------------------------------------

section responses
variable {s : State} {p : Fin 2} {n : Nat} {t : Txn} (hlive : s.live = true) (hport : s.portInput p = true)
include hlive hport

/-- A read return of the beats that its transaction named, which no injection strikes and no half of which is corrected: good bytes are
delivered, others are an error (R51, R54). -/
theorem State.readReturn_plain {bs : List ReadBeat} {bytes : Option Bytes}
    (hfind : s.fab.rd.find? (fun t => t.port == p && t.num == n) = some t) (horder : beatsInOrder t.beats bs = true)
    (hinj : s.armedChecker ≠ some (0x10 + p.val)) (hread : readBurst t.addr bs = { bytes := bytes, corr := 0 }) :
    s.readReturn p n bs = match bytes with
      | some b => (s.dropRead p n).deliver t b
      | none => (s.dropRead p n).accessError t false false := by
  have hstruck : (s.dropRead p n).struckBeats p bs = (bs, false) := if_neg hinj
  cases bytes <;> simp [State.readReturn, hlive, hport, hfind, horder, hstruck, hread]

/-- A good write response releases what the write was for (R52). -/
theorem State.writeReturn_ok (hfind : s.fab.wr.find? (fun t => t.port == p && t.num == n) = some t) :
    s.writeReturn p n 0 = (s.dropWrite p n).written t := by
  simp [State.writeReturn, hlive, hport, hfind]

/-- A write response to no transaction faults the port (R57). -/
theorem State.writeReturn_unknown {stat : BitVec 2} (hfind : s.fab.wr.find? (fun t => t.port == p && t.num == n) = none) :
    s.writeReturn p n stat = s.portFault p := by
  simp only [State.writeReturn, hlive, hport, hfind]
  rfl

omit hport in
/-- An outstanding transaction that times out faults its port (R57). -/
theorem State.fabTimeout_outstanding {write : Bool}
    (hfind : (if write then s.fab.wr else s.fab.rd).find? (fun t => t.port == p && t.num == n) = some t) :
    s.fabTimeout p write n = s.portFault p := by
  have hany : (if write then s.fab.wr else s.fab.rd).any (fun t => t.port == p && t.num == n) = true :=
    List.any_eq_true.mpr ⟨t, List.mem_of_find?_eq_some hfind, List.find?_some (p := fun t : Txn => t.port == p && t.num == n) hfind⟩
  simp [State.fabTimeout, hlive, hany]

end responses

-- deliveries and errors -----------------------------------------------------------------------------------------------------------

/-- The bytes of a read for a request in flight are the request's lines (R51). -/
theorem State.deliver_req {s : State} {t : Txn} {id : Nat} {r : Req} (b : Bytes) (huse : t.use = .req id) (hreq : s.req id = some r)
    (hfly : r.inFlight = true) : s.deliver t b = s.setReq (r.takeLines t.addr b) := by
  simp [State.deliver, huse, hreq, hfly]

/-- The first error of a read is reported, and the read waits to be issued again on the other port (R54, R56). -/
theorem State.accessError_first {s : State} {t : Txn} (hagain : t.again = false)
    (hrun : (s.capture (0x12 + t.port.val) 0 t.tag).blk.frozen = false) :
    s.accessError t false false
      = (fun (u : State) =>
          ({ u with fab := { u.fab with rdQ := { t with again := true, fixed := some (otherPort t.port) } :: u.fab.rdQ } } : State))
          (s.capture (0x12 + t.port.val) 0 t.tag) := by
  simp [State.accessError, hrun, hagain]

theorem State.written_compl {s : State} {t : Txn} {id : Nat} (huse : t.use = .compl id) : s.written t = s.completionAck id := by
  simp [State.written, huse]

theorem State.written_data {s : State} {t : Txn} {id : Nat} (huse : t.use = .data id) : s.written t = s := by
  simp [State.written, huse]

/-- Settles O31: each response is matched to its transaction, and is delivered, reissued, or faults the port. -/
theorem fabricResponsesAreDelivered : Obligations.FabricResponsesAreDelivered := by
  intro s p n t hlive hport
  refine ⟨fun bs id r b hfind horder hinj => ⟨fun hgood huse hreq hfly => ?_, fun hbad hagain hrun => ?_⟩,
    fun hfind => ⟨fun id huse => ?_, fun id huse => ?_⟩, fun hfind => ?_, fun hfind => ?_, fun hfind => ?_⟩
  · rw [exec_fabricReadComplete, State.readReturn_plain hlive hport hfind horder hinj hgood]
    exact congrArg (fun u => Host.Outcome.next u.settle) (State.deliver_req (s := s.dropRead p n) b huse hreq hfly)
  · rw [exec_fabricReadComplete, State.readReturn_plain hlive hport hfind horder hinj hbad]
    exact congrArg (fun u => Host.Outcome.next u.settle) (State.accessError_first hagain hrun)
  · rw [exec_fabricWriteAck, State.writeReturn_ok hlive hport hfind, State.written_compl huse]
  · rw [exec_fabricWriteAck, State.writeReturn_ok hlive hport hfind, State.written_data huse]
  · rw [exec_fabricWriteAck, State.writeReturn_unknown hlive hport hfind]
  · rw [exec_fabricTimeout, State.fabTimeout_outstanding hlive hfind]
  · rw [exec_fabricTimeout, State.fabTimeout_outstanding hlive hfind]

end Sys2Proof.Machine
end

section
/-! PROOFS. Answers of the key lift, and its timeout (R59 to R63, R230, R257, R258). -/
namespace Sys2Proof.Machine

-- the commands ------------------------------------------------------------------------------------------------------------------

theorem exec_keyLiftResponse (bs : List KlBeat) (s : State) : exec (.keyLiftResponse bs) s = .next (s.klAnswer bs).settle := rfl

theorem exec_klTimeout (s : State) : exec .klTimeout s = .next s.klTimeout.settle := rfl

/-- The state in which the requests `l` are owed an answer. -/
def State.klOwed (s : State) (l : List KlReq) : State := { s with kl := { s.kl with out := l } }

-- matching an answer ----------------------------------------------------------------------------------------------------------------

section answers
variable {s : State} {k : KlReq} {rest : List KlReq}

/-- The answer to a request that has timed out is discarded (R63). -/
theorem State.klAnswer_late {bs : List KlBeat} (hclk : s.clkOk 8 = true) (hout : s.kl.out = k :: rest) (hlate : k.timedOut = true) :
    s.klAnswer bs = s.klOwed rest := by
  simp [State.klAnswer, hclk, hout, hlate, State.klOwed]

section due
variable (hlive : s.live = true) (hclk : s.clkOk 8 = true) (hout : s.kl.out = k :: rest) (hdue : k.timedOut = false)
include hlive hclk hout hdue

/-- An answer of four key beats is read for the request that is owed an answer first (R59). -/
theorem State.klAnswer_key {bs : List KlBeat} {a b c d : KlBeat} (hform : klForm bs = .key a b c d) :
    s.klAnswer bs = (s.klOwed rest).klBeats k a b c d := by
  have howed : (s.klOwed rest).live = true := hlive
  simp only [State.klOwed] at howed ⊢
  simp [State.klAnswer, hclk, hout, hdue, howed, hform]

/-- A refusal refuses the request that is owed an answer first (R59). -/
theorem State.klAnswer_refused {bs : List KlBeat} (hform : klForm bs = .refused) : s.klAnswer bs = (s.klOwed rest).klRefuse k := by
  have howed : (s.klOwed rest).live = true := hlive
  simp only [State.klOwed] at howed ⊢
  simp [State.klAnswer, hclk, hout, hdue, howed, hform]

end due

end answers

/-- The refusal of a key that no image waits for refuses the requests that wait for it (R258). -/
theorem State.klRefuse_request {s : State} {k : KlReq} (huse : k.use < 4) : s.klRefuse k = s.keyRefused k := by
  have hboot : ¬ (k.use = 4 ∨ k.use = 5) := by omega
  simp [State.klRefuse, hboot]

-- a key ---------------------------------------------------------------------------------------------------------------------------

/-- A good word of a key that no injection strikes (R60). -/
theorem State.klWord_good {s : State} {k : KlReq} {i : Nat} {lo hi : KlBeat} {strike : Bool} {w : BitVec 128}
    (hinj : s.armedChecker ≠ some 0x79) (hw : readWord (2 * k.slot + i) (hi.data ++ lo.data) hi.code = .good w) :
    s.klWord k i lo hi strike = (s, some w) := by
  have hno : (strike && s.armedChecker == some 0x79) = false := by simp [hinj]
  simp only [State.klWord, hno, Bool.false_eq_true, if_false, hw]

/-- An answer of two good words is the key that its size attribute cuts from them (R60, R61). -/
theorem State.klBeats_good {s : State} {k : KlReq} {a b c d : KlBeat} {w0 w1 : BitVec 128} {n : Nat}
    (hinj : s.armedChecker ≠ some 0x79) (h0 : readWord (2 * k.slot + 0) (b.data ++ a.data) b.code = .good w0)
    (h1 : readWord (2 * k.slot + 1) (d.data ++ c.data) d.code = .good w1) (hattr : attrBytes a.attr.toNat = some n) :
    s.klBeats k a b c d = s.klKey k ((natLE 16 w0.toNat ++ natLE 16 w1.toNat).take n) a.attr.toNat := by
  simp only [State.klBeats, State.klWord_good hinj h0, State.klWord_good hinj h1, hattr]

/-- A key that a request waits for and that fits the one that asked for it enters the key cache (R230, R257). -/
theorem State.klKey_cached {s : State} {k : KlReq} {key : Bytes} {attr : Nat} (huse : k.use < 4) (hwanted : s.klWanted k = true)
    (hfits : ∀ r, s.klAsker k = some r → keyFits r k.use key.length = true) :
    s.klKey k key attr = s.addKey { lifted := true, a := k.tag, b := k.slot, use := k.use, key := key, attr := attr } := by
  have hboot : ¬ (k.use = 4 ∨ k.use = 5) := by omega
  cases hask : s.klAsker k with
  | none => simp [State.klKey, hboot, hask, hwanted]
  | some r => simp [State.klKey, hboot, hask, hwanted, hfits r hask]

theorem natLE_length (n v : Nat) : (natLE n v).length = n := by
  induction n generalizing v with
  | zero => rfl
  | succ n ih => simp [natLE, ih]

/-- A key size never exceeds the two words of an answer (R61). -/
theorem attrBytes_le {attr n : Nat} (h : attrBytes attr = some n) : n ≤ 32 := by
  unfold attrBytes at h
  split_ifs at h <;> cases h <;> decide

-- the timeout -----------------------------------------------------------------------------------------------------------------------

/-- 10 µs without an answer to `q` are counted, reported and taken as a refusal, and no request waits to ask for the key again (R63). -/
theorem State.klTimeout_request {s : State} {q : KlReq} (hlive : s.live = true) (hold : s.klOldest = some q) (huse : q.use < 4) :
    s.klTimeout = ((({ s with kl := { s.kl with
        out := s.kl.out.map (fun x => if x = q then { x with timedOut := true } else x)
        wait := s.kl.wait.filter (· != q) } } : State).bumpSat .klTimeoutCount).capture 0x76 0 q.tag).recover
          (fun t => t.keyRefused q) := by
  simp [State.klTimeout, hlive, hold, State.klRefuse_request huse]

/-- Settles O32: an answer brings its key into the cache, refuses, or is discarded; the timeout refuses. -/
theorem keyLiftAnswers : Obligations.KeyLiftAnswers := by
  intro s k rest hlive hclk hout huse
  refine ⟨fun a b c d n hdue hinj ha hb hc hd hla hlb hlc hld h0 h1 hattr hwanted hfits => ?_, fun b hdue hst hlast => ?_,
    fun bs hlate => ?_, fun q hold hq => ?_⟩
  · have hform : klForm [a, b, c, d] = .key a b c d := by simp [klForm, ha, hb, hc, hd, hla, hlb, hlc, hld]
    have hlen : ((natLE 16 (b.data ++ a.data).toNat ++ natLE 16 (d.data ++ c.data).toNat).take n).length = n := by
      have := attrBytes_le hattr
      simp [natLE_length]; omega
    rw [exec_keyLiftResponse, State.klAnswer_key hlive hclk hout hdue hform,
      State.klBeats_good (s := s.klOwed rest) hinj h0 h1 hattr,
      State.klKey_cached (s := s.klOwed rest) huse hwanted (fun r hr => hlen.symm ▸ hfits r hr)]
    rfl
  · have hform : klForm [b] = .refused := by simp [klForm, hst, hlast]
    rw [exec_keyLiftResponse, State.klAnswer_refused hlive hclk hout hdue hform, State.klRefuse_request huse]
    rfl
  · rw [exec_keyLiftResponse, State.klAnswer_late hclk hout hlate]
    rfl
  · rw [exec_klTimeout, State.klTimeout_request hlive hold hq]

end Sys2Proof.Machine
end

section
/-! PROOFS. The cold start: the release of `blk_rst_n`, INIT with a clean tally store, scan, and the level of `tst_mode` (R80, R83 to R85,
R537). -/
namespace Sys2Proof.Machine

-- the commands ------------------------------------------------------------------------------------------------------------------

theorem exec_coldStart (tst : Bool) (s : State) : exec (.coldStart tst) s = .next (s.coldStart tst).settle := rfl

/-- A change of `tst_mode` is taken, and is a fault outside the reset (R80). -/
theorem exec_tstModeChange {s : State} {v : Bool} (hv : s.blk.tst ≠ v) :
    exec (.tstModeChange v) s = .next (if s.blk.rstLow then ({ s with blk := { s.blk with tst := v } } : State)
      else ({ s with blk := { s.blk with tst := v } } : State).capture 0x03).settle := by
  simp only [exec, execTstModeChange, State.done, if_neg hv]

-- waking an island ----------------------------------------------------------------------------------------------------------------

/-- A wake moves the lines of islands alone (R71). -/
theorem State.islWake_field {β : Type} (field : State → β) (h : ∀ (s : State) p, field { s with pwr := p } = field s) (s : State)
    (i : Nat) : field (s.islWake i) = field s := by
  unfold State.islWake
  dsimp only
  split
  · split
    · exact h s _
    · exact h s _
  · exact h s _
  · exact h s _
  · rfl

@[simp] theorem State.islWake_blk (s : State) (i : Nat) : (s.islWake i).blk = s.blk := s.islWake_field State.blk (fun _ _ => rfl) i
@[simp] theorem State.islWake_primer (s : State) (i : Nat) : (s.islWake i).primer = s.primer :=
  s.islWake_field State.primer (fun _ _ => rfl) i
@[simp] theorem State.islWake_kl (s : State) (i : Nat) : (s.islWake i).kl = s.kl := s.islWake_field State.kl (fun _ _ => rfl) i
@[simp] theorem State.islWake_flt (s : State) (i : Nat) : (s.islWake i).flt = s.flt := s.islWake_field State.flt (fun _ _ => rfl) i
@[simp] theorem State.islWake_tly (s : State) (i : Nat) : (s.islWake i).tly = s.tly := s.islWake_field State.tly (fun _ _ => rfl) i

/-- An island that is off asks for power (R71). -/
theorem State.islWake_off {s : State} {i : Nat} (h : s.isl i = {}) :
    s.islWake i = s.setIsl i { step := .upPower, req := true } := by
  simp [State.islWake, h]

-- the release of blk_rst_n ----------------------------------------------------------------------------------------------------------

/-- A block whose `blk_rst_n` rises with `tst_mode` at a level. -/
def State.released (s : State) (tst : Bool) : State := { s with blk := { s.blk with rstLow := false, tst := tst } }

theorem State.coldStart_init {s : State} (hpor : s.blk.porLow = false) (hrst : s.blk.rstLow = true) :
    s.coldStart false = (s.released false).init := by
  simp [State.coldStart, hpor, hrst, State.released]

theorem State.coldStart_scan {s : State} (hpor : s.blk.porLow = false) (hrst : s.blk.rstLow = true) :
    s.coldStart true = { (s.released true).wipe with blk := { (s.released true).blk with scan := true } } := by
  simp [State.coldStart, hpor, hrst, State.released]

@[simp] theorem State.init_blk (s : State) : s.init.blk = { s.blk with st := .starting, phase := 1 } := by simp [State.init]
@[simp] theorem State.init_primer (s : State) : s.init.primer = s.primer := by simp [State.init]
@[simp] theorem State.init_kl (s : State) : s.init.kl = s.kl := by simp [State.init]

/-- INIT asks for the core island (R83). -/
theorem State.init_coreReq {s : State} (h : s.isl 12 = {}) : (s.init.isl 12).req = true := by
  have hoff : ({ s with blk := { s.blk with st := .starting, phase := 1 } } : State).isl 12 = {} := h
  rw [State.init, State.islWake_off hoff, State.isl_setIsl_self]

/-- INIT wants the clocks of the fabric ports, the dispatcher, the key lift, the primer memory and the tally store (R83). -/
theorem State.wants_at_init {s : State} (hrst : s.blk.rstLow = false) (hpor : s.blk.porLow = false) (hscan : s.blk.scan = false)
    (hsnow : s.blk.snow = 0) (hst : s.blk.st = .starting) (hphase : s.blk.phase = 1) : ∀ d ∈ [1, 2, 3, 8, 9, 12], s.wants d = true := by
  simp [State.wants, hrst, hpor, hscan, hsnow, hst, hphase]

-- INIT with a clean tally store -----------------------------------------------------------------------------------------------------

theorem State.tlyVal_of_clean {s : State} (h : s.tly.cells = []) (i : Nat) : s.tlyVal i = 0 := by
  simp only [State.tlyVal, State.tlyCells, h]
  rfl

/-- Reading the plan of units changes their ageing records alone. -/
theorem foldl_setAgeU_eq (g : State → Nat → AgeU) (l : List Nat) (s : State) :
    ∃ a, l.foldl (fun s u => s.setAgeU u (g s u)) s = { s with age := a } := by
  induction l generalizing s with
  | nil => exact ⟨s.age, rfl⟩
  | cons u l ih => exact ih (s.setAgeU u (g s u))

/-- The retirement map and the plan of each unit as INIT reads them from the tally store. -/
def State.mapAndPlansRead (s : State) : State :=
  (List.range 19).foldl (fun s u => s.setAgeU u { step := fld (s.tlyVal (128 + u)) 1 0, mret := bitOf (s.tlyVal (128 + u)) 2 })
    { s with blk := { s.blk with tlyRead := true }, flt := { s.flt with retired := BitVec.ofNat 27 (s.tlyVal 48).toNat } }

/-- VREFUSED as INIT reads it from the tally store (R536, R538). -/
def State.voltageRead (s : State) : State := { s with pwr := { s.pwr with vref := bitOf (s.tlyVal 160) 2 } }

/-- INIT goes on with the recorded voltage, unless a fatal event stops the block or a class is short of units (R518). -/
def State.unitsJudged (s : State) : State :=
  if s.blk.frozen then s else match s.unitsShort with
    | some c => s.capture 0x95 c
    | none => s.initStep

/-- A tally store in which no cell has been programmed needs no repair (R523). -/
theorem State.initRead_of_clean {s : State} (h : s.tly.cells = []) : s.initRead = s.mapAndPlansRead.voltageRead.unitsJudged := by
  simp only [State.initRead, h, List.map_nil, List.foldl_nil]
  rfl

/-- The block once INIT has read a clean tally store, with the ageing records `a` and the voltage lines `p`: no unit is retired. -/
def State.readClean (s : State) (a : Tbl AgeU) (p : Pwr) : State :=
  { s with blk := { s.blk with tlyRead := true }, pwr := p, flt := { s.flt with retired := 0 }, age := a }

theorem State.mapAndPlansRead_of_clean {s : State} (h : s.tly.cells = []) : ∃ a, s.mapAndPlansRead = s.readClean a s.pwr := by
  have hmap : BitVec.ofNat 27 (s.tlyVal 48).toNat = 0 := by rw [State.tlyVal_of_clean h]; rfl
  rw [State.mapAndPlansRead, hmap]
  exact foldl_setAgeU_eq _ _ _

/-- INIT goes on where none is retired: no class is short of units (R518). -/
theorem State.unitsJudged_of_none_retired {s : State} (hfrozen : s.blk.frozen = false) (h : s.flt.retired = 0) :
    s.unitsJudged = s.initStep := by
  have hclass : ∀ u, s.classRetired u = 0 := fun u => by simp [State.classRetired, State.retired, h]
  have hnone : s.unitsShort = none := by simp [State.unitsShort, hclass]
  simp [State.unitsJudged, hfrozen, hnone]

/-- A clean tally store records no voltage to climb to (R537). -/
theorem State.initStep_of_clean {s : State} (h : s.tly.cells = []) :
    s.initStep = ({ s with pwr := { s.pwr with vwait := none } } : State).loadImage 1 := by
  simp [State.initStep, State.tlyVal_of_clean h, fld]

/-- With a clean tally store INIT finds nothing retired and no voltage to climb to, and loads image A (R83, R84, R537). -/
theorem State.initRead_loads {s : State} (hfrozen : s.blk.frozen = false) (hcells : s.tly.cells = []) :
    ∃ a p, s.initRead = (s.readClean a p).loadImage 1 := by
  obtain ⟨a, hread⟩ := State.mapAndPlansRead_of_clean hcells
  refine ⟨a, { (s.readClean a s.pwr).voltageRead.pwr with vwait := none }, ?_⟩
  rw [State.initRead_of_clean hcells, hread,
    State.unitsJudged_of_none_retired (s := (s.readClean a s.pwr).voltageRead) hfrozen rfl,
    State.initStep_of_clean (s := (s.readClean a s.pwr).voltageRead) hcells]
  rfl

/-- An acknowledged clock that is requested runs (R70). -/
theorem State.clkOk_acknowledged {s : State} {d : Nat} (hd : d < 13) (hreq : s.pwr.clkReq.getLsbD d = true) :
    (s.clkAckAt d true).clkOk d = true := by
  have hbit : (BitVec.ofNat 13 (2 ^ d)).getLsbD d = true := by
    simp only [BitVec.getLsbD_ofNat, hd, Nat.testBit_two_pow_self, decide_true, Bool.and_self]
  simp only [State.clkOk, State.clkAckAt, setBit13, if_true, hreq, BitVec.getLsbD_or, hbit, Bool.or_true, Bool.and_self]

/-- INIT reads the tally store once its clock runs and the core island is up (R70, R83). -/
theorem State.initAdvance_reads {s : State} (hfrozen : s.blk.frozen = false) (hst : s.blk.st = .starting) (hphase : s.blk.phase = 1)
    (hread : s.blk.tlyRead = false) (hclk : s.clkOk 12 = true) (hcore : s.islandUp 12 = true) : s.initAdvance = s.initRead := by
  have hlive : s.live = true := by simp [State.live, hfrozen, hst]
  exact if_pos ⟨hlive, hst, hphase, hread, hclk, hcore⟩

-- the load of an image ----------------------------------------------------------------------------------------------------------------

@[simp] theorem State.klNeed_blk (s : State) (a b c : Nat) : (s.klNeed a b c).blk = s.blk := by simp only [State.klNeed]; split <;> rfl
@[simp] theorem State.klNeed_primer (s : State) (a b c : Nat) : (s.klNeed a b c).primer = s.primer := by
  simp only [State.klNeed]; split <;> rfl
@[simp] theorem State.klNeed_flt (s : State) (a b c : Nat) : (s.klNeed a b c).flt = s.flt := by simp only [State.klNeed]; split <;> rfl
@[simp] theorem State.klNeed_tly (s : State) (a b c : Nat) : (s.klNeed a b c).tly = s.tly := by simp only [State.klNeed]; split <;> rfl

@[simp] theorem State.loadImage_blk (s : State) (img : Nat) : (s.loadImage img).blk = { s.blk with phase := 2 } := by
  simp [State.loadImage]
@[simp] theorem State.loadImage_primer (s : State) (img : Nat) :
    (s.loadImage img).primer = { img := img, due := 128, addr := imageBase img } := by simp [State.loadImage]
@[simp] theorem State.loadImage_flt (s : State) (img : Nat) : (s.loadImage img).flt = s.flt := by simp [State.loadImage]
@[simp] theorem State.loadImage_tly (s : State) (img : Nat) : (s.loadImage img).tly = s.tly := by simp [State.loadImage]

/-- With no key asked for, the load of an image asks for the root key, then for the context key (R85). -/
theorem State.loadImage_keys {s : State} (h : s.kl = {}) (img : Nat) :
    (s.loadImage img).kl.wait.map (fun k => (k.slot, k.tag, k.use)) = [(0xFFF, 31, 5), (0, 16, 4)] := by
  simp [State.loadImage, State.klNeed, h]

/-- Settles O26: the release begins INIT or scan; INIT reads the clean store once its last clock runs and loads image A. -/
theorem coldStartLoadsImageA : Obligations.ColdStartLoadsImageA := by
  intro s hpor
  refine ⟨fun hrst hfrozen hscan hoff => ?_, fun hst hphase hread hfrozen hrst hreq hcore hcells _ hkl => ?_, fun hrst => ?_,
    fun v hv => ⟨fun hrst => ?_, fun hrst => ?_⟩⟩
  · refine ⟨(s.released false).init, by rw [exec_coldStart, State.coldStart_init hpor hrst], ?_⟩
    have hcore : ((s.released false).init.isl 12).req = true := State.init_coreReq hoff
    refine ⟨by simp [State.released], by simp, by simp, by simp [State.released], hcore, by simp [State.released],
      by simp [State.released], fun hsnow => State.wants_at_init ?_ ?_ ?_ ?_ ?_ ?_⟩
    all_goals simp [State.released, hpor, hscan, hsnow]
  · have hclk := State.clkOk_acknowledged (s := s) (d := 12) (by decide) hreq
    obtain ⟨a, q, hload⟩ := State.initRead_loads (s := s.clkAckAt 12 true) hfrozen hcells
    have hadvance : (s.clkAckAt 12 true).initAdvance = _ :=
      (State.initAdvance_reads (s := s.clkAckAt 12 true) hfrozen hst hphase hread hclk hcore).trans hload
    have hidx : clkIdx .tally = 12 := rfl
    refine ⟨(s.clkAckAt 12 true).initAdvance, by rw [exec_clockAck, State.clockAck_taken (.inl rfl), hidx], ?_⟩
    rw [hadvance]
    refine ⟨?_, ?_, ?_, ?_, ?_, ?_, State.loadImage_keys (s := (s.clkAckAt 12 true).readClean a q) hkl 1⟩
    all_goals simp [State.readClean, State.clkAckAt, imageBase, hst, hcells]
  · exact ⟨_, by rw [exec_coldStart, State.coldStart_scan hpor hrst], rfl, rfl, rfl, rfl, rfl, rfl⟩
  · rw [exec_tstModeChange hv, if_pos hrst]
  · rw [exec_tstModeChange hv, if_neg (by simp [hrst])]

end Sys2Proof.Machine
end

section
/-! PROOFS. The primer image: its bytes, its failure, its verdict and release, and the tests of the start (R64, R89, R94 to R97, R544). -/
namespace Sys2Proof.Machine

-- the commands ------------------------------------------------------------------------------------------------------------------

theorem exec_primerData (lo hi : Byte) (s : State) : exec (.primerData lo hi) s = .next (s.primerBytes lo hi).settle := rfl

theorem exec_nvmError {s : State} (hopen : s.primerOpen = true) : exec .nvmError s = .next (s.imageFail 1).settle := by
  simp only [exec, execNvmError, State.done, if_pos hopen]

theorem exec_imageVerified (agree : Bool) (s : State) : exec (.imageVerified agree) s = .next (s.imageVerified agree).settle := rfl

theorem exec_selfTestDone (u : Nat) (k : TestKind) (sig : BitVec 128) (s : State) :
    exec (.selfTestDone u k sig) s = .next (s.testDone u (testCode k) sig).settle := rfl

-- bytes of the primer, and its failure ----------------------------------------------------------------------------------------------

/-- Two bytes that do not complete the header are only appended (R64). -/
theorem State.primerBytes_header {s : State} {lo hi : Byte} (hopen : s.primerOpen = true) (hdue : 2 ≤ s.primer.due)
    (hlen : s.primer.rev.length + 2 < 128) :
    s.primerBytes lo hi = { s with primer := { s.primer with rev := hi :: lo :: s.primer.rev, due := s.primer.due - 2 } } := by
  have hboth : s.primer.due ≠ 1 := by omega
  simp [State.primerBytes, hopen, hboth, hlen]

/-- After image A image B is tried (R89). -/
theorem State.imageFail_A {s : State} (himg : s.primer.img = 1) (c : Nat) :
    s.imageFail c = ({ s with blk := { s.blk with causeA := c } } : State).loadImage 2 := by
  simp [State.imageFail, himg]

/-- After image B the block stops with IMAGE_BOTH (R89). -/
theorem State.imageFail_B {s : State} (himg : s.primer.img = 2) (c : Nat) :
    s.imageFail c = (({ s with blk := { s.blk with causeB := c }, primer := {} } : State)).capture 0xB1 := by
  simp [State.imageFail, himg]

-- the verdict -------------------------------------------------------------------------------------------------------------------------

section verdict
variable {s : State} (hlive : s.live = true) (hst : s.blk.st = .starting) (hphase : s.blk.phase = 3) (hon : s.verifyOn = true)
  (hagrees : imageAgrees (s.primer.rootKey.getD []) s.primer.rev.reverse = true)
include hlive hst hphase hon hagrees

theorem State.imageVerified_fails {c : Nat}
    (hc : verifyCause (s.primer.rootKey.getD []) s.primer.rev.reverse (s.tlyVal 0).toNat = some c) :
    s.imageVerified true = s.imageFail c := by
  simp only [State.imageVerified, hlive, hst, hphase, hon, hagrees, hc]
  rfl

theorem State.imageVerified_releases
    (hc : verifyCause (s.primer.rootKey.getD []) s.primer.rev.reverse (s.tlyVal 0).toNat = none) :
    s.imageVerified true = s.release s.primer.rev.reverse := by
  simp only [State.imageVerified, hlive, hst, hphase, hon, hagrees, hc]
  rfl

end verdict

-- RELEASE -------------------------------------------------------------------------------------------------------------------------------

/-- A register setting changes stored registers alone (R96). -/
theorem State.applySetting_field {β : Type} (field : State → β) (h : ∀ s n i j v, field (State.setReg s n i j v) = field s) (s : State)
    (b : Bytes) : field (s.applySetting b) = field s := by
  unfold State.applySetting
  split
  · rfl
  · split
    · rfl
    · split
      · rfl
      · exact h s _ _ _ _

/-- The register settings of an image applied in order (R97). -/
def State.settingsApplied (s : State) (l : List Bytes) : State := l.foldl State.applySetting s

theorem State.settingsApplied_field {β : Type} (field : State → β) (h : ∀ s n i j v, field (State.setReg s n i j v) = field s)
    (s : State) (l : List Bytes) : field (s.settingsApplied l) = field s :=
  foldl_keeps_field field (State.applySetting_field field h) l s

@[simp] theorem State.settingsApplied_blk (s : State) (l : List Bytes) : (s.settingsApplied l).blk = s.blk :=
  s.settingsApplied_field State.blk State.setReg_blk l
@[simp] theorem State.settingsApplied_gal (s : State) (l : List Bytes) : (s.settingsApplied l).gal = s.gal :=
  s.settingsApplied_field State.gal State.setReg_gal l
@[simp] theorem State.settingsApplied_tly (s : State) (l : List Bytes) : (s.settingsApplied l).tly = s.tly :=
  s.settingsApplied_field State.tly State.setReg_tly l
@[simp] theorem State.settingsApplied_primer (s : State) (l : List Bytes) : (s.settingsApplied l).primer = s.primer :=
  s.settingsApplied_field State.primer State.setReg_primer l

@[simp] theorem State.galExtend_blk (s : State) (i : Nat) (x : Bytes) : (s.galExtend i x).blk = s.blk := rfl
@[simp] theorem State.galExtend_primer (s : State) (i : Nat) (x : Bytes) : (s.galExtend i x).primer = s.primer := rfl
@[simp] theorem State.galExtend_tly (s : State) (i : Nat) (x : Bytes) : (s.galExtend i x).tly = s.tly := rfl

@[simp] theorem State.galExtend_self (s : State) (i : Nat) (x : Bytes) : (s.galExtend i x).galVal i = sha512 (s.galVal i ++ x) := by
  simp [State.galExtend, State.galVal]

theorem State.galExtend_other (s : State) {i j : Nat} (x : Bytes) (h : j ≠ i) : (s.galExtend i x).galVal j = s.galVal j := by
  simp [State.galExtend, State.galVal, tget_tset_ne _ _ _ h]

/-- The four measurements of an image (R97). -/
def State.measured (s : State) (b : Bytes) : State :=
  (((s.galExtend 0 (sha512 b)).galExtend 1 (sha512 (imgSection b 2))).galExtend 2 (sha512 (imgSection b 1))).galExtend 3
    (sha512 (imgSection b 3))

theorem State.measured_galVal (s : State) (b : Bytes) :
    (s.measured b).galVal 0 = sha512 (s.galVal 0 ++ sha512 b) ∧
    (s.measured b).galVal 1 = sha512 (s.galVal 1 ++ sha512 (imgSection b 2)) ∧
    (s.measured b).galVal 2 = sha512 (s.galVal 2 ++ sha512 (imgSection b 1)) ∧
    (s.measured b).galVal 3 = sha512 (s.galVal 3 ++ sha512 (imgSection b 3)) := by
  simp [State.measured, State.galExtend_other]

/-- The tables of an image (R97). -/
def imageTables (b : Bytes) : Tables :=
  { stencils := imgSection b 1, library := imgSection b 2, sigs := imgSection b 5
    curves := tableEntries (imgSection b 3) 448
    anchors := if imgSection b 6 = [] then [] else tableEntries (imgSection b 6) 160 }

/-- The image being released is noted (R97, R100). -/
def State.imageNoted (s : State) (b : Bytes) : State :=
  { s with blk := { s.blk with phase := 4, image := s.primer.img, version := fieldLE b 0x0C 4, lbistAsked := nbit (fieldLE b 6 2) 0 } }

/-- RELEASE as far as its settings and measurements (R97). -/
def State.imageMeasured (s : State) (b : Bytes) : State :=
  ((s.imageNoted b).settingsApplied (chunks 8 (imgSection b 4))).measured b

/-- RELEASE as far as it comes before the floor: the tables and the context key are staged (R97). -/
def State.imageStaged (s : State) (b : Bytes) : State :=
  { s.imageMeasured b with primer := { staged := some (imageTables b, (s.imageMeasured b).primer.ctxKey) } }

@[simp] theorem State.measured_blk (s : State) (b : Bytes) : (s.measured b).blk = s.blk := by simp [State.measured]
@[simp] theorem State.measured_primer (s : State) (b : Bytes) : (s.measured b).primer = s.primer := by simp [State.measured]
@[simp] theorem State.measured_tly (s : State) (b : Bytes) : (s.measured b).tly = s.tly := by simp [State.measured]

/-- What a tally register holds depends on the tally store alone. -/
theorem State.tlyVal_congr {s t : State} (h : s.tly = t.tly) (i : Nat) : s.tlyVal i = t.tlyVal i := by
  simp only [State.tlyVal, State.tlyCells, h]

/-- What a gallery register holds depends on the gallery alone. -/
theorem State.galVal_congr {s t : State} (h : s.gal = t.gal) (i : Nat) : s.galVal i = t.galVal i := by simp only [State.galVal, h]

theorem State.imageStaged_blk (s : State) (b : Bytes) : (s.imageStaged b).blk = (s.imageNoted b).blk := by
  simp [State.imageStaged, State.imageMeasured]

theorem State.imageStaged_tly (s : State) (b : Bytes) : (s.imageStaged b).tly = s.tly := by
  simp [State.imageStaged, State.imageMeasured, State.imageNoted]

theorem State.imageStaged_staged (s : State) (b : Bytes) :
    (s.imageStaged b).primer.staged = some (imageTables b, s.primer.ctxKey) := by
  simp [State.imageStaged, State.imageMeasured, State.imageNoted]

/-- The measurements of a staged image extend the gallery as it was (R97, R320). -/
theorem State.imageStaged_galVal (s : State) (b : Bytes) :
    (s.imageStaged b).galVal 0 = sha512 (s.galVal 0 ++ sha512 b) ∧
    (s.imageStaged b).galVal 1 = sha512 (s.galVal 1 ++ sha512 (imgSection b 2)) ∧
    (s.imageStaged b).galVal 2 = sha512 (s.galVal 2 ++ sha512 (imgSection b 1)) ∧
    (s.imageStaged b).galVal 3 = sha512 (s.galVal 3 ++ sha512 (imgSection b 3)) := by
  have hstaged : (s.imageStaged b).galVal = (s.imageMeasured b).galVal := funext (State.galVal_congr rfl)
  have hsettings : ((s.imageNoted b).settingsApplied (chunks 8 (imgSection b 4))).galVal = s.galVal :=
    funext (State.galVal_congr (State.settingsApplied_gal _ _))
  have hmeasured := ((s.imageNoted b).settingsApplied (chunks 8 (imgSection b 4))).measured_galVal b
  rw [hsettings] at hmeasured
  rw [hstaged]
  exact hmeasured

/-- Step 5 of RELEASE changes the tables, the context key and the primer loader (R97). -/
@[simp] theorem State.usable_blk (s : State) : s.usable.blk = s.blk := by unfold State.usable; split <;> rfl
@[simp] theorem State.usable_gal (s : State) : s.usable.gal = s.gal := by unfold State.usable; split <;> rfl

theorem State.usable_staged {s : State} {t : Tables} {k : Option Bytes} (h : s.primer.staged = some (t, k)) :
    s.usable.tables = t ∧ s.usable.ctx.key = k ∧ s.usable.primer = {} := by
  simp [State.usable, h]

/-- Image A whose floor is durable already goes on to WARMUP with its tables (R97). -/
theorem State.release_A {s : State} {b : Bytes} (himg : s.primer.img = 1) (hfloor : fieldLE b 0x10 4 ≤ (s.tlyVal 0).toNat) :
    s.release b = (s.imageStaged b).usable.enterWarmup := by
  have hA : ¬ s.primer.img = 2 := by omega
  have hdurable : ¬ ((s.imageStaged b).tlyVal 0).toNat < fieldLE b 0x10 4 := by
    rw [State.tlyVal_congr (s.imageStaged_tly b)]
    exact not_lt.mpr hfloor
  simp only [State.release, if_neg hA]
  exact if_neg hdurable

-- WARMUP ----------------------------------------------------------------------------------------------------------------------------------

theorem State.startSource_field {β : Type} (field : State → β) (hent : ∀ (s : State) e, field { s with ent := e } = field s) (s : State)
    (i : Nat) : field (s.startSource i) = field s := by
  simp only [State.startSource]
  split
  · rfl
  · exact hent s _

/-- The start of entropy changes the entropy unit and the lines of its island (R468). -/
theorem State.entropyStart_field {β : Type} (field : State → β) (hpwr : ∀ (s : State) p, field { s with pwr := p } = field s)
    (hent : ∀ (s : State) e, field { s with ent := e } = field s) (s : State) : field s.entropyStart = field s :=
  (hent _ _).trans ((foldl_keeps_field field (State.startSource_field field hent) _ _).trans (s.islWake_field field hpwr 11))

/-- The start of WARMUP changes the block's own state, the entropy unit and the lines of islands (R83). -/
theorem State.enterWarmup_field {β : Type} (field : State → β) (hblk : ∀ (s : State) b, field { s with blk := b } = field s)
    (hpwr : ∀ (s : State) p, field { s with pwr := p } = field s) (hent : ∀ (s : State) e, field { s with ent := e } = field s)
    (s : State) : field s.enterWarmup = field s :=
  (State.entropyStart_field field hpwr hent _).trans
    ((foldl_keeps_field field (State.islWake_field field hpwr) _ _).trans (hblk s _))

@[simp] theorem State.enterWarmup_gal (s : State) : s.enterWarmup.gal = s.gal :=
  s.enterWarmup_field State.gal (fun _ _ => rfl) (fun _ _ => rfl) (fun _ _ => rfl)
@[simp] theorem State.enterWarmup_tables (s : State) : s.enterWarmup.tables = s.tables :=
  s.enterWarmup_field State.tables (fun _ _ => rfl) (fun _ _ => rfl) (fun _ _ => rfl)
@[simp] theorem State.enterWarmup_ctx (s : State) : s.enterWarmup.ctx = s.ctx :=
  s.enterWarmup_field State.ctx (fun _ _ => rfl) (fun _ _ => rfl) (fun _ _ => rfl)
@[simp] theorem State.enterWarmup_primer (s : State) : s.enterWarmup.primer = s.primer :=
  s.enterWarmup_field State.primer (fun _ _ => rfl) (fun _ _ => rfl) (fun _ _ => rfl)
@[simp] theorem State.enterWarmup_entState (s : State) : s.enterWarmup.ent.state = 1 := rfl
@[simp] theorem State.enterWarmup_blk (s : State) :
    s.enterWarmup.blk = { s.blk with phase := 5, toTest := s.testUnits.flatMap (fun u => [(u, 1), (u, 2)]) } :=
  (State.entropyStart_field State.blk (fun _ _ => rfl) (fun _ _ => rfl) _).trans
    (foldl_keeps_field State.blk State.islWake_blk _ _)

-- tests of the start ----------------------------------------------------------------------------------------------------------

/-- A test of the start that gives the expected signature is done (R544). -/
theorem State.testDone_start_good {s : State} {u k : Nat} {sig : BitVec 128} (hlive : s.live = true) (hst : s.blk.st = .starting)
    (hclk : s.clkOk 11 = true) (hisl : u < 17 → s.islandUp (unitIsland u) = true) (hdue : (u, k) ∈ s.blk.toTest)
    (hsig : sig.toNat = sigOf s.tables.sigs (testTarget u) k) :
    s.testDone u k sig = ({ s with blk := { s.blk with toTest := s.blk.toTest.filter (· != (u, k)) }
                                   bist := { s.bist with sig := sig } } : State).startAdvance := by
  have hruns : ¬ (¬ s.live ∨ ¬ s.clkOk 11 ∨ (u < 17 ∧ ¬ s.islandUp (unitIsland u))) := by simpa [hlive, hclk] using hisl
  have hgood : s.sigGood u k sig = true := by simp [State.sigGood, hsig]
  have hlisted : s.blk.toTest.contains (u, k) = true := List.contains_iff_mem.mpr hdue
  simp only [State.testDone, if_neg hruns, hst, hlisted, State.startTestEnd, hgood, Bool.not_true, Bool.or_false]
  rfl

/-- Settles O27: bytes are appended; a failure leads to image B and then stops; the verdict releases; a good test is done. -/
theorem primerImageIsLoadedVerifiedAndReleased : Obligations.PrimerImageIsLoadedVerifiedAndReleased := by
  intro s
  refine ⟨fun lo hi hopen hdue hlen => ?_, fun hopen himg => ?_, fun hopen himg => ?_,
    fun b hlive hst hphase hb himg hfloor hon hagrees => ⟨?_, s.release b, rfl, ?_⟩, fun u k sig hlive hst hclk hisl hdue hsig => ?_⟩
  · rw [exec_primerData, State.primerBytes_header hopen hdue hlen]
  · refine ⟨s.imageFail 1, exec_nvmError hopen, ?_⟩
    simp [State.imageFail_A himg, imageBase]
  · rw [exec_nvmError hopen, State.imageFail_B himg]
  · subst hb
    rw [exec_imageVerified]
    cases hc : verifyCause (s.primer.rootKey.getD []) s.primer.rev.reverse (s.tlyVal 0).toNat with
    | none => rw [State.imageVerified_releases hlive hst hphase hon hagrees hc]
    | some c => rw [State.imageVerified_fails hlive hst hphase hon hagrees hc]
  · obtain ⟨htables, hkey, hprimer⟩ := State.usable_staged (s.imageStaged_staged b)
    obtain ⟨hgal0, hgal1, hgal2, hgal3⟩ := s.imageStaged_galVal b
    have hgal := State.galVal_congr (((s.imageStaged b).usable.enterWarmup_gal).trans (State.usable_gal _))
    rw [State.release_A himg hfloor]
    simp only [hgal, hgal0, hgal1, hgal2, hgal3, State.enterWarmup_blk, State.enterWarmup_tables, State.enterWarmup_ctx,
      State.enterWarmup_primer, State.enterWarmup_entState, State.usable_blk, State.imageStaged_blk, State.imageNoted, htables, hkey,
      hprimer, himg, imageTables, and_self]
  · rw [exec_selfTestDone, State.testDone_start_good hlive hst hclk hisl hdue hsig]

end Sys2Proof.Machine
end

section
/-! PROOFS. Sleep of a function, its fence read, and the block's way to deep sleep (R107, R142, R181, R494, R495). -/
namespace Sys2Proof.Machine

-- sleep of a function ---------------------------------------------------------------------------------------------------------

theorem exec_fnPmSleep (f : Nat) (s : State) : exec (.fnPmSleep f) s = .next (s.put ⟨.fnPm, f, 0⟩ 1).settle := rfl

theorem exec_fnPmRun (f : Nat) (s : State) : exec (.fnPmRun f) s = .next (s.put ⟨.fnPm, f, 0⟩ 0).settle := rfl

/-- The window of a running function takes a write of FN_PM as its mode (R142). -/
theorem State.put_fnPm {s : State} {f : Nat} (h : s.Open) (hrun : s.Running f) (v : Word) :
    s.put ⟨.fnPm, f, 0⟩ v = (s.writePm f (fld v 1 0)).ok := by
  have htakes : winRefused ⟨.fnPm, f, 0⟩ = false := by simp [winRefused, meterName, telemetryReg, RegName.ctorIdx]
  exact State.put_some h nofun (State.writeReg_running rfl hrun htakes)

/-- Where no completion of the function is counted, none becomes due. -/
theorem State.flushCounted_none {s : State} {f : Nat} (h : ∀ e ∈ s.rings, ringF e.1 = f → e.2.counted = 0) (p : Nat → Ring → Bool) :
    s.flushCounted f p = s := by
  have hnone : s.rings.filter (fun e => ringF e.1 == f && e.2.counted != 0 && p (ringN e.1) e.2) = [] :=
    List.filter_eq_nil_iff.mpr fun e he hdue => by
      simp only [Bool.and_eq_true, beq_iff_eq, bne_iff_ne] at hdue
      obtain ⟨⟨hring, hcounted⟩, -⟩ := hdue
      exact hcounted (h e he hring)
  rw [State.flushCounted, hnone, List.foldl_nil]

section mode
variable {s : State} {f : Nat} (hcount : ∀ e ∈ s.rings, ringF e.1 = f → e.2.counted = 0)
include hcount

/-- A change of the function's own record counts no completion. -/
theorem State.flushCounted_setFn_none (x : Fn) (p : Nat → Ring → Bool) : (s.setFn f x).flushCounted f p = s.setFn f x :=
  State.flushCounted_none (s := s.setFn f x) hcount p

/-- SLEEP to a function in run: it flushes first (R181). -/
theorem State.writePm_sleep (hrun : s.Running f) (hpm : (s.fn f).pm = .run) :
    s.writePm f 1 = s.setFn f { s.fn f with pm := .flushing } := by
  obtain ⟨henabled, hhalted, hresetting⟩ := hrun
  have hstuck : ((s.fn f).halted || (s.fn f).resetting || !(s.fn f).enabled) = false := by simp [henabled, hhalted, hresetting]
  simp [State.writePm, hpm, hstuck, State.flushCounted_setFn_none hcount]

/-- RUN to a function in any other mode ends its sleep (R142). -/
theorem State.writePm_run (hpm : (s.fn f).pm ≠ .run) : s.writePm f 0 = s.setFn f { s.fn f with pm := .run } := by
  simp only [State.writePm, State.flushCounted_setFn_none hcount]
  cases hmode : (s.fn f).pm with
  | run => exact absurd hmode hpm
  | flushing | asleep | held => rfl

end mode

-- the fence read --------------------------------------------------------------------------------------------------------------

theorem exec_fnFence {s : State} (h : s.Open) (f : Nat) : exec (.fnFence f) s = .next (s.fenceRead f).settle := by
  have hread : s.get ⟨.fnFence, f, 0⟩ = s.fenceRead f := by simp [State.get_open h, State.doRead, State.readable_open h]
  exact congrArg (fun t : State => Host.Outcome.next t.settle) hread

/-- The read of a function that does not run answers 0 at once (R494). -/
theorem State.fenceRead_idle {s : State} {f : Nat} (h : (s.fn f).resetting = true ∨ ¬ (s.fn f).enabled = true) :
    s.fenceRead f = s.respond 0 0 := if_pos h

-- deep sleep ------------------------------------------------------------------------------------------------------------------

theorem exec_deepSleepRequest (s : State) : exec .deepSleepRequest s = .next (s.put ⟨.blkPm, 0, 0⟩ 1).settle := rfl

theorem exec_deepSleepDrained (s : State) : exec .deepSleepDrained s = .next s.deepDrained.settle := rfl

theorem State.put_deep {s : State} (h : s.Open) : s.put ⟨.blkPm, 0, 0⟩ 1 = s.deepRequest.ok :=
  State.put_some h (by decide) rfl

/-- A block in service whose rings hold no counted completion only begins its drain (R107 step 1). -/
theorem State.deepRequest_drains {s : State} (hst : s.blk.st = .service) (hpm : s.blk.pm = 0) (hcount : ∀ e ∈ s.rings, e.2.counted = 0) :
    s.deepRequest = { s with blk := { s.blk with st := .deepSleep, pm := 1 } } := by
  have hserving : ¬ (s.blk.st ≠ .service ∨ s.blk.pm ≠ 0) := by simp [hst, hpm]
  simp only [State.deepRequest, if_neg hserving]
  refine List.foldl_fixed' (fun f => ?_) _
  split
  · rfl
  · refine State.flushCounted_none (fun e he _ => ?_) _
    exact hcount e he

/-- What holds of every entry of a table and of the default holds of each read. -/
theorem tget_property {α : Type} {d : Nat → α} {t : Tbl α} {P : α → Prop} (hentry : ∀ e ∈ t, P e.2) {i : Nat} (hdefault : P (d i)) :
    P (tget d t i) := by
  induction t with
  | nil => exact hdefault
  | cons e t ih =>
    rw [tget]
    split
    · exact hentry e (by simp)
    · exact ih fun x hx => hentry x (by simp [hx])

/-- Everything off leaves no island requested or up, whatever its acknowledges (R40). -/
theorem State.allOff_isl (s : State) (i : Nat) : (s.allOff.isl i).req = false ∧ (s.allOff.isl i).step = .down := by
  refine tget_property (P := fun x : Isl => x.req = false ∧ x.step = .down) (fun e he => ?_) ⟨rfl, rfl⟩
  obtain ⟨x, -, hx⟩ := List.mem_filterMap.mp he
  split at hx
  · cases hx; exact ⟨rfl, rfl⟩
  · cases hx

/-- Without a cached context there is nothing to write back. -/
theorem State.flushLines_empty {s : State} (h : s.ctx.cache = []) (p : CLine → Bool) : s.flushLines p = s := by
  simp [State.flushLines, h]

/-- A drained block has no write waiting to be issued. -/
theorem State.drained_wrQ {s : State} (h : s.drained = true) : s.fab.wrQ = [] := by
  simp only [State.drained, Bool.and_eq_true, beq_iff_eq, List.append_eq_nil_iff] at h
  obtain ⟨⟨⟨-, -, hwrQ⟩, -⟩, -⟩ := h
  exact hwrQ

/-- The block at the end of its way to deep sleep (R107 steps 4 and 5). -/
def State.asleepDeep (s : State) : State := ({ s.wipe with blk := { s.blk with pm := 2, phase := 8 } } : State).allOff

/-- A drained block without a cached context has nothing to write back: its drain ends at once. -/
theorem State.deepDrained_ends {s : State} (hpm : s.blk.pm = 1) (hphase : s.blk.phase ≠ 8) (hdrained : s.drained = true)
    (hcache : s.ctx.cache = []) : s.deepDrained = s.asleepDeep := by
  have hends : ¬ (¬ s.draining = true ∨ ¬ s.drained = true) := by simp [State.draining, hpm, hphase, hdrained]
  simp only [State.deepDrained, if_neg hends, State.flushLines_empty hcache, State.drained_wrQ hdrained]
  rfl

/-- Settles O18: with nothing counted and nothing cached, the writes and the drain have no further effect than the one named. -/
theorem sleepFenceAndDeepSleep : Obligations.SleepFenceAndDeepSleep := by
  refine ⟨fun s f hopen _ => ⟨fun hrun hcount => ⟨fun hpm => ?_, fun hpm => ?_⟩, fun hidle => ?_, fun hresetting henabled => ?_⟩,
    fun s => ⟨fun hopen hst hpm hcount => ?_, fun hpm hphase hdrained hcache => ⟨s.asleepDeep, ?_, ?_⟩⟩⟩
  · rw [exec_fnPmSleep, State.put_fnPm hopen hrun]
    exact congrArg (fun t : State => Host.Outcome.next t.ok.settle) (State.writePm_sleep hcount hrun hpm)
  · rw [exec_fnPmRun, State.put_fnPm hopen hrun]
    exact congrArg (fun t : State => Host.Outcome.next t.ok.settle) (State.writePm_run hcount hpm)
  · rw [exec_fnFence hopen, State.fenceRead_idle (hidle.imp_right Bool.eq_false_iff.mp)]
  · have hruns : ¬ ((s.fn f).resetting = true ∨ ¬ (s.fn f).enabled = true) := by simp [hresetting, henabled]
    rw [exec_fnFence hopen]
    exact congrArg (fun t : State => Host.Outcome.next t.settle) (if_neg hruns)
  · rw [exec_deepSleepRequest, State.put_deep hopen, State.deepRequest_drains hst hpm hcount]
  · rw [exec_deepSleepDrained, State.deepDrained_ends hpm hphase hdrained hcache]
  · exact ⟨rfl, rfl, rfl, rfl, rfl, rfl, rfl, rfl, rfl, State.allOff_isl _, rfl, rfl, rfl, rfl⟩

end Sys2Proof.Machine
end

section
/-! PROOFS. Writes to the ring registers of a running function: the doorbell, the configuration of a ring, its interrupt register and
the mask of a vector (R145 to R148, R151, R152, R178). -/
namespace Sys2Proof.Machine

-- the window of a running function ------------------------------------------------------------------------------------------

/-- The registers of a window that the ring commands write. -/
def ringWritten : List RegName := [.ringDb, .ringCfg, .ringIrq, .vecCtrl]

theorem ringWritten_in_windows : ∀ n ∈ ringWritten, n.row.win = true := by decide

theorem tly_not_ringWritten : RegName.tly ∉ ringWritten := by decide

/-- None of them is a meter, telemetry or gallery register, which a window refuses to write. -/
theorem ringWritten_not_refused (f j : Nat) : ∀ n ∈ ringWritten, winRefused ⟨n, f, j⟩ = false := by
  intro n hn
  fin_cases hn <;> simp [winRefused, meterName, telemetryReg, RegName.ctorIdx]

/-- A write of a ring command has the effect, or receives the ERROR, that the running function's register gives it. -/
theorem State.put_ringWritten {s : State} {f : Nat} (hrun : s.Running f) {n : RegName} (hn : n ∈ ringWritten) (j : Nat)
    (v : Word) : s.put ⟨n, f, j⟩ v = s.mgmt (s.writeRunning ⟨n, f, j⟩ v) := by
  have hname : n ≠ .tly := fun he => tly_not_ringWritten (he ▸ hn)
  rw [State.put_other hname, State.writeReg_running (ringWritten_in_windows n hn) hrun (ringWritten_not_refused f j n hn)]

-- doorbells -------------------------------------------------------------------------------------------------------------------

section bellCheck
variable {N head tail new old : Nat} {v : Word} (hnew : new = (fld v 16 16 * N + fld v 15 0 + 2 * N - head) % (2 * N))
  (hold : old = (tail + 2 * N - head) % (2 * N))
include hnew hold

theorem bellCheck_forward (hslot : fld v 15 0 < N) (hroom : new ≤ N) (hforward : old < new) :
    bellCheck true N head tail v = .accept (fld v 16 16 * N + fld v 15 0) := by
  have hgood : ¬ (N ≤ fld v 15 0 ∨ N < new ∨ new < old) := by omega
  simp [bellCheck, ← hnew, ← hold, hgood, hforward.ne']

theorem bellCheck_still (hslot : fld v 15 0 < N) (hroom : new ≤ N) (hsame : old = new) : bellCheck true N head tail v = .same := by
  simp [bellCheck, ← hnew, ← hold, hslot, hroom, hsame]

theorem bellCheck_illegal (hbad : N ≤ fld v 15 0 ∨ N < new ∨ new < old) :
    bellCheck true N head tail v = .bad := by
  simp [bellCheck, ← hnew, ← hold, hbad]

end bellCheck

/-- With no injection armed at the ring registers a read of one leaves the state. -/
theorem State.ringStrike_none {s : State} (h : s.armedChecker ≠ some 0x8B) : s.ringStrike = s := by
  simp [State.ringStrike, State.wordStrike_none h, State.singleStrike_none h]

/-- What a doorbell with this outcome makes of a ring (R151, R152). -/
def State.rung (s : State) (f n : Nat) (v : Word) : Bell → State
  | .same => s
  | .bad => s.halt f 2 n (fld v 15 0) false 0
  | .accept t => ((s.setRing (ringG f n) { s.ring (ringG f n) with tail := t }).setFn f { s.fn f with quiet := false }).islWake 12

/-- A doorbell to a running function does what its comparison with the positions says. -/
theorem State.bell_running {s : State} {f : Nat} (hrun : s.Running f) (hunarmed : s.armedChecker ≠ some 0x8B) (n : Nat) (v : Word) :
    s.bell f n v
      = s.rung f n v (bellCheck (s.ringOn f n) (s.ringSize f n) (s.ring (ringG f n)).head (s.ring (ringG f n)).tail v) := by
  obtain ⟨-, hhalted, hresetting⟩ := hrun
  have hruns : ¬ ((s.fn f).halted = true ∨ (s.fn f).resetting = true) := by simp [hhalted, hresetting]
  simp only [State.bell, if_neg hruns, State.ringStrike_none hunarmed]
  cases bellCheck (s.ringOn f n) (s.ringSize f n) (s.ring (ringG f n)).head (s.ring (ringG f n)).tail v <;> rfl

theorem exec_doorbell {s : State} {f n : Nat} {v : Word} {b : Bell} (h : s.Open) (hrun : s.Running f) (hunarmed : s.armedChecker ≠ some 0x8B)
    (hon : s.ringOn f n = true)
    (hb : bellCheck true (s.ringSize f n) (s.ring (ringG f n)).head (s.ring (ringG f n)).tail v = b) :
    exec (.doorbell f n v) s = .next (s.rung f n v b).ok.settle := by
  have hput : s.put ⟨.ringDb, f, n⟩ v = (s.bell f n v).ok := by
    rw [State.put_ringWritten hrun (by decide)]; exact State.mgmt_some h
  rw [State.bell_running hrun hunarmed, hon, hb] at hput
  exact congrArg (fun t : State => Host.Outcome.next t.settle) hput

-- configuration ---------------------------------------------------------------------------------------------------------------

/-- RING_ENABLE adds the ENABLE bit to the value: SIZE is the value's. -/
theorem fld_size_or_enable (v : Word) : fld (0x80000000 ||| v) 4 0 = fld v 4 0 := by
  simp only [fld, BitVec.toNat_or, pow_zero, Nat.div_one, Nat.or_mod_two_pow]
  simp

theorem bitOf_enable (v : Word) : bitOf (0x80000000 ||| v) 31 = true := by simp [bitOf]

theorem State.writeRingCfg_enable {s : State} {f n : Nat} {v : Word} (hoff : s.ringOn f n = false) (hmin : 4 ≤ fld v 4 0)
    (hmax : fld v 4 0 ≤ 16) :
    s.writeRingCfg f n (0x80000000 ||| v)
      = some ((s.setReg .ringCfg f n (merge (s.reg .ringCfg f n) (0x80000000 ||| v) 0x8000011F)).setRing (ringG f n)
          { s.ring (ringG f n) with head := 0, tail := 0, fetch := 0, metered := 0, next := 0 }) := by
  have hsize : ¬ (fld v 4 0 < 4 ∨ 16 < fld v 4 0) := by omega
  have hstored : bitOf (s.reg .ringCfg f n) 31 = false := hoff
  simp only [State.writeRingCfg, fld_size_or_enable, if_neg hsize, hstored, bitOf_enable, State.store, State.setReg_ring]
  rfl

theorem State.writeRingCfg_badSize {s : State} {f n : Nat} {v : Word} (hbad : fld v 4 0 < 4 ∨ 16 < fld v 4 0) :
    s.writeRingCfg f n (0x80000000 ||| v) = none := by
  simp only [State.writeRingCfg, fld_size_or_enable, if_pos hbad]

theorem exec_ringEnable {s : State} {f : Nat} (hrun : s.Running f) (n : Nat) (v : Word) :
    exec (.ringEnable f n v) s = .next (s.mgmt (s.writeRingCfg f n (0x80000000 ||| v))).settle :=
  congrArg (fun t : State => Host.Outcome.next t.settle) (State.put_ringWritten hrun (by decide) n _)

/-- The interrupt register of a ring and the control of a vector are stored. -/
theorem State.put_ringStored {s : State} {f : Nat} (h : s.Open) (hrun : s.Running f) {n : RegName} (hn : n = .ringIrq ∨ n = .vecCtrl)
    (j : Nat) (v : Word) : s.put ⟨n, f, j⟩ v = (s.store ⟨n, f, j⟩ v).ok := by
  rcases hn with rfl | rfl
  all_goals rw [State.put_ringWritten hrun (by decide)]; exact State.mgmt_some h

theorem exec_ringIrqWrite {s : State} {f : Nat} (h : s.Open) (hrun : s.Running f) (n : Nat) (v : Word) :
    exec (.ringIrqWrite f n v) s = .next (s.setReg .ringIrq f n (merge (s.reg .ringIrq f n) v 0xFFFFFF3F)).ok.settle :=
  congrArg (fun t : State => Host.Outcome.next t.settle) (State.put_ringStored h hrun (.inl rfl) n v)

theorem exec_vectorUnmask {s : State} {f : Nat} (h : s.Open) (hrun : s.Running f) (w : Nat) :
    exec (.vectorUnmask f w) s = .next (s.setReg .vecCtrl f w (merge (s.reg .vecCtrl f w) 0 1)).ok.settle :=
  congrArg (fun t : State => Host.Outcome.next t.settle) (State.put_ringStored h hrun (.inr rfl) w 0)

/-- Settles O19: a doorbell does what its comparison with the ring's positions says; the other writes are stored. -/
theorem ringDoorbellsAndConfiguration : Obligations.RingDoorbellsAndConfiguration := by
  refine ⟨fun s f n v new old hopen _ hrun hon hunarmed hnew hold =>
      ⟨fun hslot hroom hforward => ?_, fun hslot hroom hsame => ?_, fun hbad => ?_⟩,
    fun s f n v hopen hrun _ => ⟨fun hoff hmin hmax => ?_, fun hbad => ?_, exec_ringIrqWrite hopen hrun n v,
      fun w _ => exec_vectorUnmask hopen hrun w⟩⟩
  · rw [exec_doorbell hopen hrun hunarmed hon (bellCheck_forward hnew hold hslot hroom hforward), State.rung]
  · rw [exec_doorbell hopen hrun hunarmed hon (bellCheck_still hnew hold hslot hroom hsame), State.rung]
  · rw [exec_doorbell hopen hrun hunarmed hon (bellCheck_illegal hnew hold hbad), State.rung]
  · rw [exec_ringEnable hrun, State.writeRingCfg_enable hoff hmin hmax, State.mgmt_some hopen]
  · rw [exec_ringEnable hrun, State.writeRingCfg_badSize hbad, State.mgmt_none hopen]

end Sys2Proof.Machine
end

section
/-! PROOFS. Operations that take no grant: in its turn each takes its effect, and one that draws entropy waits for its bytes (R158, R162,
R201, R204, R233, R245 to R256, R465, R467, R471, R472). -/
namespace Sys2Proof.Machine

-- the turn of a request -------------------------------------------------------------------------------------------------------

/-- Request `r`, of name `id`, may run in `s`; `q` is the request once it has started, in the state `t` (R201, R204). -/
structure State.Turn (s : State) (id : Nat) (r q : Req) (t : State) : Prop where
  req : s.req id = some r
  mayRun : s.mayRun r = true
  started : q = { r with started := true }
  state : t = s.setReq q

section turn
variable {s t : State} {id : Nat} {r q : Req} (h : s.Turn id r q t)
include h

/-- An operation in its turn is its effect on the request as started. -/
theorem State.Turn.runOp {op : Nat} (hop : dOp q.d = op) (k : State → Req → State) : s.runOp id op k = k t q := by
  obtain ⟨hreq, hmay, rfl, rfl⟩ := h
  simp [State.runOp, hreq, hmay, hop]

theorem State.Turn.runOp_done {op : Nat} (hop : dOp q.d = op) (k : State → Req → State) :
    (s.runOp id op k).done = .next (k t q).settle := congrArg (fun u : State => Host.Outcome.next u.settle) (h.runOp hop k)

/-- NOP and FENCE do nothing more than end (R162). -/
theorem State.Turn.exec_control : ∀ p ∈ [(Instr.nop id, 0x00), (.fence id, 0x01)], dOp q.d = p.2 →
    exec p.1 s = .next (t.runControl q).settle := by
  intro p hp hop
  fin_cases hp <;> exact h.runOp_done hop _

/-- What draws entropy goes on in its own way only with its bytes. -/
theorem State.Turn.exec_draws : ∀ p ∈ [(Instr.randomFill id, 0x70), (.randomKey id, 0x71), (.ctxRotate id, 0x82)], dOp q.d = p.2 →
    ∃ k : State → State, exec p.1 s = .next (t.drawThen q k).settle := by
  intro p hp hop
  fin_cases hp <;> exact ⟨_, h.runOp_done hop _⟩

theorem State.Turn.exec_randomKey (hop : dOp q.d = 0x71) :
    exec (.randomKey id) s = .next (t.drawThen q fun s => s.keyDrawn q).settle := h.runOp_done hop _

theorem State.Turn.exec_ctxCreate (hop : dOp q.d = 0x80) : exec (.ctxCreate id) s = .next (t.ctxCreate q).settle := h.runOp_done hop _

theorem State.Turn.exec_ctxDestroy (hop : dOp q.d = 0x81) :
    exec (.ctxDestroy id) s = .next (t.withLine q fun s l => s.ctxDestroy q l).settle := h.runOp_done hop _

theorem State.Turn.exec_ctxRotate (hop : dOp q.d = 0x82) :
    exec (.ctxRotate id) s = .next (t.drawThen q fun s => s.keyDrawn q).settle := h.runOp_done hop _

theorem State.Turn.exec_ctxExport (hop : dOp q.d = 0x83) :
    exec (.ctxExport id) s = .next (t.withLine q fun s l => s.ctxExport q l).settle := h.runOp_done hop _

theorem State.Turn.exec_ctxImport (hop : dOp q.d = 0x84) : exec (.ctxImport id) s = .next (t.ctxImport q).settle := h.runOp_done hop _

theorem State.Turn.exec_ctxSnapshot (hop : dOp q.d = 0x85) :
    exec (.ctxSnapshot id) s = .next (t.withLine q fun s l => s.ctxSnapshot q l).settle := h.runOp_done hop _

theorem State.Turn.exec_ctxFlush (hop : dOp q.d = 0x86) : exec (.ctxFlush id) s = .next (t.ctxFlush q).settle := h.runOp_done hop _

end turn

-- control operations and entropy ----------------------------------------------------------------------------------------------

theorem State.runControl_clean {t : State} {q : Req} (h : dParam q.d = 0) : t.runControl q = t.commit q stOk 0 := if_pos h

theorem State.runControl_param {t : State} {q : Req} (h : dParam q.d ≠ 0) : t.runControl q = t.fail q stFormatMismatch 0x0004 := if_neg h

section entropy
variable {t : State} {q : Req} (k : State → State)

theorem State.drawThen_drawn (h : t.entNeed q ≤ q.got.length) : t.drawThen q k = k t := if_pos h

theorem State.drawThen_waits (h : q.got.length < t.entNeed q) (hgone : t.entGone = false) :
    t.drawThen q k = t.setReq { q with stage := .running, entWaits := true } := by
  simp [State.drawThen, h, hgone]

theorem State.drawThen_unavailable (h : q.got.length < t.entNeed q) (hgone : t.entGone = true) :
    t.drawThen q k = t.fail q stEntropyUnavailable 0 := by
  simp [State.drawThen, h, hgone]

end entropy

-- new contexts ----------------------------------------------------------------------------------------------------------------

theorem slice_all (b : Bytes) : slice b 0 b.length = b := by simp [slice, zeros]

/-- A line that has never been written is accepted with VERSION 0 (R249). -/
theorem State.acceptLine_zero {t : State} {f h : Nat} {mem : Bytes} (hzero : allZero mem = true) :
    t.acceptLine f h mem = .ok 0 := if_pos hzero

/-- A context without extension lines over a line that has never been written: one line is written, with VERSION 0 (R249). -/
theorem State.installCtx_over_zero {t : State} {q : Req} {hdr : Hdr} {b : Bytes} (payload ext : Bytes) (hext : hdr.ext = 0)
    (hread : q.bytes (t.lineAddr (dCtx q.d)) 64 = some b) (hlen : b.length = 64) (hzero : allZero b = true) (hcache : t.ctx.cache = []) :
    t.installCtx q hdr payload ext = ((t.dropInline (dCtx q.d)).putLines q.id
      [(dCtx q.d, { hdr with owner := q.f, epoch := t.epoch q.f, version := 0 }, payload)] []).commit q stOk 0 := by
  have hline : slice b 0 64 = b := hlen ▸ slice_all b
  simp [State.installCtx, hext, hread, hline, State.acceptLine_zero hzero, acceptAll, hcache, versionMax]

/-- ALG 0 is no HMAC: no states are computed (R245). -/
theorem State.withStates_zero (t : State) (k : State → State) : t.withStates 0 k = k t := rfl

section importing
variable {t : State} {q : Req} {p : Bytes}

theorem State.ctxImport_unauthentic (h : kwpUnwrap (q.key 0) q.param = none) : t.ctxImport q = t.fail q stAuthFail 0 := by
  simp [State.ctxImport, h]

theorem State.ctxImport_malformed (h : kwpUnwrap (q.key 0) q.param = some p) (hok : importOk ((dLen q.d - 72) / 40) p = false) :
    t.ctxImport q = t.fail q stFormatMismatch 0x0004 := by
  simp [State.ctxImport, h, hok]

section wellFormed
variable (h : kwpUnwrap (q.key 0) q.param = some p) (hok : importOk ((dLen q.d - 72) / 40) p = true)
include h hok

/-- The lines that the new context covers have not all been read: they are read first (R254). -/
theorem State.ctxImport_unread (hread : q.bytes (t.lineAddr (dCtx q.d)) (64 * (1 + (dLen q.d - 72) / 40)) = none) :
    t.ctxImport q = t.reread q := by
  simp [State.ctxImport, h, hok, hread]

variable (hread : q.bytes (t.lineAddr (dCtx q.d)) (64 * (1 + (dLen q.d - 72) / 40)) ≠ none)
include hread

theorem State.ctxImport_lifted (hkey : (Hdr.ofNat (fieldLE p 0 8)).inline = false) :
    t.ctxImport q = t.installCtx q (Hdr.ofNat (fieldLE p 0 8)) (slice p 8 40) (p.drop 64) := by
  simp [State.ctxImport, h, hok, hread, hkey, State.withStates_zero]

/-- An inline HMAC key gets its states computed anew (R245). -/
theorem State.ctxImport_inline (hkey : (Hdr.ofNat (fieldLE p 0 8)).inline = true) :
    t.ctxImport q = t.withStates (Hdr.ofNat (fieldLE p 0 8)).alg fun s =>
      s.installCtx q (Hdr.ofNat (fieldLE p 0 8)) (slice p 8 40) (overwrite (p.drop 64) 0
        ((inlineArea (Hdr.ofNat (fieldLE p 0 8)).alg (slice p 16 32)).take (40 * ((dLen q.d - 72) / 40)))) := by
  simp [State.ctxImport, h, hok, hread, hkey]

end wellFormed
end importing

-- operations on a context's line ----------------------------------------------------------------------------------------------

theorem State.withLine_go {t u : State} {q : Req} {l : CLine} (h : t.lookup q = .go u l) (k : State → CLine → State) :
    t.withLine q k = k u l := by simp [State.withLine, h]

theorem State.keyDrawn_randomKey {t u : State} {q : Req} {l : CLine} (h : t.lookup q = .go u l) (hop : dOp q.d = 0x71) :
    t.keyDrawn q = u.randomKey q l q.got := by rw [State.keyDrawn, State.withLine_go h, if_pos hop]

theorem State.keyDrawn_rotate {t u : State} {q : Req} {l : CLine} (h : t.lookup q = .go u l) (hop : dOp q.d ≠ 0x71) :
    t.keyDrawn q = u.ctxRotate q l q.got := by rw [State.keyDrawn, State.withLine_go h, if_neg hop]

theorem State.ctxDestroy_writable {u : State} {q : Req} {l : CLine} (h : l.canWrite = true) :
    u.ctxDestroy q l = (u.freeLines q l []).commit q stOk 0 := by simp [State.ctxDestroy, h]

/-- The record that an export wraps (R252, R253). -/
def State.exportRecord (u : State) (l : CLine) : Bytes :=
  natLE 8 ({ l.hdr with owner := 0, epoch := 0, version := 0 } : Hdr).toNat ++ natLE 8 l.counter
    ++ slice (u.lineKey l) 0 32 ++ zeros 16 ++ l.pay

/-- An export that is no move writes its record and leaves the context (R252). -/
theorem State.ctxExport_copy {u : State} {q : Req} {l : CLine} (hcopy : dPbit q.d 8 = false)
    (hdst : u.dstFail q 0 (kwpWrap (q.key 0) (u.exportRecord l)).length = none) :
    u.ctxExport q l = (u.writeData q 0 (kwpWrap (q.key 0) (u.exportRecord l))).commit
      { q with outBytes := (kwpWrap (q.key 0) (u.exportRecord l)).length } stOk 0 := by
  simp only [State.exportRecord] at hdst ⊢
  simp only [State.ctxExport, hcopy, hdst, Bool.false_eq_true, false_and, if_false]

-- CTX_FLUSH with ALL ----------------------------------------------------------------------------------------------------------

section flush
variable {t : State} {q : Req} {l : CLine} (hcache : t.ctx.cache = [l]) (hall : dPbit q.d 8 = true) (howner : l.hdr.owner = q.f)
include hcache hall howner

/-- The one cached context of the function is written back where it must and can be, and dropped (R256). -/
theorem State.ctxFlush_one (h : l.dirty = false ∨ l.canPut (if l.res then l.work else l.memCtr) l.pay = true) :
    t.ctxFlush q = ((t.evict l (.ctxOp q.id l.h)).dropInline l.h).commit q stOk 0 := by
  have hcached : t.cached l.h = some l := by simp [State.cached, hcache]
  rcases h with h | h <;> simp [State.ctxFlush, hcache, hall, howner, h, hcached]

/-- A write-back that R233 does not allow ends the flush, nothing written (R256). -/
theorem State.ctxFlush_spent (hdirty : l.dirty = true) (hspent : l.canPut (if l.res then l.work else l.memCtr) l.pay = false) :
    t.ctxFlush q = t.fail q stSeqExhausted 0 := by
  simp [State.ctxFlush, hcache, hall, howner, hdirty, hspent]

end flush

/-- Settles O54: each operation's effect on the request as started, by its cases. -/
theorem ungrantedOperationsRunInTheirTurn : Obligations.UngrantedOperationsRunInTheirTurn := by
  intro s t id r q hreq hmay hq ht
  have hturn : s.Turn id r q t := ⟨hreq, hmay, hq, ht⟩
  obtain ⟨hd, hf, hid, hparam, hgot⟩ : r.d = q.d ∧ r.f = q.f ∧ r.id = q.id ∧ r.param = q.param ∧ r.got = q.got := by
    subst hq; exact ⟨rfl, rfl, rfl, rfl, rfl⟩
  simp only [hd, hf, hid, hparam, hgot]
  refine ⟨fun p hp hop => ⟨fun hclean => ?_, fun hbits => ?_⟩, fun p hp hop hshort => ?_, ?_, ?_, fun hop htag => ?_,
    fun u l hline => ⟨fun hop hdrawn => ?_, fun hop hdrawn => ?_, fun hop => ?_, fun hop hwrite => ?_,
      fun hop hcopy hdst => ⟨_, rfl, ?_⟩⟩,
    fun l hop hcache hall howner => ⟨fun hclean => ?_, fun hdirty hspent => ?_⟩⟩
  · rw [hturn.exec_control p hp hop, State.runControl_clean hclean]
  · rw [hturn.exec_control p hp hop, State.runControl_param hbits]
  · obtain ⟨k, hexec⟩ := hturn.exec_draws p hp hop
    exact ⟨fun hgone => by rw [hexec, State.drawThen_waits k hshort hgone],
      fun hgone => by rw [hexec, State.drawThen_unavailable k hshort hgone]⟩
  · intro b iv hdr hop hiv hhdr hext hread hlen hzero hcache
    subst hiv hhdr
    rw [hturn.exec_ctxCreate hop, State.ctxCreate, State.installCtx_over_zero _ _ hext hread hlen hzero hcache]
  · intro p k hdr hop hunwrap hk hhdr
    subst hk hhdr
    refine ⟨fun hok => ?_, fun hok hread => ?_, fun hok hread => ⟨fun hkey => ?_, fun hkey => ?_⟩⟩
    · rw [hturn.exec_ctxImport hop, State.ctxImport_malformed hunwrap hok]
    · rw [hturn.exec_ctxImport hop, State.ctxImport_unread hunwrap hok hread]
    · rw [hturn.exec_ctxImport hop, State.ctxImport_lifted hunwrap hok hread hkey]
    · rw [hturn.exec_ctxImport hop, State.ctxImport_inline hunwrap hok hread hkey]
  · rw [hturn.exec_ctxImport hop, State.ctxImport_unauthentic htag]
  · rw [hturn.exec_randomKey hop, State.drawThen_drawn _ hdrawn, State.keyDrawn_randomKey hline hop]
  · rw [hturn.exec_ctxRotate hop, State.drawThen_drawn _ hdrawn, State.keyDrawn_rotate hline (by rw [hop]; decide)]
  · rw [hturn.exec_ctxSnapshot hop, State.withLine_go hline, State.ctxSnapshot]
  · rw [hturn.exec_ctxDestroy hop, State.withLine_go hline, State.ctxDestroy_writable hwrite]
  · rw [hturn.exec_ctxExport hop, State.withLine_go hline, State.ctxExport_copy hcopy hdst, State.exportRecord]
  · rw [hturn.exec_ctxFlush hop, State.ctxFlush_one hcache hall howner hclean]
  · rw [hturn.exec_ctxFlush hop, State.ctxFlush_spent hcache hall howner hdirty hspent]

end Sys2Proof.Machine
end

section
/-! PROOFS. The meter of a ring: what M's writes store and make of its level, its refill, and the timeout of the ring's counted
completions (R179, R187, R188, R190, R198). -/
namespace Sys2Proof.Machine

-- the registers of a meter ----------------------------------------------------------------------------------------------------

/-- The register of a ring's page that keeps a meter or scheduling register, written there or through M's view (R188). -/
def meterStored : MeterReg → RegName
  | .cfg => .meterCfg
  | .rate => .meterRate
  | .burst => .meterBurst
  | .level => .meterLevel
  | .sched => .ringSched

@[simp] theorem meterName_meterStored (r : MeterReg) : meterName (meterStored r) = some r := by cases r <;> rfl

theorem meterReg_own (f n : Nat) (r : MeterReg) : meterReg f n false r = ⟨meterStored r, f, n⟩ := by cases r <;> rfl

theorem meterStored_in_windows (r : MeterReg) : (meterStored r).row.win = true := by cases r <;> rfl

theorem meterStored_injective : Function.Injective meterStored := fun a b h =>
  Option.some.inj (by rw [← meterName_meterStored a, h, meterName_meterStored])

theorem meterReg_not_tly (f n : Nat) (viaView : Bool) (r : MeterReg) : (meterReg f n viaView r).name ≠ .tly := by
  cases viaView <;> cases r <;> exact nofun

/-- A register's name is the one part of its key that its two indexes leave open. -/
theorem regKey_name_injective (i j : Nat) : Function.Injective (fun n : RegName => regKey n i j) := fun a b h => by
  have hctor : a.ctorIdx = b.ctorIdx := by simp only [regKey] at h; omega
  rw [← RegName.ofNat_ctorIdx a, hctor, RegName.ofNat_ctorIdx]

/-- What a store leaves in the registers at its indexes: its own register under the mask, and the others as they were. -/
theorem State.store_reg (s : State) (n m : RegName) (i j : Nat) (v : Word) :
    (s.store ⟨n, i, j⟩ v).reg m i j = if n = m then merge (s.reg m i j) v m.row.rw else s.reg m i j := by
  split
  · next h => subst h; exact s.reg_setReg_self n i j _
  · next h => exact s.reg_setReg_ne _ fun hkey => h (regKey_name_injective i j hkey).symm

-- writes of M -----------------------------------------------------------------------------------------------------------------

/-- M's way to a ring's meter: a tenant's ring through its view, one of its own through its window (R188). -/
def State.MeterOfM (s : State) (f n : Nat) (viaView : Bool) : Prop :=
  (f ≤ 15 ∧ n < 64 ∧ viaView = true) ∨ (f = 16 ∧ n < 16 ∧ viaView = false ∧ s.Running 16)

theorem aliasRing_ringG {f n : Nat} (hf : f ≤ 15) (hn : n < 64) : aliasRing (ringG f n) = (f, n) := by
  have hnum : ringG f n = 64 * f + n := if_neg (by omega)
  rw [hnum, aliasRing, Prod.mk.injEq]
  omega

/-- The view writes the ring that its number names. -/
theorem State.writeReg_view (s : State) {f n : Nat} (hf : f ≤ 15) (hn : n < 64) (r : MeterReg) (v : Word) :
    s.writeReg (meterReg f n true r) v = s.writeMeter f n r v := by
  have hring := aliasRing_ringG hf hn
  have hview : s.writeReg (meterReg f n true r) v = s.writeMeter (aliasRing (ringG f n)).1 (aliasRing (ringG f n)).2 r v := by
    cases r <;> rfl
  rw [hview, hring]

/-- M's window writes M's own ring while M runs. -/
theorem State.writeReg_ownMeter {s : State} (hrun : s.Running 16) (n : Nat) (r : MeterReg) (v : Word) :
    s.writeReg (meterReg 16 n false r) v = s.writeMeter 16 n r v := by
  have htakes : winRefused ⟨meterStored r, 16, n⟩ = false := by cases r <;> rfl
  rw [meterReg_own, State.writeReg_running (meterStored_in_windows r) hrun htakes]
  cases r <;> rfl

theorem exec_meterConfigWrite (f n : Nat) (viaView : Bool) (r : MeterReg) (v : Word) (s : State) :
    exec (.meterConfigWrite f n viaView r v) s = .next (s.mgmt (s.writeReg (meterReg f n viaView r) v)).settle :=
  congrArg (fun t : State => Host.Outcome.next t.settle) (State.put_other (meterReg_not_tly f n viaView r))

theorem State.MeterOfM.exec {s : State} {f n : Nat} {viaView : Bool} (h : s.MeterOfM f n viaView) (r : MeterReg) (v : Word) :
    exec (.meterConfigWrite f n viaView r v) s = .next (s.mgmt (s.writeMeter f n r v)).settle := by
  rw [exec_meterConfigWrite]
  rcases h with ⟨hf, hn, rfl⟩ | ⟨rfl, -, rfl, hrun⟩
  · rw [s.writeReg_view hf hn]
  · rw [State.writeReg_ownMeter hrun]

/-- A tenant's own write to its meter or scheduling registers is refused while the tenant is not resetting (R188). -/
theorem State.writeReg_tenantMeter {s : State} {f : Nat} (hf : f ≤ 15) (henabled : (s.fn f).enabled = true)
    (hresetting : (s.fn f).resetting = false) (n : Nat) (r : MeterReg) (v : Word) : s.writeReg (meterReg f n false r) v = none := by
  have htenant : f ≠ 16 := by omega
  have hrefused : winRefused ⟨meterStored r, f, n⟩ = true := by simp [winRefused, htenant]
  simp [meterReg_own, State.writeReg, meterStored_in_windows, State.writeWin, henabled, hresetting, hrefused]

/-- A legal write of M to a meter register `r`: the register is stored, the level set anew (R198). -/
def State.meterWritten (s : State) (f n : Nat) (r : MeterReg) (v : Word) : State := (s.store ⟨meterStored r, f, n⟩ v).meterReset f n

theorem State.writeMeter_legal (s : State) (f n : Nat) {r : MeterReg} {v : Word} (hr : r ∈ [MeterReg.cfg, .rate, .burst])
    (hmode : r = .cfg → fld v 1 0 ≠ 3) (hburst : r = .burst → fld v 23 0 ≠ 0) :
    s.writeMeter f n r v = some (s.meterWritten f n r v) := by
  cases r with
  | cfg => exact if_neg (hmode rfl)
  | rate => rfl
  | burst => exact if_neg (hburst rfl)
  | level | sched => simp at hr

@[simp] theorem State.meterReset_reg (s : State) (f n : Nat) (m : RegName) (i j : Nat) : (s.meterReset f n).reg m i j = s.reg m i j :=
  State.setRing_reg _ _ _ m i j

/-- Of the registers of a meter a write changes its own. -/
theorem State.meterWritten_reg (s : State) (f n : Nat) (r m : MeterReg) (v : Word) :
    (s.meterWritten f n r v).reg (meterStored m) f n =
      if r = m then merge (s.reg (meterStored m) f n) v (meterStored m).row.rw else s.reg (meterStored m) f n := by
  simp only [State.meterWritten, State.meterReset_reg, State.store_reg, meterStored_injective.eq_iff]

/-- The writable bits of a meter's registers (R198). -/
theorem meterStored_rw : (meterStored .cfg).row.rw = 0x71B ∧ (meterStored .rate).row.rw = 0xFFFFFF ∧
    (meterStored .burst).row.rw = 0xFFFFFF := by decide

/-- The level after a write is that of ON_CHANGE and BURST as stored by then. -/
theorem State.meterWritten_ring (s : State) (f n : Nat) (r : MeterReg) (v : Word) :
    (s.meterWritten f n r v).ring (ringG f n) = { s.ring (ringG f n) with
      level := if ((s.meterWritten f n r v).reg .meterCfg f n).getLsbD 4
        then ((fld ((s.meterWritten f n r v).reg .meterBurst f n) 23 0 * 256 : Nat) : Int) else 0 } := by
  have hring : (s.store ⟨meterStored r, f, n⟩ v).ring (ringG f n) = s.ring (ringG f n) := s.setReg_ring _ f n _ _
  simp only [State.meterWritten, State.meterReset_reg]
  rw [State.meterReset, State.ring_setRing_self, hring, bitOf]

/-- A store changes nothing but registers. -/
theorem State.setReg_frame (s : State) (n : RegName) (i j : Nat) (v : Word) :
    s.setReg n i j v = { s with regs := (s.setReg n i j v).regs } := rfl

/-- A ring written where at most registers and rings have changed leaves it so. -/
theorem State.setRing_frame {s t : State} {regs : Tbl Word} {rings : Tbl Ring} (h : t = { s with regs := regs, rings := rings })
    (g : Nat) (x : Ring) :
    t.setRing g x = { s with regs := (t.setRing g x).regs, rings := (t.setRing g x).rings } := by
  subst h
  rfl

theorem State.meterWritten_frame (s : State) (f n : Nat) (r : MeterReg) (v : Word) :
    s.meterWritten f n r v = { s with regs := (s.meterWritten f n r v).regs, rings := (s.meterWritten f n r v).rings } :=
  State.setRing_frame (s.setReg_frame _ f n _) _ _

/-- Settles O20: M's ways lead to one write, which the values decide; a tenant's own way ends before it. -/
theorem meterWritesByMSetTheLevel : Obligations.MeterWritesByMSetTheLevel := by
  refine fun s f n v hopen => ⟨fun viaView hway => ?_, fun r hf hn hdisabled hresetting => ?_⟩
  · have hway : s.MeterOfM f n viaView := hway
    obtain ⟨hcfg, hrate, hburst⟩ := meterStored_rw
    refine ⟨fun r hr hmode hzero => ⟨s.meterWritten f n r v, ?_, hcfg ▸ s.meterWritten_reg f n r .cfg v,
      hrate ▸ s.meterWritten_reg f n r .rate v, hburst ▸ s.meterWritten_reg f n r .burst v, s.meterWritten_ring f n r v,
      s.meterWritten_frame f n r v⟩, fun hmode => ?_, fun hzero => ?_, fun hweight => ?_⟩
    · rw [hway.exec, s.writeMeter_legal f n hr hmode hzero, State.mgmt_some hopen]
    · rw [hway.exec, State.writeMeter, if_pos hmode, State.mgmt_none hopen]
    · rw [hway.exec, State.writeMeter, if_pos hzero, State.mgmt_none hopen]
    · rw [hway.exec, State.writeMeter, if_pos hweight, State.mgmt_none hopen]
  · have henabled : (s.fn f).enabled = true := by simpa [State.fnDisabled, hresetting] using hdisabled
    rw [exec_meterConfigWrite, State.writeReg_tenantMeter hf henabled hresetting, State.mgmt_none hopen]

-- refill and moderation -------------------------------------------------------------------------------------------------------

theorem exec_meterRefill {s : State} (hlive : s.live = true) :
    exec .meterRefill s = .next (s.meteredRings.foldl State.refillRing s).settle :=
  congrArg (fun t : State => Host.Outcome.next t.settle) (if_pos hlive)

theorem exec_moderationTimeout {s : State} {f n : Nat} (hcounted : (s.ring (ringG f n)).counted ≠ 0) (htime : s.modTime f n ≠ 0)
    (hpm : (s.fn f).pm = .run) : exec (.moderationTimeout f n) s = .next (s.ringDue f n).settle :=
  congrArg (fun t : State => Host.Outcome.next t.settle) (if_pos ⟨hcounted, htime, hpm⟩)

/-- The message of a ring becomes due on the vector that RING_IRQ names, its count and timer cleared (R179). -/
theorem State.ringDue_eq (s : State) (f n : Nat) :
    s.ringDue f n = (s.setRing (ringG f n) { s.ring (ringG f n) with counted := 0, timer := none }).due f
      (fld (s.reg .ringIrq f n) 5 0) := by
  rw [State.ringDue, State.setRing_reg]

/-- Settles O21: the one metered ring is refilled; a timeout does what the due message of its ring says. -/
theorem meterRefillAndModerationTimeout : Obligations.MeterRefillAndModerationTimeout := by
  refine fun s f n hlive _ => ⟨fun hone => ?_, fun hcounted htime hpm => ?_⟩
  · rw [exec_meterRefill hlive, hone, List.foldl_cons, List.foldl_nil, State.refillRing, refill]
    rfl
  · rw [exec_moderationTimeout hcounted htime hpm, State.ringDue_eq]

end Sys2Proof.Machine
end

section
/-! PROOFS. The gate list: SWAP and the swap that takes effect, the eligibility intervals of a gate, and PREWAKE (R207, R208, R210 to
R217). -/
namespace Sys2Proof.Machine

-- SWAP ------------------------------------------------------------------------------------------------------------------------

/-- The bit that GATE_SWAP sets lies below the PREWAKE_LANES field. -/
theorem fld_lanes_or_swap (v : Word) : fld (1 ||| v) 7 4 = fld v 7 4 := by
  simp only [fld, BitVec.toNat_or, ← Nat.shiftRight_eq_div_pow, Nat.shiftRight_or_distrib]
  simp

theorem bitOf_swap (v : Word) : bitOf (1 ||| v) 0 = true := by simp [bitOf]

theorem exec_gateSwap (v : Word) (s : State) :
    exec (.gateSwap v) s = .next (s.mgmt (s.writeGateCtrl (1 ||| v))).settle :=
  congrArg (fun t : State => Host.Outcome.next t.settle) (State.put_other nofun)

section swap
variable {s : State} {v : Word} (hlanes : fld v 7 4 ≤ 8)
include hlanes

/-- A legal PREWAKE_LANES leaves the swap itself to decide the write (R208). -/
theorem State.writeGateCtrl_swap : s.writeGateCtrl (1 ||| v) = if s.gate.pending = true ∨ ¬ s.swapOk = true then none
    else some { s.store ⟨.gateCtrl, 0, 0⟩ (1 ||| v) with gate := { s.gate with pending := true } } := by
  rw [State.writeGateCtrl, fld_lanes_or_swap, if_neg (by omega), if_neg (not_not.mpr (bitOf_swap v))]

theorem State.writeGateCtrl_taken (hpending : s.gate.pending = false) (hok : s.swapOk = true) :
    s.writeGateCtrl (1 ||| v) = some { s.store ⟨.gateCtrl, 0, 0⟩ (1 ||| v) with gate := { s.gate with pending := true } } := by
  have htaken : ¬ (s.gate.pending = true ∨ ¬ s.swapOk = true) := by simp [hpending, hok]
  rw [State.writeGateCtrl_swap hlanes, if_neg htaken]

theorem State.writeGateCtrl_refused (hbad : s.gate.pending = true ∨ s.swapOk = false) : s.writeGateCtrl (1 ||| v) = none := by
  rw [State.writeGateCtrl_swap hlanes, if_pos (hbad.imp_right Bool.eq_false_iff.mp)]

end swap

-- the list that a swap puts in operation --------------------------------------------------------------------------------------

/-- Two gate registers share a key only where they are the same register. -/
theorem regKey_gate {n m : RegName} {i j : Nat} (hi : i < 64) (hj : j < 64) : regKey m 0 j = regKey n 0 i ↔ m = n ∧ j = i := by
  refine ⟨fun h => ?_, fun h => by rw [h.1, h.2]⟩
  have hij : j = i := by simp only [regKey] at h; omega
  exact ⟨regKey_name_injective 0 i (hij ▸ h), hij⟩

theorem State.reg_setReg_gate (s : State) (n m : RegName) {i j : Nat} (hi : i < 64) (hj : j < 64) (v : Word) :
    (s.setReg n 0 i v).reg m 0 j = if m = n ∧ j = i then v else s.reg m 0 j := by
  split
  · next h => rw [h.1, h.2, State.reg_setReg_self]
  · next h => exact s.reg_setReg_ne v (mt (regKey_gate hi hj).mp h)

/-- Base time, cycle and length of the list in operation are those of the admin list. -/
def State.headCopied (s : State) : State :=
  let t := (s.setReg .gateOperBaseLo 0 0 (s.reg .gateAdminBaseLo)).setReg .gateOperBaseHi 0 0 (s.reg .gateAdminBaseHi)
  (t.setReg .gateOperCycle 0 0 (t.reg .gateAdminCycle)).setReg .gateOperLen 0 0 (t.reg .gateAdminLen)

/-- Entry `i` of the list in operation is that of the admin list. -/
def State.entryCopied (s : State) (i : Nat) : State :=
  (s.setReg .gateOperIvl 0 i (s.reg .gateAdminIvl 0 i)).setReg .gateOperGates 0 i (s.reg .gateAdminGates 0 i)

/-- The first `k` entries of the list in operation are those of the admin list. -/
def State.entriesCopied (s : State) (k : Nat) : State := (List.range k).foldl State.entryCopied s

/-- The register of the admin list that a copy of an entry puts into a register. -/
def entrySource : RegName → RegName
  | .gateOperIvl => .gateAdminIvl
  | .gateOperGates => .gateAdminGates
  | n => n

theorem entrySource_other {m : RegName} (hivl : m ≠ .gateOperIvl) (hgates : m ≠ .gateOperGates) : entrySource m = m := by
  unfold entrySource
  split
  · exact absurd rfl hivl
  · exact absurd rfl hgates
  · rfl

theorem State.entryCopied_reg (s : State) (m : RegName) {i j : Nat} (hi : i < 64) (hj : j < 64) :
    (s.entryCopied i).reg m 0 j = if j = i then s.reg (entrySource m) 0 j else s.reg m 0 j := by
  simp only [State.entryCopied, State.reg_setReg_gate _ _ _ hi hj]
  split
  case isTrue h => obtain ⟨rfl, rfl⟩ := h; simp [entrySource]
  case isFalse hgates =>
    split
    case isTrue h => obtain ⟨rfl, rfl⟩ := h; simp [entrySource]
    case isFalse hivl =>
      split
      case isTrue hji => rw [entrySource_other (fun h => hivl ⟨h, hji⟩) (fun h => hgates ⟨h, hji⟩)]
      case isFalse => rfl

theorem State.entriesCopied_reg (s : State) (m : RegName) {k j : Nat} (hk : k ≤ 64) (hj : j < 64) :
    (s.entriesCopied k).reg m 0 j = if j < k then s.reg (entrySource m) 0 j else s.reg m 0 j := by
  induction k generalizing m with
  | zero => rfl
  | succ k ih =>
    have hstep : s.entriesCopied (k + 1) = (s.entriesCopied k).entryCopied k := by
      simp [State.entriesCopied, List.range_succ]
    rw [hstep, State.entryCopied_reg _ m (by omega) hj, ih (entrySource m) (by omega), ih m (by omega)]
    obtain hlt | rfl | hgt := lt_trichotomy j k
    · rw [if_neg hlt.ne, if_pos hlt, if_pos (by omega)]
    · rw [if_pos rfl, if_neg (lt_irrefl _), if_pos (by omega)]
    · rw [if_neg hgt.ne', if_neg (by omega), if_neg (by omega)]

/-- The admin list is in operation, in the registers (R208). -/
def State.listCopied (s : State) : State := s.headCopied.entriesCopied 64

theorem State.listCopied_head (s : State) :
    s.listCopied.reg .gateOperCycle = s.reg .gateAdminCycle ∧ s.listCopied.reg .gateOperLen = s.reg .gateAdminLen ∧
    s.listCopied.reg .gateOperBaseLo = s.reg .gateAdminBaseLo ∧ s.listCopied.reg .gateOperBaseHi = s.reg .gateAdminBaseHi := by
  simp [State.listCopied, State.entriesCopied_reg, entrySource, State.headCopied, State.reg_setReg_gate]

theorem State.listCopied_entry (s : State) {i : Nat} (hi : i < 64) :
    s.listCopied.reg .gateOperIvl 0 i = s.reg .gateAdminIvl 0 i ∧ s.listCopied.reg .gateOperGates 0 i = s.reg .gateAdminGates 0 i := by
  simp [State.listCopied, State.entriesCopied_reg, entrySource, State.headCopied, State.reg_setReg_gate, hi]

/-- A swap that takes effect copies the list and begins it at its instant (R208, R214). -/
theorem State.swapEffect_at {s : State} {t : Nat} (hpending : s.gate.pending = true) (hat : s.thisMicro s.swapAt = some t) :
    s.swapEffect.regs = s.listCopied.regs ∧ s.swapEffect.gate.oper = true ∧ s.swapEffect.gate.pending = false ∧
      s.swapEffect.gate.since = t := by
  rw [State.swapEffect, if_neg (not_not.mpr hpending), hat]
  dsimp only
  refine ⟨?_, rfl, rfl, rfl⟩
  rw [State.listCopied, State.entriesCopied, State.headCopied]
  rfl

theorem State.swapEffect_none {s : State} (h : s.gate.pending = false ∨ s.thisMicro s.swapAt = none) : s.swapEffect = s := by
  rcases h with h | h <;> simp [State.swapEffect, h]

theorem exec_gateSwapEffect (s : State) : exec .gateSwapEffect s = .next s.swapEffect.settle := rfl

-- eligibility intervals -------------------------------------------------------------------------------------------------------

theorem exec_eligibilityStart (g : Fin 8) (s : State) : exec (.eligibilityStart g) s = .next (s.eligStart g.val).settle := rfl

theorem exec_eligibilityEnd (g : Fin 8) (s : State) : exec (.eligibilityEnd g) s = .next (s.eligEnd g.val).settle := rfl

/-- The interval of the window that lies LEAD ahead begins, and binds what waits without one (R210, R213). -/
theorem State.eligStart_begins {s : State} {g i t lead : Nat} (hoper : s.gate.oper = true)
    (hnone : s.gate.elig.any (fun e => e.g == g) = false) (hlead : lead = fld (s.reg .gateLead) 19 0)
    (hmicro : s.thisMicro (fun x => (s.windowAt g (x + lead)).isSome) = some i) (hwindow : s.windowAt g (i + lead) = some t) :
    s.eligStart g
      = { s with gate := { s.gate with elig := s.gate.elig ++ [{ g := g, opens := t, lead := lead }] }
                 reqs := s.reqs.map (fun r =>
                   if r.cls = 2 ∧ opGranted (dOp r.d) ∧ r.inFlight ∧ ¬ r.started ∧ ¬ r.fallen ∧ r.bound.isNone ∧ s.gateOf r.f r.n = g
                   then { r with bound := some t } else r) } := by
  subst hlead
  have hbegins : ¬ (¬ s.gate.oper = true ∨ s.gate.elig.any (fun e => e.g == g) = true) := by simp [hoper, hnone]
  simp only [State.eligStart, if_neg hbegins, hmicro, Option.bind_some, hwindow]

section intervalEnd
variable {s : State} {g : Nat} {e : Elig} (hfind : s.gate.elig.find? (fun e => e.g == g) = some e)
include hfind

theorem State.eligEnd_goesOn (h : s.thisMicro (fun x => s.windowAt g (x + e.lead) != some e.opens) = none) : s.eligEnd g = s := by
  simp only [State.eligEnd, hfind, h, Option.isNone_none, if_true]

theorem State.eligEnd_ends (h : s.thisMicro (fun x => s.windowAt g (x + e.lead) != some e.opens) ≠ none) :
    s.eligEnd g = { s with gate := { s.gate with elig := s.gate.elig.filter (fun e => e.g != g) }, reqs := s.reqs.map (s.unbind g) } := by
  simp only [State.eligEnd, hfind, Option.isNone_iff_eq_none, if_neg h]

end intervalEnd

/-- The end of an interval touches only the gate's requests in flight (R211, R213). -/
theorem State.unbind_eq (s : State) (g : Nat) (r : Req) :
    s.unbind g r =
      if r.cls = 2 ∧ opGranted (dOp r.d) ∧ r.inFlight ∧ s.gateOf r.f r.n = g then
        (if r.started then { r with fallen := true } else if r.bound.isSome then { r with bound := none, late := true } else r)
      else r := by
  have hiff : (r.cls ≠ 2 ∨ ¬ opGranted (dOp r.d) = true ∨ ¬ r.inFlight = true ∨ s.gateOf r.f r.n ≠ g) ↔
      ¬ (r.cls = 2 ∧ opGranted (dOp r.d) = true ∧ r.inFlight = true ∧ s.gateOf r.f r.n = g) := by tauto
  rw [State.unbind, if_congr hiff rfl rfl, ite_not]

-- PREWAKE ---------------------------------------------------------------------------------------------------------------------

theorem exec_prewake {s : State} {g : Fin 8} (hoper : s.gate.oper = true) (hset : bitOf (s.reg .gateCtrl) (8 + g.val) = true)
    (hlive : s.live = true) : exec (.prewake g) s
      = .next ((((List.range 9).filter s.laneIn).take (fld (s.reg .gateCtrl) 7 4)).foldl State.islWake (s.islWake 12)).settle := by
  have hwakes : ¬ (¬ s.gate.oper = true ∨ ¬ bitOf (s.reg .gateCtrl) (8 + g.val) = true ∨ ¬ s.live = true) := by simp [hoper, hset, hlive]
  exact congrArg (fun t : State => Host.Outcome.next t.settle) (if_neg hwakes)

/-- Settles O47: a swap is taken or refused, and later copies the list; the intervals begin and end by their windows. -/
theorem gateListEvents : Obligations.GateListEvents := by
  refine fun s g => ⟨fun v hopen hlanes => ⟨fun hpending hok => ?_, fun hbad => ?_⟩, fun hnone => ?_, fun t hpending hat => ?_,
    fun i t lead hoper hnone hlead hmicro hwindow => ?_, fun e hfind => ⟨fun hown => ?_, fun hleft => ?_⟩, exec_prewake⟩
  · rw [exec_gateSwap, State.writeGateCtrl_taken hlanes hpending hok, State.mgmt_some hopen, State.store]
  · rw [exec_gateSwap, State.writeGateCtrl_refused hlanes hbad, State.mgmt_none hopen]
  · rw [exec_gateSwapEffect, State.swapEffect_none hnone]
  · obtain ⟨hregs, hoper, hdone, hsince⟩ := State.swapEffect_at hpending hat
    obtain ⟨hcycle, hlen, hlo, hhi⟩ := s.listCopied_head
    have hreg : ∀ n i j, s.swapEffect.reg n i j = s.listCopied.reg n i j := fun n i j => by rw [State.reg, hregs, State.reg]
    refine ⟨s.swapEffect, exec_gateSwapEffect s, hoper, hdone, hsince, ?_⟩
    simp only [hreg]
    exact ⟨hcycle, hlen, hlo, hhi, fun i hi => s.listCopied_entry hi⟩
  · rw [exec_eligibilityStart, State.eligStart_begins hoper hnone hlead hmicro hwindow]
  · rw [exec_eligibilityEnd, State.eligEnd_goesOn hfind hown]
  · rw [exec_eligibilityEnd, State.eligEnd_ends hfind hleft, funext (s.unbind_eq g.val)]

end Sys2Proof.Machine
end

section
/-! PROOFS. Grants: with a candidate the request's first or next stroke or computation starts on the engine that took it, with none
nothing changes (R201, R202, R206, R220, R387). -/
namespace Sys2Proof.Machine

-- the choice of an arbiter ----------------------------------------------------------------------------------------------------

/-- An arbiter without a candidate leaves the state as it is. -/
theorem State.arbitrate_nil (s : State) (arb : Nat) : s.arbitrate arb [] = (s, none) := rfl

-- what a first grant leaves as it was -----------------------------------------------------------------------------------------

section firstGrant
variable (s : State) (r : Req) (home : List Nat)

/-- A first grant fixes which interval a request holds, or that it has fallen, and nothing else of it (R211, R212). -/
theorem State.bindStart_field {β : Type} (field : Req → β) (hbound : ∀ (r : Req) b, field { r with bound := b } = field r)
    (hfallen : ∀ (r : Req) b, field { r with fallen := b } = field r) : field (s.bindStart r) = field r := by
  unfold State.bindStart
  split
  · rfl
  · split
    · exact hbound r _
    · exact hfallen r _

@[simp] theorem State.firstGrant_id : (s.firstGrant r home).2.id = r.id :=
  s.bindStart_field r Req.id (fun _ _ => rfl) (fun _ _ => rfl)
@[simp] theorem State.firstGrant_f : (s.firstGrant r home).2.f = r.f :=
  s.bindStart_field r Req.f (fun _ _ => rfl) (fun _ _ => rfl)
@[simp] theorem State.firstGrant_d : (s.firstGrant r home).2.d = r.d :=
  s.bindStart_field r Req.d (fun _ _ => rfl) (fun _ _ => rfl)
@[simp] theorem State.firstGrant_nextId : (s.firstGrant r home).1.nextId = s.nextId + 1 := rfl
@[simp] theorem State.firstGrant_ctx : (s.firstGrant r home).1.ctx = s.ctx := rfl
@[simp] theorem State.firstGrant_fab : (s.firstGrant r home).1.fab = s.fab := rfl
@[simp] theorem State.firstGrant_dig (e : Nat) : (s.firstGrant r home).1.dig e = s.dig e := rfl
@[simp] theorem State.firstGrant_easel (e : Nat) : (s.firstGrant r home).1.easel e = s.easel e := rfl

end firstGrant

-- lanes -----------------------------------------------------------------------------------------------------------------------

/-- Entering a request in the banks of its lanes changes what a write of a lane changes. -/
theorem State.bankLanes_field {β : Type} (field : State → β) (h : ∀ (s : State) n x, field (s.setLane n x) = field s) (id : Nat)
    (home : List Nat) (s : State) : field (home.foldl (fun s m => s.bankLane id m) s) = field s := by
  refine foldl_keeps_field field (fun s m => ?_) home s
  unfold State.bankLane
  split
  · rfl
  · exact h s m _

@[simp] theorem State.islWake_nextId (s : State) (i : Nat) : (s.islWake i).nextId = s.nextId :=
  s.islWake_field State.nextId (fun _ _ => rfl) i
@[simp] theorem State.islWake_ctx (s : State) (i : Nat) : (s.islWake i).ctx = s.ctx := s.islWake_field State.ctx (fun _ _ => rfl) i
@[simp] theorem State.islWake_fab (s : State) (i : Nat) : (s.islWake i).fab = s.fab := s.islWake_field State.fab (fun _ _ => rfl) i

/-- A wake of the reserve lane changes what a wake of an island changes. -/
theorem State.wakeReserve_field {β : Type} (field : State → β) (h : ∀ (s : State) i, field (s.islWake i) = field s) (s : State) :
    field s.wakeReserve = field s := by
  unfold State.wakeReserve
  split
  · exact h s _
  · rfl

@[simp] theorem State.wakeReserve_nextId (s : State) : s.wakeReserve.nextId = s.nextId :=
  s.wakeReserve_field State.nextId State.islWake_nextId
@[simp] theorem State.wakeReserve_ctx (s : State) : s.wakeReserve.ctx = s.ctx := s.wakeReserve_field State.ctx State.islWake_ctx
@[simp] theorem State.wakeReserve_fab (s : State) : s.wakeReserve.fab = s.fab := s.wakeReserve_field State.fab State.islWake_fab

/-- A stroke of an operation on one lane alone is placed on its lane (R201). -/
theorem State.startLane_single {s : State} {r : Req} (hpair : dPair r.d = false) (hcomb : opCombined (dOp r.d) = false) (n k : Nat) :
    s.startLane r n k = s.wakeReserve.placeLane n { id := r.id, k := k } := by
  simp [State.startLane, hpair, hcomb]

/-- The first grant of a request that is no SEAL: it starts, takes its banks, and its first stroke starts (R202, R220). -/
theorem State.firstLane_stroke {t : State} {r : Req} (hseal : dOp r.d ≠ 0x52) (n : Nat) :
    t.firstLane r n = ((t.pieces r.d n).foldl (fun s m => s.bankLane r.id m)
      (t.firstGrant { r with first := n } (t.pieces r.d n)).1).startLane
        (t.firstGrant { r with first := n } (t.pieces r.d n)).2 n 0 := by
  simp [State.firstLane, hseal]

theorem opCombined_eq_false {op : Nat} (h : ¬ (0x40 ≤ op ∧ op ≤ 0x42)) : opCombined op = false := by
  rw [opCombined, ← Bool.decide_and]
  exact decide_eq_false h

/-- The first grant of a request on one lane alone puts its stroke there; contexts and the fabric are as before. -/
theorem State.firstLane_started {t : State} {r : Req} (hseal : dOp r.d ≠ 0x52) (hpair : dPair r.d = false)
    (hcomb : opCombined (dOp r.d) = false) (n : Nat) :
    ((t.firstLane r n).lane n).run = some { id := r.id, k := 0 } ∧ (t.firstLane r n).nextId = t.nextId + 1 ∧
      (t.firstLane r n).ctx = t.ctx ∧ (t.firstLane r n).fab = t.fab := by
  rw [State.firstLane_stroke hseal, State.startLane_single (by simpa using hpair) (by simpa using hcomb)]
  simp [State.placeLane, State.bankLanes_field State.nextId State.setLane_nextId, State.bankLanes_field State.ctx State.setLane_ctx,
    State.bankLanes_field State.fab State.setLane_fab]

section laneGrant
variable {s : State} {n : Nat} (hlive : s.live = true) (hin : s.laneIn n = true) (hidle : s.laneIdle n = true)
  (hleaving : s.leaving ≠ some n)
include hlive hin hidle hleaving

/-- A lane that is free takes what its arbiter grants. -/
theorem State.laneGrantable : ¬ (¬ s.live = true ∨ ¬ s.laneIn n = true ∨ ¬ s.laneIdle n = true ∨ s.leaving = some n) := by
  simp [hlive, hin, hidle, hleaving]

theorem State.grantLane_none (hnone : s.cands (fun r => s.readyLane r n) = []) : s.grantLane n = s := by
  rw [State.grantLane, if_neg (State.laneGrantable hlive hin hidle hleaving), hnone, State.arbitrate_nil]

section candidate
variable {t : State} {c : Cand} {r : Req} (hcand : s.arbitrate 0 (s.cands (fun r => s.readyLane r n)) = (t, some c))
  (hreq : t.req c.id = some r)
include hcand hreq

theorem State.grantLane_first (hstarted : r.started = false) : s.grantLane n = t.firstLane r n := by
  rw [State.grantLane, if_neg (State.laneGrantable hlive hin hidle hleaving), hcand]
  simp [hreq, hstarted]

theorem State.grantLane_next {k : Nat} (hstarted : r.started = true) (hnext : t.nextOn r n = some k) :
    s.grantLane n = (t.setReq { r with late := t.lateNow r }).startLane { r with late := t.lateNow r } n k := by
  rw [State.grantLane, if_neg (State.laneGrantable hlive hin hidle hleaving), hcand]
  simp [hreq, hstarted, hnext, State.laterGrant]

end candidate
end laneGrant

-- digest engines --------------------------------------------------------------------------------------------------------------

/-- The first stroke of request `r` has been granted to digest engine `e`: it holds a bank there (R202). -/
def State.digStarted (t : State) (r : Req) (e : Nat) : State :=
  (t.firstGrant r [e]).1.setDig e { t.dig e with
    banks := if (t.dig e).banks.contains r.id then (t.dig e).banks else (t.dig e).banks ++ [r.id]
    run := some { id := r.id, k := 0 } }

theorem State.digStarted_dig (t : State) (r : Req) (e : Nat) :
    ((t.digStarted r e).dig e).run = some { id := r.id, k := 0 } ∧ r.id ∈ ((t.digStarted r e).dig e).banks := by
  rw [State.digStarted, State.dig_setDig_self]
  refine ⟨rfl, ?_⟩
  dsimp only
  split
  · next h => exact List.contains_iff_mem.mp h
  · simp

section digestGrant
variable {s : State} {e : Nat} (hlive : s.live = true) (hfree : s.digFree e = true)
include hlive hfree

theorem State.digGrantable : ¬ (¬ s.live = true ∨ ¬ s.digFree e = true) := by simp [hlive, hfree]

theorem State.grantDig_none (hnone : s.cands (fun r => s.readyDig r e) = []) : s.grantDig e = s := by
  rw [State.grantDig, if_neg (State.digGrantable hlive hfree), hnone, State.arbitrate_nil]

theorem State.grantDig_first {t : State} {c : Cand} {r : Req}
    (hcand : s.arbitrate 1 (s.cands (fun r => s.readyDig r e)) = (t, some c)) (hreq : t.req c.id = some r)
    (hstarted : r.started = false) : s.grantDig e = t.digStarted r e := by
  rw [State.grantDig, if_neg (State.digGrantable hlive hfree), hcand]
  simp [hreq, hstarted, State.digStarted]

end digestGrant

-- easels ----------------------------------------------------------------------------------------------------------------------

/-- A computation that begins runs on its easel beside those already held (R385). -/
theorem State.placeComp_begun (s : State) (r : Req) (e k : Nat) : ∃ x : Comp,
    ((s.placeComp r e k).easel e).running = some r.id ∧ ((s.placeComp r e k).easel e).comps = (s.easel e).comps ++ [x] ∧
      x.id = r.id ∧ x.f = r.f ∧ x.attempt = k := by
  rw [State.placeComp, State.easel_setEasel_self]
  exact ⟨_, rfl, rfl, rfl, rfl, rfl⟩

theorem State.easelMover_none {s : State} (hmove : s.sched.easelMove = []) (e : Nat) : s.easelMover e = none := by
  simp [State.easelMover, hmove]

section easelGrant
variable {s : State} {e : Nat} (hlive : s.live = true) (he : e < 4) (hidle : s.easelIdle e = true)
include hlive he hidle

theorem State.easelGrantable : ¬ (¬ s.live = true ∨ 4 ≤ e ∨ ¬ s.easelIdle e = true) := by simp [hlive, he, hidle]

variable (hmove : s.sched.easelMove = [])
include hmove

theorem State.grantEasel_none (hnone : s.cands (fun r => s.readyEasel r e) = []) : s.grantEasel e = s := by
  rw [State.grantEasel, if_neg (State.easelGrantable hlive he hidle), State.easelMover_none hmove, hnone,
    State.arbitrate_nil]

/-- The first grant of an easel request: its computation begins with its first attempt. -/
theorem State.grantEasel_first {t : State} {c : Cand} {r : Req}
    (hcand : s.arbitrate 2 (s.cands (fun r => s.readyEasel r e)) = (t, some c)) (hreq : t.req c.id = some r)
    (hstarted : r.started = false) : s.grantEasel e = (t.firstGrant r []).1.placeComp (t.firstGrant r []).2 e 1 := by
  rw [State.grantEasel, if_neg (State.easelGrantable hlive he hidle), State.easelMover_none hmove, hcand]
  simp [hreq, hstarted]

end easelGrant

-- the statement ---------------------------------------------------------------------------------------------------------------

theorem exec_strokeGrant_lane (n : Nat) (s : State) : exec (.strokeGrant (.lane n)) s = .next (s.grantLane n).settle := rfl

theorem exec_strokeGrant_dig (e : Nat) (s : State) : exec (.strokeGrant (.dig e)) s = .next (s.grantDig e).settle := rfl

theorem exec_easelGrant (e : Nat) (s : State) : exec (.easelGrant e) s = .next (s.grantEasel e).settle := rfl

/-- Settles O51: each engine's grant with a candidate and without one. -/
theorem grantsStartWork : Obligations.GrantsStartWork := by
  refine ⟨fun s n hlive hin hidle hleaving => ⟨fun hnone => ?_, fun t c r hcand hreq =>
      ⟨fun hstarted hseal hpair hcomb => ⟨t.firstLane r n, ?_, ?_⟩, fun k hstarted hnext => ?_⟩⟩,
    fun s e hlive hfree => ⟨fun hnone => ?_, fun t c r hcand hreq hstarted => ⟨t.digStarted r e, ?_, t.digStarted_dig r e⟩⟩,
    fun s e hlive he hidle hmove => ⟨fun hnone => ?_, fun t c r hcand hreq hstarted => ?_⟩⟩
  · rw [exec_strokeGrant_lane, State.grantLane_none hlive hin hidle hleaving hnone]
  · rw [exec_strokeGrant_lane, State.grantLane_first hlive hin hidle hleaving hcand hreq hstarted]
  · exact State.firstLane_started hseal hpair (opCombined_eq_false hcomb) n
  · rw [exec_strokeGrant_lane, State.grantLane_next hlive hin hidle hleaving hcand hreq hstarted hnext]
  · rw [exec_strokeGrant_dig, State.grantDig_none hlive hfree hnone]
  · rw [exec_strokeGrant_dig, State.grantDig_first hlive hfree hcand hreq hstarted]
  · rw [exec_easelGrant, State.grantEasel_none hlive he hidle hmove hnone]
  · obtain ⟨x, hruns, hcomps, hid, hf, hattempt⟩ := (t.firstGrant r []).1.placeComp_begun (t.firstGrant r []).2 e 1
    simp only [State.firstGrant_id, State.firstGrant_f, State.firstGrant_easel] at hruns hcomps hid hf
    refine ⟨_, x, ?_, hruns, hcomps, hid, hf, hattempt⟩
    rw [exec_easelGrant, State.grantEasel_first hlive he hidle hmove hcand hreq hstarted]

end Sys2Proof.Machine
end

section
/-! PROOFS. The context table's control, key invalidation, and extensions of the gallery (R226, R227, R261, R320, R324). -/
namespace Sys2Proof.Machine

-- the context table -------------------------------------------------------------------------------------------------------------

theorem exec_ctxTableEnable (s : State) : exec .ctxTableEnable s = .next (s.mgmt (s.writeTableCtrl 0x80000000)).settle :=
  congrArg (fun t : State => Host.Outcome.next t.settle) (State.put_other nofun)

theorem exec_ctxTableDisable (s : State) : exec .ctxTableDisable s = .next (s.mgmt (s.writeTableCtrl 0)).settle :=
  congrArg (fun t : State => Host.Outcome.next t.settle) (State.put_other nofun)

theorem exec_genBump (s : State) : exec .genBump s = .next (s.mgmt (s.writeTableCtrl 0x10000)).settle :=
  congrArg (fun t : State => Host.Outcome.next t.settle) (State.put_other nofun)

/-- ENABLE is taken while the table is not busy (R227). -/
theorem State.writeTableCtrl_enable {s : State} (hdisabling : s.ctx.disabling = false) (hgen : s.ctx.genBusy = false) :
    s.writeTableCtrl 0x80000000 = some { s with ctx := { s.ctx with enable := true } } := by
  simp [State.writeTableCtrl, bitOf, hdisabling, hgen]

/-- GEN_BUMP is taken while the table is off and not busy (R226). -/
theorem State.writeTableCtrl_genBump {s : State} (hoff : s.ctx.enable = false) (hdisabling : s.ctx.disabling = false)
    (hgen : s.ctx.genBusy = false) : s.writeTableCtrl 0x10000 = some s.genAdvance := by
  simp [State.writeTableCtrl, bitOf, hoff, hdisabling, hgen]

theorem State.writeTableCtrl_genRefused {s : State} (hon : s.ctx.enable = true) : s.writeTableCtrl 0x10000 = none := by
  simp [State.writeTableCtrl, bitOf, hon]

theorem State.writeTableCtrl_disable {s : State} (hon : s.ctx.enable = true) : s.writeTableCtrl 0 = some s.tableDisable := by
  simp [State.writeTableCtrl, bitOf, hon]

/-- A GEN that has not reached its end is written to TLY[33] with its successor (R226). -/
theorem State.genAdvance_next {s : State} (h : s.gen ≠ 0xFFFF) :
    s.genAdvance = ({ s with ctx := { s.ctx with genBusy := true, genFail := false } } : State).tlyWrite 33
      (BitVec.ofNat 32 (s.gen + 1)) 2 [.gen] := by
  simp [State.genAdvance, h]

/-- A disable denies no request where none is in its checks (R227). -/
theorem State.tableDisable_noneChecking {s : State} (h : ∀ r ∈ s.reqs, r.stage ≠ .checking) :
    s.tableDisable = { s with ctx := { s.ctx with enable := false, disabling := true } } := by
  dsimp only [State.tableDisable]
  rw [List.filter_eq_nil_iff.mpr, List.foldl_nil]
  intro r hr
  simp [h r hr]

-- commands that set bit 31 ------------------------------------------------------------------------------------------------------

/-- INVAL and GO are bit 31 of their registers: a field below it is the operand's own. -/
theorem fld_or_bit31 (v : Word) {h : Nat} (hh : h < 31) (l : Nat) : fld (0x80000000 ||| v) h l = fld v h l := by
  have htop : (0x80000000 : Word).toNat = 2 ^ 31 := by decide
  refine Nat.eq_of_testBit_eq fun i => ?_
  simp only [fld, BitVec.toNat_or, htop, Nat.testBit_mod_two_pow, Nat.testBit_div_two_pow, Nat.testBit_or, Nat.testBit_two_pow]
  by_cases hi : i < h + 1 - l
  · have hbelow : 31 ≠ i + l := by omega
    simp [hbelow]
  · simp [hi]

theorem bitOf_or_bit31 (v : Word) {i : Nat} (hi : i < 31) : bitOf (0x80000000 ||| v) i = v.getLsbD i := by
  have htop : (0x80000000 : Word) = BitVec.twoPow 32 31 := by decide
  have hbelow : 31 ≠ i := by omega
  simp [bitOf, htop, hbelow]

-- key invalidation --------------------------------------------------------------------------------------------------------------

theorem exec_keyInvalidate (v : Word) (s : State) :
    exec (.keyInvalidate v) s = .next (s.mgmt (s.writeKlCtrl (0x80000000 ||| v))).settle :=
  congrArg (fun t : State => Host.Outcome.next t.settle) (State.put_other nofun)

/-- A legal tag is noted with the slot, or with every slot where ALL is 1 (R261). -/
theorem State.writeKlCtrl_taken {s : State} {v : Word} (htag : fld v 28 24 ≤ 16) (hidle : s.ctx.inval = none) :
    s.writeKlCtrl (0x80000000 ||| v) = some { s.store ⟨.klCtrl, 0, 0⟩ (0x80000000 ||| v) with
      ctx := { s.ctx with inval := some (fld v 28 24, if v.getLsbD 30 then none else some (fld v 11 0)) } } := by
  have htakes : ¬ (16 < fld v 28 24 ∨ s.ctx.inval.isSome = true) := by simp [htag, hidle]
  simp only [State.writeKlCtrl, fld_or_bit31 v (show 28 < 31 by decide), fld_or_bit31 v (show 11 < 31 by decide), if_neg htakes,
    bitOf_enable, bitOf_or_bit31 v (show 30 < 31 by decide)]
  rfl

theorem State.writeKlCtrl_refused {s : State} {v : Word} (h : 16 < fld v 28 24 ∨ s.ctx.inval ≠ none) :
    s.writeKlCtrl (0x80000000 ||| v) = none := by
  have hrefused : 16 < fld v 28 24 ∨ s.ctx.inval.isSome = true := h.imp_right Option.isSome_iff_ne_none.mpr
  simp only [State.writeKlCtrl, fld_or_bit31 v (show 28 < 31 by decide), if_pos hrefused]

/-- An invalidation of tag `tag` and of slot `slot`, or of every slot, names the entry of a key of tag `a` and slot `b` (R261). -/
def invalNames (tag : Nat) (slot : Option Nat) (lifted : Bool) (a b : Nat) : Bool :=
  lifted && a == tag && (slot == none || slot == some b)

/-- An invalidation drops the entries that it names from both caches, and ends (R261). -/
theorem State.invalidate_named {s : State} {tag : Nat} {slot : Option Nat} (h : s.ctx.inval = some (tag, slot)) :
    s.invalidate = { s with ctx := { s.ctx with
      inval := none
      keys := s.ctx.keys.filter (fun k => !invalNames tag slot k.lifted k.a k.b)
      hmac := s.ctx.hmac.filter (fun k => !invalNames tag slot k.lifted k.a k.b) } } := by
  cases slot with
  | none => simp [State.invalidate, h, invalNames]
  | some n => simp [State.invalidate, h, invalNames, BEq.comm (a := n)]

-- the gallery -------------------------------------------------------------------------------------------------------------------

theorem exec_galleryExtend (v : Word) (s : State) :
    exec (.galleryExtend v) s = .next (s.mgmt (s.writeGalExt (0x80000000 ||| v))).settle :=
  congrArg (fun t : State => Host.Outcome.next t.settle) (State.put_other nofun)

/-- The 64 bytes of GAL_EXT_DATA (R324). -/
def State.galStaged (s : State) : Bytes := (List.range 16).flatMap (fun j => natLE 4 (s.reg .galExtData 0 j).toNat)

/-- A legal extension with the staged data waits for a digest engine, and wakes the engines' island (R324). -/
theorem State.writeGalExt_taken {s : State} {v : Word} (hidle : s.gal.ext = []) (hsrc : v.getLsbD 28 = false)
    (hmin : 4 ≤ fld v 20 16) (hmax : fld v 20 16 ≤ 30) :
    s.writeGalExt (0x80000000 ||| v) = some (({ s.store ⟨.galExtCtrl, 0, 0⟩ (0x80000000 ||| v) with
      gal := { s.gal with ext := [(fld v 20 16, s.galStaged)] } } : State).islWake 9) := by
  have hindex : ¬ (fld v 20 16 < 4 ∨ 30 < fld v 20 16) := by omega
  have hstaged : bitOf (0x80000000 ||| v) 28 = false := (bitOf_or_bit31 v (by decide)).trans hsrc
  rw [State.writeGalExt, if_neg (not_not.mpr hidle), bitOf_enable, if_neg (not_not.mpr rfl), hstaged,
    fld_or_bit31 v (show 20 < 31 by decide)]
  exact if_neg hindex

theorem State.writeGalExt_refused {s : State} (h : s.gal.ext ≠ []) (v : Word) : s.writeGalExt v = none := if_pos h

@[simp] theorem State.digRun_gal (s : State) (e n c : Nat) : (s.digRun e n c).gal = s.gal := by
  simp only [State.digRun, State.addBusy_gal, State.digCount]
  split
  · rfl
  · simp

/-- An extension is counted up to the end of the 16-bit counter (R320). -/
theorem State.galExtend_count_self (s : State) (i : Nat) (x : Bytes) : (s.galExtend i x).galCount i = min (s.galCount i + 1) 0xFFFF := by
  have hcount : (s.galExtend i x).galCount i = satSucc 16 (s.galCount i) := tget_tset_self _ _ _ _
  rw [hcount, satSucc]
  split <;> omega

theorem State.galExtend_count_other (s : State) {i j : Nat} (x : Bytes) (h : j ≠ i) : (s.galExtend i x).galCount j = s.galCount j :=
  tget_tset_ne _ _ _ h

/-- A digest engine in service and idle is enough for one to be free. -/
theorem State.freeDig_exists {s : State} (h : ∃ e < 4, s.digIn e = true ∧ s.digIdle e = true) : ∃ e, s.freeDig = some e := by
  obtain ⟨e, he, hin, hidle⟩ := h
  refine Option.isSome_iff_exists.mp (List.find?_isSome.mpr ⟨e, List.mem_range.mpr he, ?_⟩)
  simp [hin, hidle]

/-- The state in which the extension at the head has left the queue for engine `e`: two compressions (R320). -/
def State.galHashed (s : State) (e : Nat) : State :=
  ({ s with gal := { s.gal with ext := [] } } : State).digRun e 2 (Halg.cycles .sha512)

@[simp] theorem State.galHashed_gal (s : State) (e : Nat) : (s.galHashed e).gal = { s.gal with ext := [] } := by
  simp [State.galHashed]

/-- What the hashing leaves of the gallery's values and counts: all of them. -/
theorem State.galHashed_frame (s : State) (e j : Nat) : (s.galHashed e).galVal j = s.galVal j ∧ (s.galHashed e).galCount j = s.galCount j := by
  simp [State.galVal, State.galCount]

/-- The one extension under way ends on a free engine (R320, R324). -/
theorem State.galDone_one {s : State} {i e : Nat} {x : Bytes} (hext : s.gal.ext = [(i, x)]) (hlive : s.live = true)
    (hfree : s.freeDig = some e) : s.galDone = (s.galHashed e).galExtend i x := by
  simp only [State.galDone, hext, if_neg (not_not.mpr hlive), hfree, State.galHashed]

theorem exec_galleryExtendComplete (s : State) : exec .galleryExtendComplete s = .next s.galDone.settle := rfl

/-- Settles O22: the writes do what their registers say, the invalidation filters both caches, and the extension that ends is one link
of the register's hash chain. -/
theorem contextTableKeyAndGalleryCommands : Obligations.ContextTableKeyAndGalleryCommands := by
  refine ⟨fun s v hopen => ⟨fun hdisabling hgen => ⟨?_, fun hoff hlast => ?_, fun hon => ?_⟩, fun hon hnone => ?_, fun htag hidle => ?_,
      fun hbusy => ?_, fun tag slot hinval => ?_, fun htag => ?_⟩,
    fun s v i x => ⟨fun hopen hidle hsrc hmin hmax => ?_, fun hopen hbusy => ?_, fun hext hlive _ _ hdig => ?_⟩⟩
  · rw [exec_ctxTableEnable, State.writeTableCtrl_enable hdisabling hgen, State.mgmt_some hopen]
  · rw [exec_genBump, State.writeTableCtrl_genBump hoff hdisabling hgen, State.mgmt_some hopen, State.genAdvance_next hlast]
  · rw [exec_genBump, State.writeTableCtrl_genRefused hon, State.mgmt_none hopen]
  · rw [exec_ctxTableDisable, State.writeTableCtrl_disable hon, State.mgmt_some hopen, State.tableDisable_noneChecking hnone]
  · rw [exec_keyInvalidate, State.writeKlCtrl_taken htag hidle, State.mgmt_some hopen, State.store]
    rfl
  · rw [exec_keyInvalidate, State.writeKlCtrl_refused (.inr hbusy), State.mgmt_none hopen]
  · rw [State.invalidate_named hinval]
    exact ⟨rfl, rfl, rfl, rfl⟩
  · rw [exec_keyInvalidate, State.writeKlCtrl_refused (.inl htag), State.mgmt_none hopen]
  · rw [exec_galleryExtend, State.writeGalExt_taken hidle hsrc hmin hmax, State.mgmt_some hopen, State.store, State.galStaged]
    rfl
  · rw [exec_galleryExtend, State.writeGalExt_refused hbusy, State.mgmt_none hopen]
  · obtain ⟨e, hfree⟩ := State.freeDig_exists hdig
    have hframe := s.galHashed_frame e
    refine ⟨(s.galHashed e).galExtend i x, ?_, ?_, ?_, fun j hj => ⟨?_, ?_⟩, ?_⟩
    · rw [exec_galleryExtendComplete, State.galDone_one hext hlive hfree]
    · rw [State.galExtend_self, (hframe i).1]
    · rw [State.galExtend_count_self, (hframe i).2]
    · rw [State.galExtend_other _ _ hj, (hframe j).1]
    · rw [State.galExtend_count_other _ _ hj, (hframe j).2]
    · simp [State.galExtend]

end Sys2Proof.Machine
end

section
/-! PROOFS. The counter controls of the lanes, digest engines and easels, and the lane group windows (R297, R298, R319, R400). -/
namespace Sys2Proof.Machine

-- what a counter control leaves -------------------------------------------------------------------------------------------------

/-- Among the registers at the same indexes a write changes only its own. -/
theorem State.setReg_reg_sameIndex (s : State) (n m : RegName) (i j : Nat) (v : Word) :
    (s.setReg n i j v).reg m i j = if m = n then v else s.reg m i j := by
  split
  · next h => rw [h, State.reg_setReg_self]
  · next h => exact s.reg_setReg_ne v fun hkey => h (regKey_name_injective i j hkey)

theorem State.zeroed_reg (l : List RegName) (s : State) (m : RegName) (i : Nat) :
    (l.foldl (fun (t : State) n => t.setReg n i 0 0) s).reg m i = if m ∈ l then 0 else s.reg m i := by
  induction l generalizing s with
  | nil => simp
  | cons n l ih => rw [List.foldl_cons, ih, State.setReg_reg_sameIndex]; grind

/-- CLEAR zeroes the counters of the unit, and the control itself holds FREEZE. -/
theorem State.cntCtrl_clear_reg (s : State) (c m : RegName) (i : Nat) {v : Word} (hclear : bitOf v 1 = true) :
    (s.cntCtrl c i v).reg m i = if m ∈ unitCounters c then 0 else if m = c then v &&& 1 else s.reg m i := by
  rw [State.cntCtrl, if_pos hclear]
  exact (State.zeroed_reg ..).trans (by rw [State.setReg_reg_sameIndex])

/-- The word that a clearing command writes. -/
theorem bitOf_clear (freeze : Bool) : bitOf (2 ||| flag freeze 0) 1 = true := by cases freeze <;> rfl

theorem freeze_of_clear (freeze : Bool) : (2 ||| flag freeze 0) &&& 1 = if freeze then 1 else 0 := by cases freeze <;> rfl

/-- A register whose write is that of a counter control is cleared by the word of a clearing command. -/
theorem State.put_clear {s : State} (h : s.Open) {c : RegName} {i : Nat} (freeze : Bool)
    (hwrite : s.writeReg ⟨c, i, 0⟩ (2 ||| flag freeze 0) = some (s.cntCtrl c i (2 ||| flag freeze 0)))
    (hname : c ≠ .tly) (hc : c ∉ unitCounters c) :
    ∃ u : State, (s.put ⟨c, i, 0⟩ (2 ||| flag freeze 0)).done = .next u.ok.settle ∧ u.reg c i = (if freeze then 1 else 0) ∧
      ∀ r ∈ unitCounters c, u.reg r i = 0 := by
  have hreg := fun m => s.cntCtrl_clear_reg c m i (bitOf_clear freeze)
  refine ⟨_, by rw [State.put_some h hname hwrite, State.done], ?_, fun r hr => ?_⟩
  · rw [hreg, if_neg hc, if_pos rfl, freeze_of_clear]
  · rw [hreg, if_pos hr]

-- the group windows -------------------------------------------------------------------------------------------------------------

theorem exec_laneGroupWrite (w : GroupWin) (off : BitVec 10) (v : Word) (s : State) :
    exec (.laneGroupWrite w off v) s = .next (s.regWrite (groupAddr w off.toNat) 2 v).settle := rfl

theorem exec_laneGroupRead (w : GroupWin) (off : BitVec 10) (s : State) :
    exec (.laneGroupRead w off) s = .next (s.regRead (groupAddr w off.toNat) 2).settle := rfl

/-- Offset 4 of a window is the counter control. -/
theorem regAt_groupControl (g : Fin 4) : groupAddr (.group g) (4 : BitVec 10).toNat % 4 = 0 ∧
    regAt (groupAddr (.group g) (4 : BitVec 10).toNat) = some ⟨.groupWin, g, 1⟩ := by
  revert g; decide

theorem regAt_broadcastControl : groupAddr .broadcast (4 : BitVec 10).toNat % 4 = 0 ∧
    regAt (groupAddr .broadcast (4 : BitVec 10).toNat) = some ⟨.bcastWin, 0, 1⟩ := by
  decide

/-- Offset 8 is the stroke count. -/
theorem regAt_groupStrokes (g : Fin 4) : groupAddr (.group g) (8 : BitVec 10).toNat % 4 = 0 ∧
    regAt (groupAddr (.group g) (8 : BitVec 10).toNat) = some ⟨.groupWin, g, 2⟩ := by
  revert g; decide

theorem State.members_group (s : State) (g : Fin 4) :
    s.members g = (List.range 9).filter (fun n => (s.reg .laneGroup 0 g).getLsbD n) := if_neg (by omega)

/-- A write at a mapped offset of a window is answered OK with its effect. -/
theorem exec_laneGroupWrite_mapped {s t : State} (h : s.Open) {w : GroupWin} {off : BitVec 10} {v : Word} {r : Reg}
    (hmap : groupAddr w off.toNat % 4 = 0 ∧ regAt (groupAddr w off.toNat) = some r) (hname : r.name ≠ .tly)
    (hwrite : s.writeReg r v = some t) : exec (.laneGroupWrite w off v) s = .next t.ok.settle := by
  rw [exec_laneGroupWrite, State.regWrite_mapped v hmap.1 hmap.2, State.put_some h hname hwrite]

/-- A read of the stroke count through a group window answers what the reading of the members gives. -/
theorem exec_groupStrokesRead {s t : State} (h : s.Open) (g : Fin 4) {v : Word} (hread : s.groupRead g 2 = (t, v)) (hblk : t.blk = s.blk) :
    exec (.laneGroupRead (.group g) 8) s = .next (t.respond 0 v).settle := by
  obtain ⟨halign, hr⟩ := regAt_groupStrokes g
  have hget : s.doRead ⟨.groupWin, g, 2⟩ = t.respond 0 v := State.doRead_answers h nofun nofun hread hblk
  rw [exec_laneGroupRead, State.regRead_mapped h halign hr, hget]

section groupRead
variable {s : State} {g : Nat} {n m : Nat}

theorem State.groupRead_none (hms : s.members g = []) (j : Nat) : s.groupRead g j = (s, 0) := by
  simp [State.groupRead, hms]

theorem State.groupRead_one (hms : s.members g = [n]) (j : Nat) :
    s.groupRead g j = (s, s.readVal ⟨laneRegs.getD j .laneStatus, n, 0⟩) := by
  simp [State.groupRead, hms]

/-- Two members that differ set the group's bit (R298). -/
theorem State.groupRead_differing (hms : s.members g = [n, m]) {j : Nat}
    (hne : s.readVal ⟨laneRegs.getD j .laneStatus, n, 0⟩ ≠ s.readVal ⟨laneRegs.getD j .laneStatus, m, 0⟩) :
    s.groupRead g j = (s.setReg .laneBcastDiff 0 0 (s.reg .laneBcastDiff ||| bit32 g),
      s.readVal ⟨laneRegs.getD j .laneStatus, n, 0⟩) := by
  simp only [State.groupRead, hms, List.map_cons, List.map_nil, List.all_cons, List.all_nil, Bool.and_true, beq_iff_eq, if_neg hne.symm]

end groupRead

/-- Settles O16: a clearing command writes its counter control; a group window writes the control of each member, and reads the members
by their number. -/
theorem counterControlsAndLaneGroups : Obligations.CounterControlsAndLaneGroups := by
  refine ⟨fun s freeze h => ⟨fun n _ => ?_, fun e _ => ?_, fun e _ => ?_⟩,
    fun s g v h => ⟨?_, exec_laneGroupWrite_mapped h regAt_broadcastControl nofun rfl, ?_⟩⟩
  · exact State.put_clear h freeze rfl nofun (by decide)
  · exact State.put_clear h freeze rfl nofun (by decide)
  · exact State.put_clear h freeze rfl nofun (by decide)
  · rw [← State.members_group]
    exact exec_laneGroupWrite_mapped h (regAt_groupControl g) nofun rfl
  · simp only [← State.members_group]
    refine ⟨fun n hms => ?_, fun n m hms hne => ?_, fun hms => ?_⟩
    · exact exec_groupStrokesRead h g (State.groupRead_one hms 2) rfl
    · exact exec_groupStrokesRead h g (State.groupRead_differing hms hne) (s.setReg_blk ..)
    · exact exec_groupStrokesRead h g (State.groupRead_none hms 2) rfl

end Sys2Proof.Machine
end

section
/-! PROOFS. The counter modes are their own inverses: the keystream depends on the length of the data alone, and covers it (R274, R275,
R277). -/
namespace Sys2Proof.Machine

-- byte strings ------------------------------------------------------------------------------------------------------------------

theorem xorBytes_length (a b : Bytes) : (xorBytes a b).length = min a.length b.length := List.length_zipWith

/-- A byte string that another covers is unchanged by masking it twice with it. -/
theorem xorBytes_twice {p k : Bytes} (h : p.length ≤ k.length) : xorBytes (xorBytes p k) k = p := by
  induction p generalizing k with
  | nil => rfl
  | cons x p ih =>
    cases k with
    | nil => simp at h
    | cons y k =>
      have htail : xorBytes (xorBytes p k) k = p := ih (by simpa using h)
      have hhead : x ^^^ y ^^^ y = x := by rw [BitVec.xor_assoc, BitVec.xor_self, BitVec.xor_zero]
      exact congrArg₂ List.cons hhead htail

/-- Masking with a keystream that the length of the data gives, and that covers it, is undone by doing it again. -/
theorem mask_twice {f : Bytes → Bytes} {k : Nat → Bytes} (hf : ∀ p, f p = xorBytes p (k p.length)) (hk : ∀ n, n ≤ (k n).length)
    (p : Bytes) : f (f p) = p := by
  have hlen : (f p).length = p.length := by rw [hf, xorBytes_length, min_eq_left (hk _)]
  rw [hf (f p), hlen, hf p, xorBytes_twice (hk _)]

theorem le_ceilDiv_mul (len : Nat) {n : Nat} (hn : 0 < n) : len ≤ ceilDiv len n * n := by
  have h := Nat.lt_div_mul_add (a := len + n - 1) hn
  rw [ceilDiv]
  omega

theorem flatMap_length_of_all {α : Type} {l : List α} {f : α → Bytes} {n : Nat} (h : ∀ x ∈ l, (f x).length = n) :
    (l.flatMap f).length = l.length * n := by
  rw [List.length_flatMap, List.map_congr_left h, List.map_const', List.sum_replicate, smul_eq_mul]

/-- Cutting `k` whole pieces gives `k` pieces of `n` bytes. -/
theorem chunksF_whole {n : Nat} (hn : 0 < n) (k fuel : Nat) (b : Bytes) (hb : b.length = k * n) (hfuel : k ≤ fuel) :
    (chunksF n fuel b).length = k ∧ ∀ c ∈ chunksF n fuel b, c.length = n := by
  induction k generalizing fuel b with
  | zero =>
    have hnil : b = [] := List.eq_nil_of_length_eq_zero (by omega)
    subst hnil
    cases fuel <;> simp [chunksF]
  | succ k ih =>
    obtain ⟨fuel, rfl⟩ : ∃ f, fuel = f + 1 := ⟨fuel - 1, by omega⟩
    have hlen : b.length = k * n + n := by rw [hb, Nat.succ_mul]
    have hne : b ≠ [] := List.ne_nil_of_length_pos (by omega)
    have hcut : chunksF n (fuel + 1) b = b.take n :: chunksF n fuel (b.drop n) := by
      rw [chunksF]; exact hne
    obtain ⟨hcount, hall⟩ := ih fuel (b.drop n) (by rw [List.length_drop]; omega) (by omega)
    rw [hcut]
    refine ⟨by rw [List.length_cons, hcount], List.forall_mem_cons.mpr ⟨?_, hall⟩⟩
    rw [List.length_take]; omega

theorem chunks_whole {n k : Nat} (hn : 0 < n) {b : Bytes} (hb : b.length = k * n) :
    (chunks n b).length = k ∧ ∀ c ∈ chunks n b, c.length = n :=
  chunksF_whole hn k b.length b hb (hb ▸ Nat.le_mul_of_pos_right k hn)

-- an AES block ------------------------------------------------------------------------------------------------------------------

theorem keyWord_length (nk i : Nat) (rcon : Byte) {prev back : Bytes} (hprev : prev.length = 4) (hback : back.length = 4) :
    (keyWord nk i rcon prev back).length = 4 := by
  rw [keyWord, xorBytes_length]
  split
  · simp [xorBytes_length, hprev, hback]
  · split <;> simp [hprev, hback]

/-- The expansion adds one word of four bytes for each step. -/
theorem expandF_words {nk : Nat} (hnk : 0 < nk) (n i : Nat) (rcon : Byte) (ws : List Bytes) (hcount : nk ≤ ws.length)
    (hws : ∀ w ∈ ws, w.length = 4) :
    (expandF nk n i rcon ws).length = ws.length + n ∧ ∀ w ∈ expandF nk n i rcon ws, w.length = 4 := by
  induction n generalizing i rcon ws with
  | zero => exact ⟨rfl, hws⟩
  | succ n ih =>
    have hword : ∀ k < nk, (ws.getD k []).length = 4 := fun k hk => by
      rw [List.getD_eq_getElem _ _ (by omega)]; exact hws _ (List.getElem_mem _)
    have hnew := keyWord_length nk i rcon (hword 0 hnk) (hword (nk - 1) (by omega))
    obtain ⟨hlen, hall⟩ := ih (i + 1) (if i % nk = 0 then gfDouble rcon else rcon) (_ :: ws)
      (by rw [List.length_cons]; omega) (List.forall_mem_cons.mpr ⟨hnew, hws⟩)
    exact ⟨by rw [expandF, hlen, List.length_cons]; omega, hall⟩

/-- The lengths of an AES key (R264). -/
def AesKey (key : Bytes) : Prop := key.length = 16 ∨ key.length = 24 ∨ key.length = 32

/-- An AES key expands to more than one round key, each of 16 bytes. -/
theorem roundKeys_whole {key : Bytes} (h : AesKey key) : 1 < (roundKeys key).length ∧ ∀ k ∈ roundKeys key, k.length = 16 := by
  obtain ⟨nk, hnk, hkey⟩ : ∃ nk, 0 < nk ∧ key.length = nk * 4 := by
    rcases h with h | h | h
    exacts [⟨4, by omega, h⟩, ⟨6, by omega, h⟩, ⟨8, by omega, h⟩]
  obtain ⟨hcount, hchunk⟩ := chunks_whole (by omega) hkey
  obtain ⟨hlen, hall⟩ := expandF_words hnk (4 * (nk + 7) - nk) nk 1 (chunks 4 key).reverse (by simp [hcount]) (by simpa using hchunk)
  have hflat : ((expandF nk (4 * (nk + 7) - nk) nk 1 (chunks 4 key).reverse).reverse.flatten).length = (nk + 7) * 16 := by
    rw [← List.flatMap_id, flatMap_length_of_all (n := 4) (by simpa using hall), List.length_reverse, hlen, List.length_reverse, hcount]
    omega
  obtain ⟨hrounds, hround⟩ := chunks_whole (by omega) hflat
  have hdiv : key.length / 4 = nk := by omega
  rw [roundKeys, hdiv]
  exact ⟨by rw [hrounds]; omega, hround⟩

theorem shiftRows_length (inv : Bool) (s : Bytes) : (shiftRows inv s).length = 16 := by simp [shiftRows]

/-- Encryption gives a whole block. -/
theorem aesEncRK_length {key : Bytes} (h : AesKey key) (b : Bytes) : (aesEncRK (roundKeys key) b).length = 16 := by
  obtain ⟨hcount, hall⟩ := roundKeys_whole h
  match hrk : roundKeys key with
  | [] => simp [hrk] at hcount
  | k0 :: rest =>
    rw [hrk] at hcount hall
    have hne : rest ≠ [] := List.ne_nil_of_length_pos (by simpa using hcount)
    have hlast : (rest.getLastD []).length = 16 := by
      rw [List.getLastD_eq_getLast?, List.getLast?_eq_some_getLast hne]
      exact hall _ (List.mem_cons_of_mem _ (List.getLast_mem hne))
    rw [aesEncRK, xorBytes_length, shiftRows_length, hlast, min_self]

-- CTR and GCM -------------------------------------------------------------------------------------------------------------------

theorem ctrStream_length {key : Bytes} (h : AesKey key) (w : Nat) (blk : Bytes) (j n : Nat) :
    (ctrStream key w blk j n).length = n * 16 := by
  rw [ctrStream, flatMap_length_of_all (fun _ _ => aesEncRK_length h _), List.length_range]

theorem ctrAt_twice {key : Bytes} (h : AesKey key) (w : Nat) (blk p : Bytes) : ctrAt key w blk 0 (ctrAt key w blk 0 p) = p := by
  refine mask_twice (f := ctrAt key w blk 0) (k := fun n => ctrStream key w blk 0 (ceilDiv n 16)) (fun p => ?_) (fun n => ?_) p
  · simp [ctrAt]
  · rw [ctrStream_length h]; exact le_ceilDiv_mul n (by omega)

theorem Req.text_gcm {r : Req} (hop : dOp r.d = 0x18 ∨ dOp r.d = 0x19) (p : Bytes) : r.text p = gcmCtr (r.key 0) r.nonce 0 p := by
  rcases hop with hop | hop <;> simp [Req.text, hop]

-- ChaCha20 ----------------------------------------------------------------------------------------------------------------------

@[simp] theorem quarter_length (s : List Nat) (a b c d : Nat) : (quarter s a b c d).length = s.length := by simp [quarter]

@[simp] theorem chachaDouble_length (s : List Nat) : (chachaDouble s).length = s.length := by simp [chachaDouble]

theorem repeat_chachaDouble_length (n : Nat) (s : List Nat) : (Nat.repeat chachaDouble n s).length = s.length := by
  induction n with
  | zero => rfl
  | succ n ih => rw [Nat.repeat, chachaDouble_length, ih]

/-- Four constants, eight words of the key, the counter and three words of the nonce make a block of 64 bytes. -/
theorem chachaBlock_length {key nonce : Bytes} (hkey : key.length = 32) (hnonce : nonce.length = 12) (c : Nat) :
    (chachaBlock key nonce c).length = 64 := by
  have hwords : (chunks 4 key).length = 8 := (chunks_whole (by omega) (k := 8) hkey).1
  have hnonceWords : (chunks 4 nonce).length = 3 := (chunks_whole (by omega) (k := 3) hnonce).1
  rw [chachaBlock, flatMap_length_of_all (fun x _ => natLE_length 4 x), List.length_zipWith, repeat_chachaDouble_length]
  simp [hwords, hnonceWords]

theorem chachaAt_twice {key nonce : Bytes} (hkey : key.length = 32) (hnonce : nonce.length = 12) (c : Nat) (p : Bytes) :
    chachaAt key nonce c 0 (chachaAt key nonce c 0 p) = p := by
  refine mask_twice (f := chachaAt key nonce c 0)
    (k := fun n => (List.range (ceilDiv n 64)).flatMap (fun i => chachaBlock key nonce (c + i))) (fun p => ?_) (fun n => ?_) p
  · simp [chachaAt]
  · rw [flatMap_length_of_all (fun _ _ => chachaBlock_length hkey hnonce _), List.length_range]
    exact le_ceilDiv_mul n (by omega)

/-- Settles O49: both keystreams cover their data; GCM is CTR from the block after the pre-counter block. -/
theorem counterModesDecryptWhatTheyEncrypt : Obligations.CounterModesDecryptWhatTheyEncrypt := by
  refine ⟨fun key blk p wd h => ctrAt_twice h wd blk p, fun key nonce p c hkey hnonce => chachaAt_twice hkey hnonce c p,
    fun r q p hkey hsame hnonce henc hdec => ?_⟩
  rw [Req.text_gcm (.inl henc), Req.text_gcm (.inr hdec), hsame, hnonce]
  exact ctrAt_twice hkey 32 _ p

end Sys2Proof.Machine
end

section
/-! PROOFS. The digest operations: the row of an operation computes the output of the stroke that a digest engine holds, a whole hash ends
in the algorithm's digest, and whole blocks may be absorbed in parts (R299, R308 to R311, R313 to R315; log entry 10). -/
namespace Sys2Proof.Machine

-- the rows --------------------------------------------------------------------------------------------------------------------

/-- The rows of the digest operations with their operation codes. -/
def digestRows (id : Nat) : List (Instr × Nat) :=
  [(.hash id, 0x30), (.hashPartial id, 0x31), (.hmac id, 0x32), (.hmacVerify id, 0x33), (.hmacPartial id, 0x34)]

/-- Every digest operation is the computation of its code. -/
theorem exec_digestRow (s : State) (id : Nat) :
    ∀ p ∈ digestRows id, exec p.1 s = .next (s.compute p.2 id).settle ∧ opDigest p.2 = true := by
  simp only [digestRows, List.forall_mem_cons, List.not_mem_nil, false_implies, implies_true, and_true]
  and_intros <;> rfl

/-- An engine whose stroke waits for its output does not stay as it is. -/
theorem State.strokeComputed_changes {s : State} {id : Nat} {r : Req} {x : Eng} {w : Run} (hrun : x.run = some w) (hid : w.id = id)
    (hsrc : w.src ≠ none) (hout : w.out = none) : s.strokeComputed id r x ≠ x := by
  rw [State.strokeComputed_due hrun hid hsrc hout]
  intro hsame
  have hrunSame := (congrArg Eng.run hsame).trans hrun
  simpa [hout] using congrArg Run.out (Option.some_injective _ hrunSame)

/-- The row of a digest operation gives its output to the stroke of digest engine `e`, the only one of the request that waits for it. -/
theorem State.compute_onlyOnDig {s : State} {op id e : Nat} {r : Req} {w : Run} (hreq : s.req id = some r) (hop : dOp r.d = op)
    (hdig : opDigest op = true) (hlive : s.live = true) (hclk : s.clkOk 5 = true) (he : e < 4) (hrun : (s.dig e).run = some w)
    (hid : w.id = id) (hsrc : w.src ≠ none) (hout : w.out = none) (hlanes : ∀ m < 9, ∀ v, (s.lane m).run = some v → v.id ≠ id)
    (hdigs : ∀ m < 4, m ≠ e → ∀ v, (s.dig m).run = some v → v.id = id → v.out ≠ none) :
    s.compute op id = s.setDig e { s.dig e with run := some { w with out := some (s.strokeOut r w.k) } } := by
  have hlaneSame : ∀ m ∈ List.range 9, s.strokeComputed id r (s.lane m) = s.lane m := fun m hm =>
    State.strokeComputed_same (fun v hv hvid => absurd hvid (hlanes m (List.mem_range.mp hm) v hv))
  have hdigSame : ∀ m ∈ List.range 4, m ≠ e → s.strokeComputed id r (s.dig m) = s.dig m := fun m hm hne =>
    State.strokeComputed_same (hdigs m (List.mem_range.mp hm) hne)
  rw [State.compute_running hreq hop hlive (by simpa [hdig] using hclk),
    foldl_of_steps_idle s (fun m hm t => if_pos (hlaneSame m hm)),
    foldl_of_one_step (n := e) s List.nodup_range (List.mem_range.mpr he) (fun m hm hne t => if_pos (hdigSame m hm hne)),
    if_neg (State.strokeComputed_changes hrun hid hsrc hout), State.strokeComputed_due hrun hid hsrc hout]

-- a whole hash ------------------------------------------------------------------------------------------------------------------

/-- A HASH without continuation and pad check ends in the digest of its source: 32 bytes in RESULT, a longer one at AUX (R308). -/
theorem Req.digFinish_hash {r : Req} {a : Halg} (hop : dOp r.d = 0x30) (hcont : dCont r.d = false) (hpad : dPadCheck r.d = false)
    (halg : Halg.ofCode (dHalg r.d) = some a) (hshake : a.isShake = false) :
    r.digFinish
      = { result := (a.output a.digest (a.absorb a.init r.source)).take 32
          aux := if 32 < a.digest then a.output a.digest (a.absorb a.init r.source) else []
          latch := some (a.output a.digest (a.absorb a.init r.source)) } := by
  simp [Req.digFinish, hashFinish, hop, hcont, hpad, halg, hshake]

-- a continued hash --------------------------------------------------------------------------------------------------------------

/-- Any fuel that covers the data cuts it into the same pieces. -/
theorem chunksF_eq_chunks {n : Nat} (hn : 0 < n) (fuel : Nat) (b : Bytes) (h : b.length ≤ fuel) : chunksF n fuel b = chunks n b := by
  suffices hany : ∀ f g b, b.length ≤ f → b.length ≤ g → chunksF n f b = chunksF n g b from hany fuel b.length b h le_rfl
  intro f
  induction f with
  | zero =>
    intro g b hf _
    obtain rfl : b = [] := List.eq_nil_of_length_eq_zero (by omega)
    cases g <;> rfl
  | succ f ih =>
    intro g b hf hg
    cases b with
    | nil => cases g <;> rfl
    | cons x b =>
      obtain ⟨g, rfl⟩ : ∃ g', g = g' + 1 := ⟨g - 1, by rw [List.length_cons] at hg; omega⟩
      have hrest : ((x :: b).drop n).length ≤ b.length := by rw [List.length_drop, List.length_cons]; omega
      rw [List.length_cons] at hf hg
      exact congrArg ((x :: b).take n :: ·) (ih g ((x :: b).drop n) (by omega) (by omega))

/-- The first piece of data that is not empty, and the pieces of the rest. -/
theorem chunks_of_ne_nil {n : Nat} (hn : 0 < n) {b : Bytes} (hb : b ≠ []) : chunks n b = b.take n :: chunks n (b.drop n) := by
  cases b with
  | nil => exact absurd rfl hb
  | cons x b =>
    have hrest : ((x :: b).drop n).length ≤ b.length := by rw [List.length_drop, List.length_cons]; omega
    exact congrArg ((x :: b).take n :: ·) (chunksF_eq_chunks hn b.length _ hrest)

/-- Data behind whole pieces is cut as it is alone. -/
theorem chunks_append_whole {n : Nat} (hn : 0 < n) (k : Nat) (x y : Bytes) (hx : x.length = k * n) :
    chunks n (x ++ y) = chunks n x ++ chunks n y := by
  induction k generalizing x with
  | zero =>
    obtain rfl : x = [] := List.eq_nil_of_length_eq_zero (by omega)
    rfl
  | succ k ih =>
    have hlen : x.length = k * n + n := by rw [hx, Nat.succ_mul]
    have hne : x ≠ [] := List.ne_nil_of_length_pos (by omega)
    rw [chunks_of_ne_nil hn hne, chunks_of_ne_nil hn (List.append_ne_nil_of_left_ne_nil hne y),
      List.take_append_of_le_length (by omega), List.drop_append_of_le_length (by omega),
      ih (x.drop n) (by rw [List.length_drop]; omega), List.cons_append]

theorem Halg.block_pos (a : Halg) : 0 < a.block := by cases a <;> decide

/-- Whole blocks absorbed first leave the state from which the rest leads to the state of both together (R310, R311). -/
theorem Halg.absorb_append (a : Halg) (st x y : Bytes) (hx : x.length % a.block = 0) :
    a.absorb st (x ++ y) = a.absorb (a.absorb st x) y := by
  have hwhole : x.length = x.length / a.block * a.block := (Nat.div_mul_cancel (Nat.dvd_of_mod_eq_zero hx)).symm
  simp only [Halg.absorb, chunks_append_whole a.block_pos _ x y hwhole, List.filter_append, List.foldl_append]

/-- Settles O50: the row computes on the one digest engine that waits for it; a hash ends in its digest; absorbing splits at whole blocks. -/
theorem digestOperationsComputeTheirStroke : Obligations.DigestOperationsComputeTheirStroke := by
  refine ⟨fun s id e r w hlive hclk he hreq hrun hid hsrc hout hlanes hdigs p hp hop => ?_,
    fun r a hop hcont hpad halg hshake => ?_, fun a st x y hx => (a.absorb_append st x y hx).symm⟩
  · obtain ⟨hexec, hdig⟩ := exec_digestRow s id p hp
    rw [hexec, State.compute_onlyOnDig hreq hop hdig hlive hclk he hrun hid hsrc hout hlanes hdigs]
  · rw [Req.digFinish_hash hop hcont hpad halg hshake]
    exact ⟨rfl, rfl, rfl⟩

end Sys2Proof.Machine
end

section
/-! PROOFS. YIELD and END of the sketch processor (R387, R413, R432, R433, R436). -/
namespace Sys2Proof.Machine

/-- END's cycles: 8 and its checkpoint (R413, R433). -/
def Comp.endCost (c : Comp) (s : State) (i : Nat) : Nat := 8 + c.ckptCost (LibEntry.of (libEntryB s.tables.library i))

/-- YIELD's cycles: the landing of the products in flight, 20, and its checkpoint (R413, R422, R433). -/
def Comp.yieldCost (c : Comp) (s : State) (i : Nat) : Nat :=
  c.landWait + 20 + c.ckptCost (LibEntry.of (libEntryB s.tables.library i))

section atWord
variable {s : State} {e : Nat} {g : BitVec 4} {c : Comp} {r : Req} {i : Nat}

/-- YIELD within its limits: the products in flight land, the computation goes on to the next word and is held (R422, R432). -/
theorem exec_skYield_fits (hat : s.AtWord e g (skWord g 0x02 0) c r i)
    (hfits : s.Fits c i (c.yieldCost s i) (c.yieldCost s i) ((c.pc + 1) % 0x10000)) :
    exec (.skYield e g true) s = .next ((s.ran e (c.yieldCost s i) c c.landAll).skYielded e c.id).settle := by
  have hpc : c.landAll.step.pc = (c.pc + 1) % 0x10000 := congrArg (fun pc => (pc + 1) % 0x10000) c.landAll_pc
  rw [← hpc] at hfits
  have hgo := State.skGo_next (e := e) (r := r) (k := fun t => t.skYielded e c.id) hfits
  calc exec (.skYield e g true) s
      = .next (s.skGo e r (s.skEnv r i) c (c.yieldCost s i) (c.yieldCost s i) (.next c.landAll.step)
          (fun t => t.skYielded e c.id)).settle := congrArg State.done (State.skAt_at hat)
    _ = _ := by rw [hgo, State.ran, Comp.after, Comp.step, c.landAll_pc]

/-- END with an outcome that R436 admits, within the yield limit: the outcome is committed. -/
theorem exec_skEnd_admitted (hat : s.AtWord e g (skWord g 0x01 0) c r i) (hcheck : c.endCheck (s.skEnv r i) = none)
    (hlimit : c.run + c.endCost s i ≤ s.yieldLimit) :
    exec (.skEnd e g true) s = .next ((s.addBusy (13 + e) (c.endCost s i)).endEasel e r c.endFinish).settle := by
  refine (congrArg State.done (State.skAt_at hat)).trans ?_
  simp only [hcheck]
  exact congrArg State.done (if_neg (Nat.not_lt.mpr hlimit))

end atWord

section popped
variable {c : Comp} {t : List Limb} {n d code : Limb}

/-- Three words stand on the stack: the outcome passes END's check where each of them is within its bound (R436). -/
theorem Comp.endCheck_none {v : SkEnv} (hdepth : c.stack.length ≤ 32) (hstack : c.stack = code :: d :: n :: t)
    (hcode : code.toNat ≤ 2) (hd : d.toNat ≤ 0xFFFF) (hout : n.toNat ≤ v.lib.outMax) (hseg : n.toNat ≤ (c.segs.getD 1 {}).size) :
    c.endCheck v = none := by
  have hpops : c.depthCheck 3 0 = none := Comp.depthCheck_ok (by simp [hstack]) (by omega)
  have hgood : ¬ (2 < code.toNat ∨ 0xFFFF < d.toNat ∨ v.lib.outMax < n.toNat ∨ (c.segs.getD 1 {}).size < n.toNat) := by omega
  simp only [Comp.endCheck, hpops, Comp.top, hstack, List.getD_cons_zero, List.getD_cons_succ, if_neg hgood, firstFault]

/-- The outcome that END pops: the status by the code, DETAIL, and the first bytes of segment 1 (R436). -/
theorem Comp.endFinish_popped (hstack : c.stack = code :: d :: n :: t) :
    c.endFinish = { status := if code.toNat = 0 then stOk else if code.toNat = 1 then stVerifyFail else stInputReject
                    detail := d.toNat, dst := ((c.segs.getD 1 {}).bytes).take n.toNat
                    result := (((c.segs.getD 1 {}).bytes).take n.toNat).take 32 } := by
  have hzero : code = 0 ↔ code.toNat = 0 := BitVec.toNat_inj.symm
  have hone : code = 1 ↔ code.toNat = 1 := BitVec.toNat_inj.symm
  simp only [Comp.endFinish, Comp.top, hstack, List.getD_cons_zero, List.getD_cons_succ, hzero, hone]

end popped

/-- Settles O13: YIELD runs to the next word and is held there; END's pops pass its check and are the outcome that is committed. -/
theorem sketchYieldAndEnd : Obligations.SketchYieldAndEnd := by
  refine fun s e g c r i t n d code hdepth => ⟨exec_skYield_fits, fun hat hstack hcode hd hout hseg hlimit => ?_⟩
  rw [← Comp.endFinish_popped hstack]
  exact exec_skEnd_admitted hat (Comp.endCheck_none hdepth hstack hcode hd hout hseg) hlimit

end Sys2Proof.Machine
end

section
/-! PROOFS. What the sketch instructions share: the entries on top of the stack, and address words (R407, R414). -/
namespace Sys2Proof.Machine

theorem Comp.top_zero {c : Comp} {x : Limb} {t : List Limb} (h : c.stack = x :: t) : c.top 0 = x := by simp [Comp.top, h]
theorem Comp.top_one {c : Comp} {x y : Limb} {t : List Limb} (h : c.stack = y :: x :: t) : c.top 1 = x := by simp [Comp.top, h]
theorem Comp.top_two {c : Comp} {x y z : Limb} {t : List Limb} (h : c.stack = z :: y :: x :: t) : c.top 2 = x := by
  simp [Comp.top, h]

/-- An address word with its upper bits clear splits into segment and limb (R407). -/
theorem addrWord_split {a : Limb} {k o : Nat} (ha : a.toNat = k * 0x10000 + o) (hk : k < 16) (ho : o < 0x10000) :
    addrWord a = some (k, o) := by
  have hlow : a.toNat < 2 ^ 20 := by omega
  have hseg : a.toNat / 0x10000 = k := by omega
  have hlimb : a.toNat % 0x10000 = o := by omega
  simp only [addrWord, if_pos hlow, hseg, hlimb]

/-- The check by an address word is the check of the segment and limb it names. -/
theorem Comp.addrCheck_of_addrWord {c : Comp} {a : Limb} {k o n : Nat} {write : Bool} (ha : addrWord a = some (k, o)) :
    c.addrCheck a n write = c.plainCheck k o n write := by simp only [Comp.addrCheck, ha]

@[simp] theorem Comp.putBytes_pc (c : Comp) (k off : Nat) (b : Bytes) : (c.putBytes k off b).pc = c.pc := rfl

end Sys2Proof.Machine
end

section
/-! PROOFS. COPY of the sketch processor (R413, R418). -/
namespace Sys2Proof.Machine

@[simp] theorem copyF_pc (ks os kd od n : Nat) (c : Comp) : (copyF ks os kd od n c).pc = c.pc := by
  induction n generalizing os od c with
  | zero => rfl
  | succ n ih => exact ih ..

/-- COPY's recursion is one pass over its limbs in rising order. -/
theorem copyF_eq_foldl (ks os kd od n : Nat) (c : Comp) :
    copyF ks os kd od n c = (List.range n).foldl
      (fun (x : Comp) j => x.putBytes kd (od + j) (natLE 8 (x.limb ks (os + j)).toNat)) c := by
  induction n generalizing os od c with
  | zero => rfl
  | succ n ih =>
    simp only [copyF, ih, List.range_succ_eq_map, List.foldl_cons, List.foldl_map, Nat.add_zero, Nat.succ_eq_add_one,
      Nat.add_assoc, Nat.add_comm 1]

section popped
variable {c : Comp} {t : List Limb} {n src dst : Limb} (hdepth : c.stack.length ≤ 32) (hstack : c.stack = n :: dst :: src :: t)
include hdepth hstack

/-- COPY of some limbs, both ranges of which pass their check. -/
theorem Comp.copy_limbs {ks os kd od : Nat} (hn : n ≠ 0) (hsrc : addrWord src = some (ks, os)) (hdst : addrWord dst = some (kd, od))
    (hread : c.plainCheck ks os n.toNat false = none) (hwrite : c.plainCheck kd od n.toNat true = none) :
    c.copy = .next { copyF ks os kd od n.toNat c with stack := t } := by
  have hpops : c.depthCheck 3 0 = none := Comp.depthCheck_ok (by simp [hstack]) (by omega)
  have hsome : n.toNat ≠ 0 := fun h => hn (BitVec.eq_of_toNat_eq h)
  simp [Comp.copy, Comp.top_zero hstack, Comp.top_one hstack, Comp.top_two hstack, hstack, hpops, hsome,
    Comp.addrCheck_of_addrWord hsrc, Comp.addrCheck_of_addrWord hdst, hread, hwrite, hsrc, hdst, firstFault, SkRes.unless]

/-- COPY of no limb only pops, whatever the address words are. -/
theorem Comp.copy_nothing (hn : n = 0) : c.copy = .next { c with stack := t } := by
  have hpops : c.depthCheck 3 0 = none := Comp.depthCheck_ok (by simp [hstack]) (by omega)
  simp [Comp.copy, Comp.top_zero hstack, Comp.top_one hstack, Comp.top_two hstack, hstack, hpops, hn, copyF, firstFault, SkRes.unless]

end popped

/-- COPY goes on to the next word after its cycles, 2 and one for each limb. -/
theorem exec_skCopy {s : State} {e : Nat} {g : BitVec 4} {c c' : Comp} {r : Req} {i cost : Nat}
    (hat : s.AtWord e g (skWord g 0x45 0) c r i) (hcost : 2 + (c.top 0).toNat = cost) (hcopy : c.copy = .next c')
    (hpc : c'.pc = c.pc) (hfits : s.Fits c i cost cost ((c.pc + 1) % 0x10000)) :
    exec (.skCopy e g) s = .next (s.ran e cost c c').settle :=
  congrArg State.done (State.skPlain_next hat hfits hcopy hpc hcost)

/-- Settles O8: the words name the limbs, and the recursion over them is the pass in rising order. -/
theorem sketchCopyMovesLimbsInRisingOrder : Obligations.SketchCopyMovesLimbsInRisingOrder := by
  refine fun s e g c r i t src dst hat hdepth => ⟨fun n ks os kd od hstack hn hsrc hdst hks hkd hos hod hread hwrite hfits => ?_,
    fun hstack hfits => exec_skCopy hat (by rw [Comp.top_zero hstack]; rfl) (Comp.copy_nothing hdepth hstack rfl) rfl hfits⟩
  rw [← copyF_eq_foldl]
  exact exec_skCopy hat (by rw [Comp.top_zero hstack])
    (Comp.copy_limbs hdepth hstack hn (addrWord_split hsrc hks hos) (addrWord_split hdst hkd hod) hread hwrite)
    (copyF_pc ..) hfits

end Sys2Proof.Machine
end

section
/-! PROOFS. The inverse modulo a number that the glaze unit computes (R426): the extended Euclid of `modInv` ends within its fuel, and
answers the inverse exactly where there is one. -/
namespace Sys2Proof.Machine

/-- A number has no more bits than `bitLen` counts. -/
theorem lt_two_pow_bitLen (n : Nat) : n < 2 ^ bitLen n := by
  unfold bitLen
  split
  · omega
  · exact Nat.lt_log2_self

/-- Two divisions halve the smaller number, so the gcd is reached within twice its bits. -/
theorem egcdF_gcd (k : Nat) {fuel r0 r1 : Nat} {s0 s1 : Int} (hr : r1 < 2 ^ k) (hfuel : 2 * k ≤ fuel) :
    (egcdF fuel r0 r1 s0 s1).1 = Nat.gcd r0 r1 := by
  induction k generalizing fuel r0 r1 s0 s1 with
  | zero =>
    obtain rfl : r1 = 0 := by omega
    cases fuel <;> simp [egcdF]
  | succ k ih =>
    obtain ⟨fuel, rfl⟩ : ∃ f, fuel = f + 2 := ⟨fuel - 2, by omega⟩
    rw [egcdF]
    split
    · next h => simp [h]
    next hr1 =>
    rw [Nat.gcd_comm, Nat.gcd_rec, egcdF]
    split
    · next h => simp [h]
    next hr2 =>
    have hle : r0 % r1 ≤ r1 := (Nat.mod_lt r0 (Nat.pos_of_ne_zero hr1)).le
    have hhalf : r1 % (r0 % r1) < 2 ^ k := by
      have hlt : r1 % (r0 % r1) < r0 % r1 := Nat.mod_lt _ (Nat.pos_of_ne_zero hr2)
      have hsub : r1 % (r0 % r1) ≤ r1 - r0 % r1 := by
        rw [Nat.mod_eq_sub_mod hle]
        exact Nat.mod_le ..
      omega
    rw [ih hhalf (by omega), Nat.gcd_comm, ← Nat.gcd_rec]

/-- Extended Euclid keeps both remainders multiples of `a` by their coefficients, so its answer is one. -/
theorem egcdF_modEq {m a : Int} (fuel : Nat) {r0 r1 : Nat} {s0 s1 : Int} (h0 : r0 ≡ s0 * a [ZMOD m]) (h1 : r1 ≡ s1 * a [ZMOD m]) :
    (egcdF fuel r0 r1 s0 s1).1 ≡ (egcdF fuel r0 r1 s0 s1).2 * a [ZMOD m] := by
  induction fuel generalizing r0 r1 s0 s1 with
  | zero => exact h0
  | succ fuel ih =>
    rw [egcdF]
    split
    · exact h0
    refine ih h1 ?_
    have hmod : ((r0 % r1 : Nat) : Int) = r0 - (r0 / r1 : Nat) * r1 := by
      rw [eq_sub_iff_add_eq]
      exact_mod_cast Nat.mod_add_div' r0 r1
    calc ((r0 % r1 : Nat) : Int) = r0 - (r0 / r1 : Nat) * r1 := hmod
      _ ≡ s0 * a - (r0 / r1 : Nat) * (s1 * a) [ZMOD m] := h0.sub (h1.mul_left _)
      _ = (s0 - (r0 / r1 : Nat) * s1) * a := by ring

/-- What `modInv` answers is an inverse, below the modulus. -/
theorem modInv_sound {a m v : Nat} (hm : 1 < m) (h : modInv a m = some v) : v < m ∧ v * a % m = 1 := by
  have hpos : (0 : Int) < m := by omega
  have hcong : ((egcdF (2 * bitLen m + 2) (a % m) m 1 0).1 : Int) ≡ (egcdF (2 * bitLen m + 2) (a % m) m 1 0).2 * a [ZMOD m] :=
    egcdF_modEq _ (by simpa using Int.mod_modEq (a : Int) m) (by simp [Int.ModEq])
  simp only [modInv] at h
  split at h
  case isFalse => cases h
  next hone =>
  obtain rfl := Option.some.inj h
  have hnonneg := Int.emod_nonneg (egcdF (2 * bitLen m + 2) (a % m) m 1 0).2 hpos.ne'
  have hlt := Int.emod_lt_of_pos (egcdF (2 * bitLen m + 2) (a % m) m 1 0).2 hpos
  refine ⟨by omega, ?_⟩
  have hinv : (((egcdF (2 * bitLen m + 2) (a % m) m 1 0).2 % (m : Int)).toNat * a : Int) ≡ 1 [ZMOD m] := by
    rw [Int.toNat_of_nonneg hnonneg]
    rw [hone] at hcong
    exact ((Int.mod_modEq _ _).mul_right _).trans hcong.symm
  have hnat : ((egcdF (2 * bitLen m + 2) (a % m) m 1 0).2 % (m : Int)).toNat * a ≡ 1 [MOD m] := by
    rw [← Int.natCast_modEq_iff]
    exact_mod_cast hinv
  exact Eq.trans hnat (Nat.mod_eq_of_lt hm)

/-- Where there is an inverse, `modInv` answers one. -/
theorem modInv_isSome {a m v : Nat} (hm : 1 < m) (hv : v * a % m = 1) : (modInv a m).isSome := by
  have hcop : Nat.Coprime a m := Nat.coprime_of_mul_modEq_one v (by rw [Nat.ModEq, Nat.mul_comm, hv, Nat.mod_eq_of_lt hm])
  have hgcd : (egcdF (2 * bitLen m + 2) (a % m) m 1 0).1 = 1 := by
    rw [egcdF_gcd (bitLen m) (lt_two_pow_bitLen m) (by omega), ← Nat.gcd_rec, Nat.gcd_comm]
    exact hcop
  simp [modInv, hgcd]

/-- `modInv` answers the inverse: the only one below the modulus. -/
theorem modInv_eq_some_iff {a m v : Nat} (hm : 1 < m) : modInv a m = some v ↔ v < m ∧ v * a % m = 1 := by
  refine ⟨modInv_sound hm, fun ⟨hlt, hv⟩ => ?_⟩
  obtain ⟨w, hw⟩ := Option.isSome_iff_exists.mp (modInv_isSome hm hv)
  obtain ⟨hwlt, hwinv⟩ := modInv_sound hm hw
  have hv1 : v * a ≡ 1 [MOD m] := hv.trans (Nat.mod_eq_of_lt hm).symm
  have hw1 : w * a ≡ 1 [MOD m] := hwinv.trans (Nat.mod_eq_of_lt hm).symm
  have hsame : w ≡ v [MOD m] := by
    calc w = w * 1 := (Nat.mul_one w).symm
      _ ≡ w * (v * a) [MOD m] := (hv1.mul_left w).symm
      _ = w * a * v := by ring
      _ ≡ 1 * v [MOD m] := hw1.mul_right v
      _ = v := Nat.one_mul v
  rw [hw, hsame.eq_of_lt_of_lt hwlt hlt]

/-- `modInv` answers none where there is no inverse. -/
theorem modInv_eq_none {a m : Nat} (hm : 1 < m) (h : ∀ v, v * a % m ≠ 1) : modInv a m = none :=
  Option.eq_none_iff_forall_not_mem.mpr fun v hv => h v (modInv_sound hm hv).2

end Sys2Proof.Machine
end

section
/-! PROOFS. The glaze unit: arithmetic on elements, slots, moves between PLAIN and DUAL segments, compare, and the long instructions
with their internal yield (R421 to R428). -/
namespace Sys2Proof.Machine

/-- T_M of the model is T_M of R423. -/
theorem gzTM_eq (L : Nat) : gzTM L = glazeTM L := rfl

theorem slotBit_eq_toNat (slot : Bool) : slotBit slot = slot.toNat := by cases slot <;> rfl

@[simp] theorem Comp.setElem_pc (c : Comp) (k i v : Nat) : (c.setElem k i v).pc = c.pc := rfl

@[simp] theorem Comp.setSlot_pc (c : Comp) (slot : Bool) (x : Slot) : (c.setSlot slot x).pc = c.pc := by cases slot <;> rfl

/-- D := f A B: an operand that is not given counts as 0. -/
theorem Comp.glaze_eq (c : Comp) (k d : Nat) (a b : Option Nat) (f : Nat → Nat → Nat) :
    c.glaze k d a b f =
      .unless (firstFault (firstFault (a.bind fun j => c.dualCheck k j false) (b.bind fun j => c.dualCheck k j false))
          (firstFault (c.dualCheck k d true) (firstFault c.noMod
            (if (a.elim (some 0) (c.elem k)).isNone ∨ (b.elim (some 0) (c.elem k)).isNone then some .slotMix else none))))
        (.next (c.landAll.setElem k d
          (f ((a.elim (some 0) (c.elem k)).getD 0) ((b.elim (some 0) (c.elem k)).getD 0) % c.modulus))) := by
  cases a <;> cases b <;> rfl

section modulus
variable {c : Comp} {L m : Nat} (hmod : c.slot.mod = some (L, m))
include hmod

theorem Comp.slotL_of_mod : c.slotL = L := by simp [Comp.slotL, hmod]

theorem Comp.modulus_of_mod : c.modulus = m := by simp [Comp.modulus, hmod]

theorem Comp.noMod_of_mod : c.noMod = none := by simp [Comp.noMod, hmod]

/-- The cycles of a glaze instruction: the landing of the products in flight, then its own for the limbs of the modulus. -/
theorem glazeCost_of_mod (own : Nat → Nat) : glazeCost own c = c.landWait + own L := by rw [glazeCost, Comp.slotL_of_mod hmod]

/-- An instruction D := f A B whose operands can be read and whose destination can be written. -/
theorem Comp.glaze_next {k d x y v : Nat} {a b : Option Nat} {f : Nat → Nat → Nat} (hd : c.dualCheck k d true = none)
    (ha : a.bind (fun j => c.dualCheck k j false) = none) (hb : b.bind (fun j => c.dualCheck k j false) = none)
    (hx : a.elim (some 0) (c.elem k) = some x) (hy : b.elim (some 0) (c.elem k) = some y) (hv : f x y % m = v) :
    c.glaze k d a b f = .next (c.landAll.setElem k d v) := by
  simp [Comp.glaze_eq, ha, hb, hd, hx, hy, Comp.noMod_of_mod hmod, Comp.modulus_of_mod hmod, hv, firstFault, SkRes.unless]

/-- A glaze instruction of fixed cycles goes on to the next word once the products in flight have landed. -/
theorem State.skGlaze_next {s : State} {e : Nat} {g : BitVec 4} {opc imm i : Nat} {c' : Comp} {r : Req} {own : Nat → Nat}
    {f : SkEnv → Comp → SkRes} (hat : s.AtWord e g (skWord g opc imm) c r i)
    (hfits : s.Fits c i (c.landWait + own L) (c.landWait + own L) ((c.pc + 1) % 0x10000))
    (hnext : f (s.skEnv r i) c = .next c') (hpc : c'.pc = c.pc) :
    s.skGlaze e g opc imm own f = s.ran e (c.landWait + own L) c c' :=
  State.skPlain_next hat hfits hnext hpc (glazeCost_of_mod hmod own)

end modulus

/-- The immediates of R407 with a field that is not used. -/
theorem gzImm_noA (seg : BitVec 4) (d b : BitVec 5) : gzImm seg d 0 b = seg.toNat * 0x10000 + d.toNat * 0x400 + b.toNat := by
  simp [gzImm]
theorem gzImm_noB (seg : BitVec 4) (d a : BitVec 5) : gzImm seg d a 0 = seg.toNat * 0x10000 + d.toNat * 0x400 + a.toNat * 0x20 := by
  simp [gzImm]
theorem gzImm_assoc (seg : BitVec 4) (d a b : BitVec 5) :
    gzImm seg d a b = seg.toNat * 0x10000 + d.toNat * 0x400 + (a.toNat * 0x20 + b.toNat) := Nat.add_assoc ..

/-- Settles O10: the operands of an instruction are elements of the active modulus, and it computes on them modulo that modulus. -/
theorem glazeArithmetic : Obligations.GlazeArithmetic := by
  intro s e g c r i seg d a b L m x y hmod hd
  have hland : ∀ v, (c.landAll.setElem seg.toNat d.toNat v).pc = c.pc := fun v => c.landAll_pc
  rw [← gzImm_noA]
  refine ⟨fun hat hfits => ?_, fun hx hy ha hb hxm hym => ?_⟩
  · have hseti : c.glaze seg.toNat d.toNat none none (fun _ _ => b.toNat) = .next (c.landAll.setElem seg.toNat d.toNat (b.toNat % m)) :=
      Comp.glaze_next (x := 0) (y := 0) hmod hd rfl rfl rfl rfl rfl
    exact congrArg State.done (State.skGlaze_next hmod hat hfits hseti (hland _))
  have hone {f : Nat → Nat → Nat} {v : Nat} (hv : f x 0 % m = v) :
      c.glaze seg.toNat d.toNat (some a.toNat) none f = .next (c.landAll.setElem seg.toNat d.toNat v) :=
    Comp.glaze_next hmod hd ha rfl hx rfl hv
  have htwo {f : Nat → Nat → Nat} {v : Nat} (hv : f x y % m = v) :
      c.glaze seg.toNat d.toNat (some a.toNat) (some b.toNat) f = .next (c.landAll.setElem seg.toNat d.toNat v) :=
    Comp.glaze_next hmod hd ha hb hx hy hv
  have hxx : x % m = x := Nat.mod_eq_of_lt hxm
  have hsub : subMod x y c.modulus % m = (x + (m - y)) % m := by
    simp [subMod, Comp.modulus_of_mod hmod, Nat.mod_eq_of_lt hym]
  have hneg : subMod 0 x c.modulus % m = (m - x) % m := by simp [subMod, Comp.modulus_of_mod hmod, hxx]
  simp only [List.forall_mem_cons, List.not_mem_nil, false_imp_iff, implies_true, and_true, ← gzImm_assoc, ← gzImm_noB]
  exact ⟨fun hat hfits => congrArg State.done (State.skGlaze_next hmod hat hfits (hone hxx) (hland _)),
    fun hat hfits => congrArg State.done (State.skGlaze_next hmod hat hfits (htwo rfl) (hland _)),
    fun hat hfits => congrArg State.done (State.skGlaze_next hmod hat hfits (htwo hsub) (hland _)),
    fun hat hfits => congrArg State.done (State.skGlaze_next hmod hat hfits (hone hneg) (hland _)),
    fun hat hfits => congrArg State.done (State.skGlaze_next hmod hat hfits (htwo rfl) (hland _)),
    fun hat hfits => congrArg State.done (State.skGlaze_next hmod hat hfits (hone rfl) (hland _))⟩

/-- A compare of the slices, where they agree, goes on to the next word once the products in flight have landed. -/
theorem State.skCompare_glaze {s : State} {e : Nat} {g : BitVec 4} {opc imm i L m : Nat} {c c' : Comp} {r : Req} {own : Nat → Nat}
    {f : SkEnv → Comp → SkRes} (hmod : c.slot.mod = some (L, m)) (hat : s.AtWord e g (skWord g opc imm) c r i)
    (hfits : s.Fits c i (c.landWait + own L) (c.landWait + own L) ((c.pc + 1) % 0x10000))
    (hnext : f (s.skEnv r i) c = .next c') (hpc : c'.pc = c.pc) :
    s.skCompare e g opc imm true (glazeCost own) f = s.ran e (c.landWait + own L) c c' :=
  State.skCompare_next hat hfits hnext hpc (glazeCost_of_mod hmod own)

section popped
variable {c : Comp} {L m : Nat} {t : List Limb} {ad : Limb}

/-- GZ_CURVE of a curve whose value fits the entry's limbs. -/
theorem Comp.gzCurve_loads {lmax : Nat} {n : Limb} {slot : Bool} {v : Nat → Option (Nat × Nat)} (hdepth : c.stack.length ≤ 32)
    (hstack : c.stack = n :: t) (hn : n.toNat < 32) (hv : v n.toNat = some (L, m)) (hL : L ≤ lmax) :
    c.gzCurve lmax slot v = .next (Comp.setSlot { c.landAll with
      stack := t, flags := mkFlags (fZ c.flags) (fN c.flags) false (fV c.flags) } slot
        { mod := some (L, m), load := (if slot then c.slot1 else c.slot0).load + 1 }) := by
  have hpops : c.depthCheck 1 0 = none := Comp.depthCheck_ok (by simp [hstack]) (by omega)
  have hfit : ¬ lmax < L := Nat.not_lt.mpr hL
  simp [Comp.gzCurve, Comp.top_zero hstack, hstack, hpops, hn, hv, hfit, firstFault, SkRes.unless]

variable (hmod : c.slot.mod = some (L, m)) {k o ks d a b x y : Nat} (hdepth : c.stack.length ≤ 32) (hstack : c.stack = ad :: t)
  (had : addrWord ad = some (k, o))

include hmod

include hdepth hstack had in
/-- GZ_IN of a number below the modulus. -/
theorem Comp.gzIn_below (hread : c.plainCheck k o L false = none) (hwrite : c.dualCheck ks d true = none)
    (hx : x = fieldLE (c.segs.getD k {}).bytes (8 * o) (8 * L)) (hlt : x < m) :
    c.gzIn ks d = .next (Comp.setElem { c.landAll with
      stack := t, flags := mkFlags (x == 0) (fN c.flags) false (fV c.flags) } ks d x) := by
  have hpops : c.depthCheck 1 0 = none := Comp.depthCheck_ok (by simp [hstack]) (by omega)
  have hsmall : ¬ m ≤ x := Nat.not_le.mpr hlt
  simp only [Comp.gzIn, Comp.top_zero hstack, hstack, List.drop_one, List.tail_cons, Option.getD_some, hpops,
    Comp.slotL_of_mod hmod, Comp.modulus_of_mod hmod, Comp.noMod_of_mod hmod, Comp.addrCheck_of_addrWord had, had, hread, hwrite,
    ← hx, decide_eq_false hsmall, Bool.false_eq_true, if_false, firstFault, SkRes.unless]

include hdepth hstack had in
/-- GZ_OUT of an element of the active modulus. -/
theorem Comp.gzOut_elem (hwrite : c.plainCheck k o L true = none) (hread : c.dualCheck ks a false = none)
    (hx : c.elem ks a = some x) :
    c.gzOut ks a = .next (Comp.putBytes { c.landAll with stack := t } k o (natLE (8 * L) x)) := by
  have hpops : c.depthCheck 1 0 = none := Comp.depthCheck_ok (by simp [hstack]) (by omega)
  simp [Comp.gzOut, Comp.top_zero hstack, hstack, hpops, Comp.slotL_of_mod hmod, Comp.noMod_of_mod hmod,
    Comp.addrCheck_of_addrWord had, had, hwrite, hread, hx, firstFault, SkRes.unless]

/-- GZ_CMP of two elements of the active modulus. -/
theorem Comp.gzCmp_elems (ha : c.dualCheck ks a false = none) (hb : c.dualCheck ks b false = none)
    (hx : c.elem ks a = some x) (hy : c.elem ks b = some y) :
    c.gzCmp ks a b = .next { c.landAll with flags := mkFlags (x == y) (fN c.flags) (decide (x < y)) (fV c.flags) } := by
  simp [Comp.gzCmp, Comp.noMod_of_mod hmod, ha, hb, hx, hy, firstFault, SkRes.unless]

end popped

/-- What GZ_CURVE reads of a curve that the table holds: its order or its field prime, with the limbs (R424). -/
theorem State.skEnv_curveValue {s : State} {r : Req} {i n : Nat} {cv : Bytes} {order : Bool} {p : Nat × Nat} (hcv : s.curve n = some cv)
    (hp : (if order then (ceilDiv (Curve.of cv).nbits 64, (Curve.of cv).n) else (ceilDiv (Curve.of cv).pbits 64, (Curve.of cv).p)) = p) :
    (if order then (s.skEnv r i).order else (s.skEnv r i).curve) n = some p := by
  cases order <;> simpa [State.skEnv, hcv] using hp

/-- The immediates of R407 without a destination. -/
theorem gzImm_noD (seg : BitVec 4) (a b : BitVec 5) : gzImm seg 0 a b = seg.toNat * 0x10000 + a.toNat * 0x20 + b.toNat := by
  simp [gzImm]
theorem gzImm_onlyD (seg : BitVec 4) (d : BitVec 5) : gzImm seg d 0 0 = seg.toNat * 0x10000 + d.toNat * 0x400 := by
  simp [gzImm]
theorem gzImm_onlyA (seg : BitVec 4) (a : BitVec 5) : gzImm seg 0 a 0 = seg.toNat * 0x10000 + a.toNat * 0x20 := by
  simp [gzImm]

/-- Settles O11: each instruction's checks pass, its products land, and its effect is the one of R426. -/
theorem glazeSlotsConversionsAndCompare : Obligations.GlazeSlotsConversionsAndCompare := by
  intro s e g c r i t slot ad hdepth
  rw [← slotBit_eq_toNat]
  refine ⟨fun hat hfits => congrArg State.done (State.skPlain_next hat hfits rfl c.landAll_pc rfl),
    fun order n cv L m hat hstack hn hcv hp hL hfits => ?_, fun seg d a b L m k o x y hmod hsplit hk ho => ?_⟩
  · rw [← slotBit_eq_toNat] at hat
    have hloads := Comp.gzCurve_loads (slot := slot) hdepth hstack hn (State.skEnv_curveValue (r := r) (i := i) hcv hp) hL
    exact congrArg State.done (State.skPlain_next hat hfits hloads ((Comp.setSlot_pc ..).trans c.landAll_pc) rfl)
  have had := addrWord_split hsplit hk ho
  rw [← gzImm_noD, ← gzImm_onlyD, ← gzImm_onlyA]
  refine ⟨fun hat hstack hread hwrite hx hlt hfits => ?_, fun hat hstack hwrite hread hx hfits => ?_,
    fun hat ha hb hx hy hfits => ?_⟩
  · have hin := Comp.gzIn_below hmod hdepth hstack had hread hwrite hx hlt
    exact congrArg State.done (State.skGlaze_next hmod hat hfits hin c.landAll_pc)
  · have hout := Comp.gzOut_elem hmod hdepth hstack had hwrite hread hx
    exact congrArg State.done (State.skCompare_glaze hmod hat hfits hout c.landAll_pc)
  · exact congrArg State.done (State.skCompare_glaze hmod hat hfits (Comp.gzCmp_elems hmod ha hb hx hy) c.landAll_pc)

section long
variable {s : State} {e i work bound : Nat} {c c' : Comp} {r : Req}

/-- The internal yield of a long instruction: 20 cycles and the checkpoint (R428, R433). -/
def Comp.partYieldCost (c : Comp) (s : State) (i : Nat) : Nat := 20 + c.ckptCost (LibEntry.of (libEntryB s.tables.library i))

/-- A long instruction whose bound fits one part goes on to the next word after its own work (R428). -/
theorem State.skLong_whole (hpart : c.part = 0) (hbound : bound ≤ 4096) (hwork : work ≤ bound) (hpc : c'.pc = c.pc)
    (hfits : s.Fits c i (c.landWait + work) (c.landWait + bound) ((c.pc + 1) % 0x10000)) :
    s.skLong e r (s.skEnv r i) c work bound (.next c') = s.ran e (c.landWait + work) c { c' with part := 0 } := by
  have hone : ¬ c.part + 4096 < work := by omega
  have hjudged : ¬ c.part + 4096 < bound := by omega
  have hboundPart : min 4096 (bound - c.part) = bound := by omega
  have hworkPart : min 4096 (work - c.part) = work := by omega
  have hpc' : ({ c'.step with part := 0 } : Comp).pc = (c.pc + 1) % 0x10000 := congrArg (fun pc => (pc + 1) % 0x10000) hpc
  rw [← hpc'] at hfits
  have hgo := State.skGo_next (e := e) (r := r) (k := id) hfits
  simp only [State.skLong, if_neg hone, if_neg hjudged, hboundPart, hworkPart, Nat.add_zero, hgo]
  simp only [State.ran, Comp.after, Comp.step, hpc, id]

/-- A long instruction with more work than one part yields after its first part, and stands at its word (R422, R428). -/
theorem State.skLong_yields (hpart : c.part = 0) (hwork : 4096 < work)
    (hfits : s.Fits c i (c.landWait + 4096 + c.partYieldCost s i) (c.landWait + 4096 + c.partYieldCost s i) c.pc) :
    s.skLong e r (s.skEnv r i) c work work (.next c')
      = ((s.addBusy (13 + e) (c.landWait + 4096 + c.partYieldCost s i)).onEasel e { c.landAll with
          part := 4096
          run := c.run + (c.landWait + 4096 + c.partYieldCost s i)
          total := c.total + (c.landWait + 4096 + c.partYieldCost s i) }).skYielded e c.id := by
  have hcost : 20 + c.ckptCost (s.skEnv r i).lib = c.partYieldCost s i := rfl
  have hpc : ({ c.landAll with part := 4096 } : Comp).pc = c.pc := c.landAll_pc
  have hgo := State.skGo_next (e := e) (r := r) (k := fun t => t.skYielded e c.id) (hpc ▸ hfits)
  simp only [State.skLong, hpart, Nat.zero_add, Nat.sub_zero, if_pos hwork, Nat.min_eq_left hwork.le, hcost, hgo]

end long

/-- GZ_SETMOD of a length that the entry admits (R424): an even number and one without a bit in its top limb unset the slot. -/
theorem Comp.setMod_loads {c : Comp} {lmax k o L m : Nat} {slot : Bool} {n ad : Limb} {t : List Limb} (hdepth : c.stack.length ≤ 32)
    (hstack : c.stack = n :: ad :: t) (hn : n.toNat = L) (hpos : 0 < L) (hL : L ≤ lmax) (had : addrWord ad = some (k, o))
    (hread : c.plainCheck k o L false = none) (hm : m = fieldLE (c.segs.getD k {}).bytes (8 * o) (8 * L)) :
    c.setMod lmax slot = .next (Comp.setSlot { c.landAll with
      stack := t
      flags := mkFlags (fZ c.flags) (fN c.flags) (decide (m % 2 = 0 ∨ m / 2 ^ (64 * (L - 1)) = 0)) (fV c.flags) } slot
        { mod := if m % 2 = 0 ∨ m / 2 ^ (64 * (L - 1)) = 0 then none else some (L, m)
          load := (if slot then c.slot1 else c.slot0).load + 1 }) := by
  have hpops : c.depthCheck 2 0 = none := Comp.depthCheck_ok (by simp [hstack]) (by omega)
  have hgood : ¬ (L = 0 ∨ lmax < L) := by omega
  simp only [Comp.setMod, Comp.top_zero hstack, Comp.top_one hstack, hstack, List.drop_succ_cons, List.drop_zero, hn, hpops, hgood,
    if_false, false_or, Comp.addrCheck_of_addrWord had, had, hread, ← hm, Option.getD_some, firstFault, SkRes.unless]

section inverse
variable {c : Comp} {L m k d a x v : Nat} (hmod : c.slot.mod = some (L, m)) (ha : c.dualCheck k a false = none)
  (hd : c.dualCheck k d true = none) (hx : c.elem k a = some x)
include hmod ha hd hx

/-- GZ_INV of an element that has an inverse. -/
theorem Comp.gzInv_inverse (hx0 : x ≠ 0) (hv : modInv x m = some v) :
    c.gzInv k d a = .next (Comp.setElem { c.landAll with
      flags := mkFlags (fZ c.flags) (fN c.flags) false (fV c.flags) } k d v) := by
  simp [Comp.gzInv, ha, hd, hx, Comp.noMod_of_mod hmod, Comp.modulus_of_mod hmod, hx0, hv, firstFault, SkRes.unless]

/-- GZ_INV of an element without an inverse. -/
theorem Comp.gzInv_none (hv : modInv x m = none) :
    c.gzInv k d a = .next { c.landAll with flags := mkFlags (fZ c.flags) (fN c.flags) true (fV c.flags) } := by
  simp [Comp.gzInv, ha, hd, hx, Comp.noMod_of_mod hmod, Comp.modulus_of_mod hmod, hv, firstFault, SkRes.unless]

end inverse

/-- The free cycles of GZ_INV, within its bound. -/
def Comp.invWork (c : Comp) (k a : Nat) : Nat :=
  min (40 + 128 * c.slotL * gzG c.slotL) (Config.invCycles ((c.elem k a).getD 0) c.modulus)

/-- GZ_INV whose bound fits one part goes on to the next word after its own cycles. -/
theorem exec_gzInv {s : State} {e i L m : Nat} {g seg : BitVec 4} {d a : BitVec 5} {c c' : Comp} {r : Req}
    (hat : s.AtWord e g (skWord g 0xCC (gzImm seg d a 0)) c r i) (hmod : c.slot.mod = some (L, m)) (hpart : c.part = 0)
    (hbound : 40 + 128 * L * glazeG L ≤ 4096)
    (hfits : ∀ j ≤ 40 + 128 * L * glazeG L, s.Fits c i (c.landWait + j) (c.landWait + (40 + 128 * L * glazeG L)) ((c.pc + 1) % 0x10000))
    (hinv : c.gzInv seg.toNat d.toNat a.toNat = .next c') (hpc : c'.pc = c.pc) :
    ∃ j ≤ 40 + 128 * L * glazeG L,
      exec (.gzInv ⟨e, true⟩ g seg d a) s = .next (s.ran e (c.landWait + j) c { c' with part := 0 }).settle := by
  obtain rfl := Comp.slotL_of_mod hmod
  have hwork : c.invWork seg.toNat a.toNat ≤ 40 + 128 * c.slotL * glazeG c.slotL := Nat.min_le_left ..
  refine ⟨_, hwork, (congrArg State.done (State.skAt_at hat)).trans (congrArg State.done ?_)⟩
  rw [hinv]
  exact State.skLong_whole hpart hbound hwork hpc (hfits _ hwork)

/-- Settles O12: the work of GZ_SETMOD in one part or in several, and GZ_INV by the extended Euclid that finds the inverse. -/
theorem glazeSetmodAndInverse : Obligations.GlazeSetmodAndInverse := by
  intro s e g c r i t slot ad n seg d a k o L m x hdepth hpart
  rw [← slotBit_eq_toNat, ← gzImm_noB]
  refine ⟨fun hat hstack hn hpos hL hsplit hk ho hread hm => ?_,
    fun hat hmod hx hm hlt hd ha hbound hfits => ⟨fun v hv hvx => ?_, fun hnone => ?_⟩⟩
  · have hset := Comp.setMod_loads (slot := slot) hdepth hstack hn hpos hL (addrWord_split hsplit hk ho) hread hm
    have hexec : exec (.gzSetmod ⟨e, true⟩ g slot) s = (s.skLong e r (s.skEnv r i) c (40 + 16 * glazeTM L) (40 + 16 * glazeTM L)
        (c.setMod (s.skEnv r i).lib.lmax slot)).done := by
      rw [← gzTM_eq, ← hn, ← Comp.top_zero hstack]
      exact congrArg State.done (State.skAt_at hat)
    rw [hexec, show c.setMod (s.skEnv r i).lib.lmax slot = _ from hset]
    exact ⟨fun hshort hfits =>
        congrArg State.done (State.skLong_whole hpart hshort le_rfl ((Comp.setSlot_pc ..).trans c.landAll_pc) hfits),
      fun hlong hfits => congrArg State.done (State.skLong_yields hpart hlong hfits)⟩
  · have hx0 : x ≠ 0 := by
      rintro rfl
      simp at hvx
    have hinv := Comp.gzInv_inverse hmod ha hd hx hx0 ((modInv_eq_some_iff hm).mpr ⟨hv, hvx⟩)
    exact exec_gzInv hat hmod hpart hbound hfits hinv c.landAll_pc
  · have hinv := Comp.gzInv_none hmod ha hd hx (modInv_eq_none hm hnone)
    have hexec := exec_gzInv hat hmod hpart hbound hfits hinv c.landAll_pc
    exact hexec

end Sys2Proof.Machine
end

section
/-! PROOFS. The extension port of the sketch processor: the request that goes out, its answer, its error and its timeout (R74, R429 to
R431). -/
namespace Sys2Proof.Machine

section port
variable {s : State} {e i : Nat} {g : BitVec 4} {c : Comp} {r : Req} {t : List Limb} {a b : Limb}

@[simp] theorem State.setEasel_skEnv (s : State) (e : Nat) (x : Easel) (r : Req) (i : Nat) : (s.setEasel e x).skEnv r i = s.skEnv r i := by
  simp only [State.skEnv, State.curve, State.setEasel_tables]

/-- The request of an extension instruction goes out where no other of its easel is outstanding. -/
theorem exec_customerExtension {opc : BitVec 4} {imm : BitVec 20}
    (hat : s.AtWord e g (skWord g (0xE0 + opc.toNat) imm.toNat) c r i) (hfree : ∀ y ∈ (s.easel e).comps, y.cx = none)
    (hstack : c.stack = b :: a :: t) (hdepth : c.stack.length ≤ 32) (hlimit : c.run + 66 ≤ s.yieldLimit) :
    exec (.customerExtension e g opc imm) s = .next (s.onEasel e { c with cx := some (opc.toNat, imm.toNat, a, b) }).settle := by
  have hnone : ¬ (s.easel e).comps.any (fun y => y.cx.isSome) = true := by
    simpa using hfree
  have hpops : c.depthCheck 2 1 = none := Comp.depthCheck_ok (by simp [hstack]) (by omega)
  refine (congrArg State.done (State.skAt_at hat)).trans (congrArg State.done ?_)
  simp only [if_neg hnone, hpops, if_neg (Nat.not_lt.mpr hlimit), Comp.top_zero hstack, Comp.top_one hstack, State.onEasel]

/-- An instruction boundary within the cycle cap and the code range. -/
theorem State.skBoundary_next {s₀ : State} {c' : Comp} {cost bound : Nat} {k : State → State} (hfits : s.Fits c i cost bound c'.pc)
    (htotal : c'.total = c.total + cost) : s₀.skBoundary e r (s.skEnv r i) c' k = k (s₀.onEasel e c') := by
  have hcap : ¬ (s.skEnv r i).lib.cap * 65536 < c'.total := htotal ▸ Nat.not_lt.mpr hfits.cap
  have hrange : ¬ (c'.pc < (s.skEnv r i).lib.start ∨ (s.skEnv r i).lib.start + (s.skEnv r i).lib.len ≤ c'.pc) :=
    not_or.mpr ⟨Nat.not_lt.mpr hfits.start, Nat.not_le.mpr hfits.stop⟩
  simp only [State.skBoundary, if_neg hcap, if_neg hrange, State.onEasel]

/-- The free cycles from an extension request to its answer (R429). -/
def State.answerCycles (s : State) : Nat := Config.freeNat s.free % 65

theorem State.answerCycles_le (s : State) : s.answerCycles ≤ 64 := Nat.le_of_lt_succ (Nat.mod_lt _ (by decide))

section ends
variable (hlive : s.live = true) (hclk : s.clkOk 6 = true) (hout : (s.easel e).comps.find? (fun y => y.cx.isSome) = some c)
  (hdead : c.dead = false) (hreq : s.req c.id = some r) (hentry : c.entry = some i)
include hlive hclk hout hdead hreq hentry

/-- The outstanding request of a live computation ends without an answer: CX_ERROR. -/
theorem State.cxEnd_none :
    s.cxEnd e none = (s.onEasel e { c with cx := none }).skFault e r (s.skEnv r i) c.pc .cxError := by
  simp [State.cxEnd, hlive, hclk, hout, hdead, hreq, hentry, State.onEasel]

/-- The answer to the outstanding request of a live computation takes the place of its operands. -/
theorem State.cxEnd_some (d : Limb) :
    s.cxEnd e (some d) =
      (({ (s.onEasel e { c with cx := none }) with free := s.free + 1 } : State).addBusy (13 + e) (2 + s.answerCycles)).skBoundary
        e r (s.skEnv r i) (c.after (2 + s.answerCycles) { c with cx := none, stack := d :: c.stack.drop 2 }) id := by
  simp [State.cxEnd, hlive, hclk, hout, hdead, hreq, hentry, State.onEasel, Comp.after, Comp.step, State.answerCycles, Nat.add_assoc]

end ends

end port

/-- Settles O14: the request goes out, and its end is the answer on the stack or CX_ERROR. -/
theorem extensionPortRequestAndAnswer : Obligations.ExtensionPortRequestAndAnswer := by
  refine fun s e g c r i t a b hstack hdepth hdead =>
    ⟨fun opc imm hat hfree hlimit => exec_customerExtension hat hfree hstack hdepth hlimit,
     fun hlive hclk hout hreq hentry => ?_⟩
  refine ⟨fun data hfits => ⟨s.answerCycles, s.answerCycles_le, ?_⟩, fun data => rfl,
    congrArg State.done (State.cxEnd_none hlive hclk hout hdead hreq hentry)⟩
  refine (congrArg State.done (State.cxEnd_some hlive hclk hout hdead hreq hentry data)).trans (congrArg State.done ?_)
  rw [hstack]
  exact State.skBoundary_next (hfits _ s.answerCycles_le) rfl

end Sys2Proof.Machine
end

section
/-! PROOFS. The stack, arithmetic, logic and shift instructions of the sketch processor (R413 to R417): what each pops and pushes, and the
flags of its result. -/
namespace Sys2Proof.Machine

section stack
variable {c : Comp} {t : List Limb} {a b x : Limb} {fl : BitVec 4}

/-- The top entries are replaced by others, with room for them. -/
theorem Comp.stackOp_replaces {popped push : List Limb} (hstack : c.stack = popped ++ t)
    (hroom : c.stack.length + push.length ≤ 32 + popped.length) :
    c.stackOp popped.length push fl = .next { c with stack := push ++ t, flags := fl } := by
  have hlength : c.stack.length = popped.length + t.length := by rw [hstack, List.length_append]
  have hnext := Comp.stackOp_next (c := c) (pops := popped.length) (push := push) (fl := fl) (by omega) (by omega)
  rwa [hstack, List.drop_left] at hnext

/-- A unary operation replaces the top by its result. -/
theorem Comp.unary_replaces {f : Limb → Limb × BitVec 4} (hdepth : c.stack.length ≤ 32) (hstack : c.stack = a :: t)
    (hf : f a = (x, fl)) : c.unary f = .next { c with stack := x :: t, flags := fl } := by
  simp only [Comp.unary, Comp.top_zero hstack, hf]
  exact Comp.stackOp_replaces (popped := [a]) hstack (Nat.add_le_add hdepth (by simp))

/-- A binary operation replaces the two top entries by its result. -/
theorem Comp.binary_replaces {f : Limb → Limb → Limb × BitVec 4} (hdepth : c.stack.length ≤ 32) (hstack : c.stack = b :: a :: t)
    (hf : f a b = (x, fl)) : c.binary f = .next { c with stack := x :: t, flags := fl } := by
  simp only [Comp.binary, Comp.top_zero hstack, Comp.top_one hstack, hf]
  exact Comp.stackOp_replaces (popped := [b, a]) hstack (Nat.add_le_add hdepth (by simp))

end stack

/-- A stack instruction of one cycle goes on to the next word with its entries replaced. -/
theorem State.skOne_replaces {s : State} {e opc imm i : Nat} {g : BitVec 4} {c : Comp} {r : Req} {f : SkEnv → Comp → SkRes}
    {t : List Limb} (popped push : List Limb) (hat : s.AtWord e g (skWord g opc imm) c r i)
    (hfits : s.Fits c i 1 1 ((c.pc + 1) % 0x10000)) (hdepth : c.stack.length < 32) (hgrow : push.length ≤ popped.length + 1)
    (hstack : c.stack = popped ++ t) (hf : f (s.skEnv r i) c = c.stackOp popped.length push c.flags) :
    s.skOne e g opc imm f = s.ran e 1 c { c with stack := push ++ t } :=
  State.skOne_next hat hfits (hf.trans (Comp.stackOp_replaces hstack (by omega))) rfl

/-- Settles O1: what each stack instruction pops and pushes. -/
theorem sketchStackInstructionsMoveTheStack : Obligations.SketchStackInstructionsMoveTheStack := by
  intro s e g c r i t x y z imm k hfits hroom
  refine ⟨fun hat => congrArg State.done (State.skOne_next hat hfits rfl rfl),
    fun hat => congrArg State.done (State.skOne_replaces [] [_] hat hfits hroom le_rfl rfl rfl),
    fun hat => congrArg State.done (State.skOne_replaces [] [_] hat hfits hroom le_rfl rfl rfl),
    fun hat hstack => ?pushx, fun hat hstack => ?dup, fun hat hstack => ?drop, fun hat hstack => ?swap, fun hat hstack => ?pushOver,
    fun hat hstack => ?rot, fun hat hpick => ?pick,
    fun hat => congrArg State.done (State.skOne_replaces [] [_] hat hfits hroom le_rfl rfl rfl)⟩
  case pushx =>
    exact congrArg State.done (State.skOne_replaces [x] [x <<< 20 ||| imm.setWidth 64] hat hfits hroom (by simp) hstack
      (by rw [Comp.top_zero hstack]; rfl))
  case dup =>
    exact congrArg State.done (State.skOne_replaces [x] [x, x] hat hfits hroom (by simp) hstack
      (by rw [Comp.top_zero hstack]; rfl))
  case drop => exact congrArg State.done (State.skOne_replaces [x] [] hat hfits hroom (by simp) hstack rfl)
  case swap =>
    exact congrArg State.done (State.skOne_replaces [y, x] [x, y] hat hfits hroom (by simp) hstack
      (by rw [Comp.top_zero hstack, Comp.top_one hstack]; rfl))
  case pushOver =>
    exact congrArg State.done (State.skOne_replaces [y, x] [x, y, x] hat hfits hroom (by simp) hstack
      (by rw [Comp.top_zero hstack, Comp.top_one hstack]; rfl))
  case rot =>
    exact congrArg State.done (State.skOne_replaces [z, y, x] [x, z, y] hat hfits hroom (by simp) hstack
      (by rw [Comp.top_zero hstack, Comp.top_one hstack, Comp.top_two hstack]; rfl))
  case pick =>
    have hlen : ¬ c.stack.length ≤ k.toNat := Nat.not_le.mpr (List.getElem?_eq_some_iff.mp hpick).1
    have hcheck : c.depthCheck 0 1 = none := Comp.depthCheck_ok (Nat.zero_le _) (by omega)
    have htop : c.top k.toNat = x := by simp [Comp.top, hpick]
    exact congrArg State.done (State.skOne_next hat hfits (by simp only [if_neg hlen, hcheck, htop, SkRes.unless]) rfl)

/-- A value wrapped to 64 bits differs from itself exactly where it overflows. -/
theorem decide_toInt_ofInt_ne (x : Int) : decide ((BitVec.ofInt 64 x).toInt ≠ x) = overflows x := by
  have hwrap : (BitVec.ofInt 64 x).toInt ≠ x ↔ x < -(2 ^ 63) ∨ 2 ^ 63 ≤ x := by
    rw [BitVec.toInt_ofInt, Int.bmod_def]
    split <;> omega
  rw [overflows, ← Bool.decide_or, decide_eq_decide]
  exact hwrap

/-- The sum with carry, and its flags. -/
theorem addFlags_eq (a b : Limb) (cin : Bool) :
    addFlags a b cin = (a + b + BitVec.ofNat 64 cin.toNat,
      mkFlags (a + b + BitVec.ofNat 64 cin.toNat == 0) (a + b + BitVec.ofNat 64 cin.toNat).msb
        (decide (2 ^ 64 ≤ a.toNat + b.toNat + cin.toNat)) (overflows (a.toInt + b.toInt + cin.toNat))) := by
  have hsum : BitVec.ofNat 64 (a.toNat + b.toNat + cin.toNat) = a + b + BitVec.ofNat 64 cin.toNat := by
    simp [BitVec.ofNat_add]
  have hint : a + b + BitVec.ofNat 64 cin.toNat = BitVec.ofInt 64 (a.toInt + b.toInt + cin.toNat) := by
    simp [BitVec.ofInt_add]
  have hcin : (if cin then 1 else 0) = cin.toNat := by cases cin <;> rfl
  simp only [addFlags, hcin, hsum, ← decide_toInt_ofInt_ne, ← hint]

/-- The difference with borrow, and its flags. -/
theorem subFlags_eq (a b : Limb) (cin : Bool) :
    subFlags a b cin = (a - b - BitVec.ofNat 64 cin.toNat,
      mkFlags (a - b - BitVec.ofNat 64 cin.toNat == 0) (a - b - BitVec.ofNat 64 cin.toNat).msb
        (decide (a.toNat < b.toNat + cin.toNat)) (overflows (a.toInt - b.toInt - cin.toNat))) := by
  have hdiff : BitVec.ofInt 64 ((a.toNat : Int) - b.toNat - cin.toNat) = a - b - BitVec.ofNat 64 cin.toNat := by
    simp [Int.sub_eq_add_neg, BitVec.ofInt_add, BitVec.ofInt_neg, BitVec.sub_eq_add_neg]
  have hint : a - b - BitVec.ofNat 64 cin.toNat = BitVec.ofInt 64 (a.toInt - b.toInt - cin.toNat) := by
    simp [Int.sub_eq_add_neg, BitVec.ofInt_add, BitVec.ofInt_neg, BitVec.sub_eq_add_neg]
  have hcin : (if cin then (1 : Int) else 0) = cin.toNat := by cases cin <;> rfl
  have hborrow : ((a.toNat : Int) < b.toNat + cin.toNat) = (a.toNat < b.toNat + cin.toNat) := by
    norm_cast
  simp only [subFlags, hcin, hborrow, hdiff, ← decide_toInt_ofInt_ne, ← hint]

section oneCycle
variable {s : State} {e opc imm i : Nat} {g : BitVec 4} {c : Comp} {r : Req} {t : List Limb} {a b x : Limb} {fl : BitVec 4}

/-- A unary instruction goes on to the next word with its result and flags. -/
theorem State.skOne_unary {f : Comp → Limb → Limb × BitVec 4} (hat : s.AtWord e g (skWord g opc imm) c r i)
    (hfits : s.Fits c i 1 1 ((c.pc + 1) % 0x10000)) (hdepth : c.stack.length ≤ 32) (hstack : c.stack = a :: t)
    (hf : f c a = (x, fl)) :
    s.skOne e g opc imm (fun _ c => c.unary (f c)) = s.ran e 1 c { c with stack := x :: t, flags := fl } :=
  State.skOne_next hat hfits (Comp.unary_replaces hdepth hstack hf) rfl

/-- A binary instruction goes on to the next word with its result and flags. -/
theorem State.skOne_binary {f : Comp → Limb → Limb → Limb × BitVec 4} (hat : s.AtWord e g (skWord g opc imm) c r i)
    (hfits : s.Fits c i 1 1 ((c.pc + 1) % 0x10000)) (hdepth : c.stack.length ≤ 32) (hstack : c.stack = b :: a :: t)
    (hf : f c a b = (x, fl)) :
    s.skOne e g opc imm (fun _ c => c.binary (f c)) = s.ran e 1 c { c with stack := x :: t, flags := fl } :=
  State.skOne_next hat hfits (Comp.binary_replaces hdepth hstack hf) rfl

end oneCycle

/-- Settles O2: the sum and the difference with their four flags, for each instruction. -/
theorem sketchAddSubtractSetFourFlags : Obligations.SketchAddSubtractSetFourFlags := by
  intro s e g c r i t a b imm hfits hdepth
  have hsub : subFlags a b false = (a - b,
      mkFlags (a - b == 0) (a - b).msb (decide (a.toNat < b.toNat)) (overflows (a.toInt - b.toInt))) := by
    simpa using subFlags_eq a b false
  refine ⟨fun hat hstack => congrArg State.done (State.skOne_binary hat hfits hdepth hstack (by simpa using addFlags_eq a b false)),
    fun hat hstack => congrArg State.done (State.skOne_binary hat hfits hdepth hstack (addFlags_eq ..)),
    fun hat hstack => congrArg State.done (State.skOne_binary hat hfits hdepth hstack hsub),
    fun hat hstack => congrArg State.done (State.skOne_binary hat hfits hdepth hstack (subFlags_eq ..)),
    fun hat hstack => ?cmp, fun hat hstack => ?addi⟩
  case cmp =>
    have hkeeps := Comp.stackOp_replaces (popped := [b, a]) (push := [b, a]) (fl := (subFlags a b false).2) hstack
      (Nat.add_le_add_right hdepth _)
    have hnext : c.stackOp 2 [c.top 0, c.top 1] (subFlags (c.top 1) (c.top 0) false).2
        = .next { c with flags := (subFlags a b false).2 } := by
      rw [Comp.top_zero hstack, Comp.top_one hstack]
      exact hkeeps.trans (by rw [List.cons_append, List.cons_append, List.nil_append, ← hstack])
    rw [hsub] at hnext
    exact congrArg State.done (State.skOne_next hat hfits hnext rfl)
  case addi =>
    have hadd := addFlags_eq a (imm.signExtend 64) false
    rw [BitVec.toInt_signExtend_of_le (by decide)] at hadd
    exact congrArg State.done (State.skOne_unary hat hfits hdepth hstack (by simpa using hadd))

end Sys2Proof.Machine
end

section
/-! PROOFS. Logic, bit fields, byte permutations and shifts of the sketch processor, by the bits of their results (R415 to R417). -/
namespace Sys2Proof.Machine

/-- The leading zeros are counted by the highest bit that is set. -/
theorem clz64_eq {a : Limb} {n : Nat} (hn : n ≤ 64) (hzero : ∀ j, 64 - n ≤ j → a.getLsbD j = false)
    (hone : n < 64 → a.getLsbD (63 - n) = true) : clz64 a = n := by
  have hupper : a.toNat < 2 ^ (64 - n) := Nat.lt_pow_two_of_testBit _ hzero
  unfold clz64
  split
  · next h =>
    subst h
    by_contra hne
    simpa using hone (by omega)
  · next h =>
    have hpos : a.toNat ≠ 0 := fun h0 => h (BitVec.eq_of_toNat_eq h0)
    have hlt : n < 64 := by
      by_contra hge
      rw [show 64 - n = 0 by omega] at hupper
      omega
    have hlower : 2 ^ (63 - n) ≤ a.toNat := Nat.ge_two_pow_of_testBit (hone hlt)
    rw [(Nat.log2_eq_iff hpos).mpr ⟨hlower, by rwa [show 63 - n + 1 = 64 - n by omega]⟩]
    omega

/-- The trailing zeros are counted by the lowest bit that is set. -/
theorem ctz64_eq {a : Limb} {n : Nat} (hn : n ≤ 64) (hzero : ∀ j, j < n → a.getLsbD j = false)
    (hone : n < 64 → a.getLsbD n = true) : ctz64 a = n := by
  unfold ctz64
  rcases Nat.lt_or_eq_of_le hn with hlt | rfl
  · have hfind : (List.range 64).find? (fun i => a.getLsbD i) = some n := by
      rw [List.find?_range_eq_some]
      exact ⟨hone hlt, List.mem_range.mpr hlt, fun j hj => by simp [hzero j hj]⟩
    rw [hfind, Option.getD_some]
  · have hfind : (List.range 64).find? (fun i => a.getLsbD i) = none := by
      rw [List.find?_range_eq_none]
      exact fun j hj => by simp [hzero j hj]
    rw [hfind, Option.getD_none]

/-- The bits of a field that is taken out. -/
theorem getLsbD_bitExtract (a : Limb) {w lsb : Nat} (hw : w ≤ 64) (j : Nat) :
    (bitExtract a w lsb).getLsbD j = (decide (j < w) && a.getLsbD (lsb + j)) := by
  rw [bitExtract, BitVec.getLsbD_ofNat, Nat.testBit_mod_two_pow, Nat.testBit_div_two_pow, BitVec.getLsbD, Nat.add_comm]
  by_cases hj : j < w
  · simp [hj, show j < 64 by omega]
  · simp [hj]

/-- The bits of a number with a field put in. -/
theorem getLsbD_bitInsert (a b : Limb) {w lsb : Nat} (hw : lsb + w ≤ 64) (j : Nat) :
    (bitInsert a b w lsb).getLsbD j = if lsb ≤ j ∧ j < lsb + w then b.getLsbD (j - lsb) else a.getLsbD j := by
  have hmask : (BitVec.ofNat 64 ((2 ^ w - 1) * 2 ^ lsb)).getLsbD j = decide (lsb ≤ j ∧ j < lsb + w) := by
    rw [BitVec.getLsbD_ofNat, Nat.testBit_mul_two_pow, Nat.testBit_two_pow_sub_one, ← Bool.decide_and, ← Bool.decide_and,
      decide_eq_decide]
    omega
  simp only [bitInsert, BitVec.getLsbD_or, BitVec.getLsbD_and, BitVec.getLsbD_not, BitVec.getLsbD_shiftLeft, hmask]
  by_cases hj : lsb ≤ j ∧ j < lsb + w
  · simp [hj, show j < 64 by omega, show ¬ j < lsb by omega]
  · simp only [hj, decide_false, Bool.not_false, Bool.and_true, Bool.and_false, Bool.or_false, if_false]
    by_cases h64 : j < 64
    · simp [h64]
    · simp [h64, BitVec.getLsbD_of_ge _ _ (Nat.le_of_not_lt h64)]

/-- The number whose bytes are `v 0`, `v 1` and so on, from the lowest. -/
def ofBytes (v : Nat → Nat) (n : Nat) : Nat := (List.range n).foldl (fun r i => r + v i * 2 ^ (8 * i)) 0

theorem ofBytes_succ (v : Nat → Nat) (n : Nat) : ofBytes v (n + 1) = 2 ^ (8 * n) * v n + ofBytes v n := by
  simp [ofBytes, List.range_succ, Nat.add_comm, Nat.mul_comm]

theorem ofBytes_lt {v : Nat → Nat} (hv : ∀ i, v i < 2 ^ 8) (n : Nat) : ofBytes v n < 2 ^ (8 * n) := by
  induction n with
  | zero => simp [ofBytes]
  | succ n ih =>
    rw [ofBytes_succ, Nat.mul_succ, Nat.pow_add]
    have hbyte : 2 ^ (8 * n) * v n ≤ 2 ^ (8 * n) * (2 ^ 8 - 1) := Nat.mul_le_mul_left _ (Nat.le_sub_one_of_lt (hv n))
    omega

/-- Each bit of the number is a bit of its byte. -/
theorem testBit_ofBytes {v : Nat → Nat} (hv : ∀ i, v i < 2 ^ 8) {n k j : Nat} (hk : k < n) (hj : j < 8) :
    (ofBytes v n).testBit (8 * k + j) = (v k).testBit j := by
  induction n with
  | zero => omega
  | succ n ih =>
    rw [ofBytes_succ, Nat.testBit_two_pow_mul_add _ (ofBytes_lt hv n)]
    by_cases hlast : k = n
    · subst hlast
      rw [if_neg (by omega), Nat.add_sub_cancel_left]
    · rw [if_pos (by omega), ih (by omega)]

/-- PERM's byte `i` of the result (R417). -/
def permByte (a c : Limb) (i : Nat) : Nat :=
  if c.toNat / 2 ^ (8 * i) % 256 / 8 % 2 = 1 then 0 else a.toNat / 2 ^ (8 * (c.toNat / 2 ^ (8 * i) % 256 % 8)) % 256

theorem permByte_lt (a c : Limb) (i : Nat) : permByte a c i < 2 ^ 8 := by
  unfold permByte
  split <;> omega

theorem testBit_permByte (a c : Limb) (i : Nat) {j : Nat} (hj : j < 8) :
    (permByte a c i).testBit j = (!c.getLsbD (8 * i + 3) && a.getLsbD (8 * (c.toNat / 2 ^ (8 * i) % 8) + j)) := by
  have hbit : c.getLsbD (8 * i + 3) = decide (c.toNat / 2 ^ (8 * i) % 256 / 8 % 2 = 1) := by
    rw [BitVec.getLsbD, Nat.testBit_eq_decide_div_mod_eq, Nat.pow_add, ← Nat.div_div_eq_div_mul, decide_eq_decide]
    omega
  have hsel : c.toNat / 2 ^ (8 * i) % 256 % 8 = c.toNat / 2 ^ (8 * i) % 8 := by omega
  rw [permByte, hbit, hsel]
  split
  · next h => simp [h]
  · next h =>
    rw [show (256 : Nat) = 2 ^ 8 by rfl, Nat.testBit_mod_two_pow, Nat.testBit_div_two_pow]
    simp [h, hj, BitVec.getLsbD, Nat.add_comm]

theorem permBytes_eq (a c : Limb) : permBytes a c = BitVec.ofNat 64 (ofBytes (permByte a c) 8) := rfl

/-- The bits of a permutation: byte `k` of the selector names the byte that comes there, or zeros (R417). -/
theorem getLsbD_permBytes (a c : Limb) {k j : Nat} (hk : k < 8) (hj : j < 8) :
    (permBytes a c).getLsbD (8 * k + j) = (!c.getLsbD (8 * k + 3) && a.getLsbD (8 * (c.toNat / 2 ^ (8 * k) % 8) + j)) := by
  rw [permBytes_eq, BitVec.getLsbD_ofNat, testBit_ofBytes (permByte_lt a c) hk hj, testBit_permByte a c k hj,
    decide_eq_true (by omega : 8 * k + j < 64), Bool.true_and]

/-- The selector of BSWAP names the bytes from the last to the first. -/
theorem getLsbD_permBytes_bswap (a : Limb) {k j : Nat} (hk : k < 8) (hj : j < 8) :
    (permBytes a 0x0001020304050607).getLsbD (8 * k + j) = a.getLsbD (8 * (7 - k) + j) := by
  have hsel : ∀ k < 8, (0x0001020304050607 : Limb).getLsbD (8 * k + 3) = false
      ∧ (0x0001020304050607 : Limb).toNat / 2 ^ (8 * k) % 8 = 7 - k := by decide
  rw [getLsbD_permBytes a _ hk hj, (hsel k hk).1, (hsel k hk).2, Bool.not_false, Bool.true_and]

/-- Two words with the same bits in each byte are the same. -/
theorem limb_eq_of_byteBits {x y : Limb} (h : ∀ k j, k < 8 → j < 8 → x.getLsbD (8 * k + j) = y.getLsbD (8 * k + j)) : x = y := by
  refine BitVec.eq_of_getLsbD_eq fun j hj => ?_
  have hbyte := h (j / 8) (j % 8) (by omega) (by omega)
  rwa [Nat.div_add_mod] at hbyte

/-- Settles O3: each result by its bits; the flags are those of the result. -/
theorem sketchLogicAndBitFieldResults : Obligations.SketchLogicAndBitFieldResults := by
  intro s e g c r i t a b x w1 lsb hfits hdepth
  refine ⟨fun hat hstack => congrArg State.done (State.skOne_binary hat hfits hdepth hstack rfl),
    fun hat hstack => congrArg State.done (State.skOne_binary hat hfits hdepth hstack rfl),
    fun hat hstack => congrArg State.done (State.skOne_binary hat hfits hdepth hstack rfl),
    fun hat hstack => congrArg State.done (State.skOne_unary hat hfits hdepth hstack rfl),
    fun hat hstack hle hzero hone => ?clz, fun hat hstack hle hzero hone => ?ctz, fun hat hstack hfield hbits => ?bfx,
    fun hat hstack hfield hbits => ?bfi, fun hat hstack hbits => ?perm, fun hat hstack hbits => ?bswap⟩
  case clz =>
    have hx : BitVec.ofNat 64 (clz64 a) = x := by rw [clz64_eq hle hzero hone, BitVec.ofNat_toNat, BitVec.setWidth_eq]
    exact congrArg State.done (State.skOne_unary hat hfits hdepth hstack (by rw [hx]))
  case ctz =>
    have hx : BitVec.ofNat 64 (ctz64 a) = x := by rw [ctz64_eq hle hzero hone, BitVec.ofNat_toNat, BitVec.setWidth_eq]
    exact congrArg State.done (State.skOne_unary hat hfits hdepth hstack (by rw [hx]))
  case bfx =>
    have hx : bitExtract a (w1.toNat + 1) lsb.toNat = x := BitVec.eq_of_getLsbD_eq fun j _ => by
      rw [getLsbD_bitExtract a (by omega), hbits, decide_eq_decide.mpr Nat.lt_succ_iff]
    exact congrArg State.done (State.skOne_unary hat hfits hdepth hstack (by rw [hx]; rfl))
  case bfi =>
    have hx : bitInsert a b (w1.toNat + 1) lsb.toNat = x := BitVec.eq_of_getLsbD_eq fun j _ => by
      rw [getLsbD_bitInsert a b (by omega), hbits, ← Nat.add_assoc]
      simp only [Nat.lt_succ_iff]
    exact congrArg State.done (State.skOne_binary hat hfits hdepth hstack (by rw [hx]; rfl))
  case perm =>
    have hx : permBytes a b = x := limb_eq_of_byteBits fun k j hk hj => by rw [getLsbD_permBytes a b hk hj, hbits k j hk hj]
    exact congrArg State.done (State.skOne_binary hat hfits hdepth hstack (by rw [hx]; rfl))
  case bswap =>
    have hx : permBytes a 0x0001020304050607 = x := limb_eq_of_byteBits fun k j hk hj => by
      rw [getLsbD_permBytes_bswap a hk hj, hbits k j hk hj]
    exact congrArg State.done (State.skOne_unary hat hfits hdepth hstack (by rw [hx]; rfl))

end Sys2Proof.Machine
end

section
/-! PROOFS. Shifts of the sketch processor by an immediate and by a stack count (R415). -/
namespace Sys2Proof.Machine

/-- A signed shift by 64 or more leaves the sign in every bit. -/
theorem sshiftRight_of_le (a : Limb) {n : Nat} (hn : 64 ≤ n) : a.sshiftRight n = BitVec.ofInt 64 (if a.msb then -1 else 0) := by
  cases hmsb : a.msb with
  | true =>
    rw [BitVec.sshiftRight_eq_of_msb_true hmsb, BitVec.ushiftRight_eq_zero hn]
    rfl
  | false =>
    rw [BitVec.sshiftRight_eq_of_msb_false hmsb, BitVec.ushiftRight_eq_zero hn]
    rfl

/-- A rotation by nothing leaves the word. -/
theorem rotateLeft_none (a : Limb) : a.rotateLeft 0 = a := by
  simp [BitVec.rotateLeft, BitVec.rotateLeftAux, BitVec.ushiftRight_eq_zero (le_refl 64)]

/-- The model's shift is the shift of R415 at every count. -/
theorem shiftBy_eq (k : Shift) (a : Limb) (n : Nat) : shiftBy k a n = shiftResult k a n := by
  rcases Nat.eq_zero_or_pos n with rfl | hpos
  · cases k <;> simp [shiftBy, shiftResult, rotateLeft_none]
  have hne : n ≠ 0 := Nat.pos_iff_ne_zero.mp hpos
  cases k with
  | shl =>
    by_cases hbig : 64 ≤ n
    · simp [shiftBy, shiftResult, hne, hbig, Nat.not_lt.mpr hbig]
    · simp [shiftBy, shiftResult, hne, hbig, hpos, Nat.lt_of_not_le hbig]
  | shr =>
    by_cases hbig : 64 ≤ n
    · simp [shiftBy, shiftResult, hne, hbig, Nat.not_lt.mpr hbig, BitVec.ushiftRight_eq_zero hbig]
    · simp [shiftBy, shiftResult, hne, hbig, hpos, Nat.lt_of_not_le hbig]
  | sar =>
    by_cases hbig : 64 ≤ n
    · simp [shiftBy, shiftResult, hne, hbig, sshiftRight_of_le a hbig]
    · simp [shiftBy, shiftResult, hne, hbig]
  | rol =>
    by_cases hmul : n % 64 = 0
    · simp [shiftBy, shiftResult, hne, hmul, rotateLeft_none]
    · simp [shiftBy, shiftResult, hne, hmul]

/-- The top bit of a shift's immediate says that the count is on the stack (R415). -/
theorem getLsbD_six_eq (sh : BitVec 7) : sh.getLsbD 6 = decide (64 ≤ sh.toNat) := by
  revert sh
  decide

section shift
variable {c : Comp} {t : List Limb} {a n : Limb} {sh : BitVec 7} (k : Shift) (hdepth : c.stack.length ≤ 32)
include hdepth

/-- A shift by its immediate replaces the top. -/
theorem Comp.shift_immediate (hsh : sh.toNat < 64) (hstack : c.stack = a :: t) :
    c.shift k sh = .next { c with
      stack := (shiftResult k a sh.toNat).1 :: t
      flags := flagsZNC c.flags (shiftResult k a sh.toNat).1 (shiftResult k a sh.toNat).2 } := by
  rw [Comp.shift, if_neg (by simpa only [getLsbD_six_eq, decide_eq_true_eq, Nat.not_le] using hsh), Nat.mod_eq_of_lt hsh,
    shiftBy_eq, Comp.top_zero hstack]
  exact Comp.stackOp_replaces (popped := [a]) hstack (Nat.add_le_add hdepth (by simp))

/-- A shift by the count on the stack replaces the count and its operand. -/
theorem Comp.shift_count (hsh : 64 ≤ sh.toNat) (hstack : c.stack = n :: a :: t) :
    c.shift k sh = .next { c with
      stack := (shiftResult k a n.toNat).1 :: t
      flags := flagsZNC c.flags (shiftResult k a n.toNat).1 (shiftResult k a n.toNat).2 } := by
  rw [Comp.shift, if_pos (by simpa only [getLsbD_six_eq, decide_eq_true_eq] using hsh), shiftBy_eq, Comp.top_zero hstack,
    Comp.top_one hstack]
  exact Comp.stackOp_replaces (popped := [n, a]) hstack (Nat.add_le_add hdepth (by simp))

/-- A shift of one cycle goes on to the next word, whichever count it takes; V stays as it was (R415). -/
theorem State.skOne_shift {s : State} {e opc i : Nat} {g : BitVec 4} {r : Req} (hfits : s.Fits c i 1 1 ((c.pc + 1) % 0x10000))
    (hat : s.AtWord e g (skWord g opc sh.toNat) c r i) :
    (sh.toNat < 64 → c.stack = a :: t →
      (s.skOne e g opc sh.toNat fun _ c => c.shift k sh).done = .next (s.ran e 1 c { c with
        stack := (shiftResult k a sh.toNat).1 :: t
        flags := flagsZNC c.flags (shiftResult k a sh.toNat).1 (shiftResult k a sh.toNat).2 }).settle) ∧
    (64 ≤ sh.toNat → c.stack = n :: a :: t →
      (s.skOne e g opc sh.toNat fun _ c => c.shift k sh).done = .next (s.ran e 1 c { c with
        stack := (shiftResult k a n.toNat).1 :: t
        flags := flagsZNC c.flags (shiftResult k a n.toNat).1 (shiftResult k a n.toNat).2 }).settle) :=
  ⟨fun hsh hstack => congrArg State.done (State.skOne_next hat hfits (Comp.shift_immediate k hdepth hsh hstack) rfl),
   fun hsh hstack => congrArg State.done (State.skOne_next hat hfits (Comp.shift_count k hdepth hsh hstack) rfl)⟩

end shift

/-- Settles O4: the four shifts are the one shift by their kind. -/
theorem sketchShiftResults : Obligations.SketchShiftResults := by
  intro s e g c r i t a n sh hfits hdepth
  simp only [List.forall_mem_cons, List.not_mem_nil, false_imp_iff, implies_true, and_true]
  exact ⟨State.skOne_shift .shl hdepth hfits, State.skOne_shift .shr hdepth hfits, State.skOne_shift .sar hdepth hfits,
    State.skOne_shift .rol hdepth hfits⟩

end Sys2Proof.Machine
end

section
/-! PROOFS. Control transfers of the sketch processor, and its guards (R404, R405, R413, R414). -/
namespace Sys2Proof.Machine

/-- A REL field names its target in the code range's numbers (R407). -/
theorem Comp.target_eq {c : Comp} {rel : BitVec 20} {dest : Nat} (hdest : (dest : Int) = c.pc + rel.toInt) (hlt : dest < 0x10000) :
    c.target rel = dest := by rw [Comp.target, ← hdest, Int.toNat_natCast, Nat.mod_eq_of_lt hlt]

section count
variable {c : Comp} {t : List Limb} {n : Limb} (hdepth : c.stack.length ≤ 32) (hstack : c.stack = n :: t)
include hdepth hstack

/-- DBNZ counts its top down, with Z and N of the count. -/
theorem Comp.stackOp_countDown :
    c.stackOp 1 [n - 1] (flagsZN c.flags (n - 1)) = .next { c with stack := (n - 1) :: t, flags := c.zn (n - 1) } :=
  Comp.stackOp_replaces (popped := [n]) hstack (Nat.add_le_add_right hdepth _)

end count

/-- Settles O5: the target of each transfer, what CALL saves, and both ends of DBNZ. -/
theorem sketchControlTransfers : Obligations.SketchControlTransfers := by
  intro s e g c r i t u n rel dest a hpc hdepth hdest hlt
  have htarget := Comp.target_eq hdest hlt
  refine ⟨fun hat hfits => ?jmp, fun hat hfits hrets => ?call, fun hat hfits hrets => ?ret,
    fun hat hstack => ⟨fun hn hfits => ?branches, fun hn hfits => ?falls⟩⟩
  all_goals refine (congrArg State.done (State.skAt_at hat)).trans (congrArg State.done ?_)
  case jmp =>
    rw [htarget]
    exact State.skGo_next hfits
  case call =>
    rw [if_neg (Nat.not_le.mpr hrets), htarget]
    exact State.skGo_next hfits
  case ret =>
    rw [hrets]
    exact State.skGo_next hfits
  case branches =>
    have hcount : n - 1 ≠ 0 := fun h => hn (sub_eq_zero.mp h)
    simp only [Comp.top_zero hstack, Comp.stackOp_countDown hdepth hstack, if_neg hcount, htarget]
    exact State.skGo_next hfits
  case falls =>
    have hcount : n - 1 = 0 := sub_eq_zero.mpr hn
    have hdown := Comp.stackOp_countDown hdepth hstack
    rw [hcount] at hdown
    simp only [Comp.top_zero hstack, hcount, hdown, if_true]
    exact State.skGo_next hfits

/-- Settles O6: the test of each guard on every flag, and the cycle of an instruction that does not execute. -/
theorem sketchGuardsFollowTheFlags : Obligations.SketchGuardsFollowTheFlags := by
  refine ⟨by decide, fun s e g c r i opc imm k hcomp hreq hentry hlive hruns hsegs hidle hword harmed hstrike hclk hguard hfits => ?_⟩
  rw [State.skAt_guarded hcomp hreq hentry hlive hclk hruns hsegs hidle hword harmed hstrike hguard]
  exact State.skGo_next hfits

end Sys2Proof.Machine
end

section
/-! PROOFS. Loads and stores of the sketch processor on a PLAIN segment, and SEGLEN (R411, R413, R418). -/
namespace Sys2Proof.Machine

section segment
variable {c : Comp} {k off : Nat} {sg : Seg} (hsg : c.segs.getD k {} = sg)
include hsg

/-- One limb inside a PLAIN segment that has the right passes its check (R411). -/
theorem Comp.plainCheck_limb {write : Bool} (hdual : sg.dual = false) (hright : (if write then sg.w else sg.r) = true)
    (hsize : 8 * (off + 1) ≤ sg.size) : c.plainCheck k off 1 write = none := by
  have hsome : sg.size ≠ 0 := by omega
  have hin : ¬ sg.size < 8 * (off + 1) := Nat.not_lt.mpr hsize
  have hleft : (if write then !sg.w else !sg.r) = false := by cases write <;> simpa using hright
  simp only [Comp.plainCheck, hsg, segFault, hleft, hdual, Bool.or_eq_true, beq_iff_eq, decide_eq_true_eq, hsome, hin, or_self,
    Bool.false_eq_true, if_false]

theorem Comp.limb_of_segment : c.limb k off = BitVec.ofNat 64 (fieldLE sg.bytes (8 * off) 8) := by rw [Comp.limb, hsg]

theorem Comp.putBytes_of_segment (b : Bytes) :
    c.putBytes k off b = { c with segs := c.segs.set k { sg with bytes := overwrite sg.bytes (8 * off) b } } := by
  rw [Comp.putBytes, hsg]

end segment

/-- Two checks that pass let the instruction take its effect. -/
theorem SkRes.unless_none {a b : Option SkFault} {k : SkRes} (ha : a = none) (hb : b = none) : SkRes.unless (firstFault a b) k = k := by
  subst ha hb
  rfl

/-- Settles O7: the limb of each access lies in a PLAIN segment with the right, so its check passes and it is read or written. -/
theorem sketchMemoryInstructions : Obligations.SketchMemoryInstructions := by
  intro s e g c r i t v x seg off sg hroom hseg
  have hsg : c.segs.getD seg.toNat {} = sg := by simp [hseg]
  have hdepth {pops pushes : Nat} (hpops : pops ≤ c.stack.length) (hpushes : pushes ≤ 1) : c.depthCheck pops pushes = none :=
    Comp.depthCheck_ok hpops (by omega)
  refine ⟨fun hat hfits hdual hright hsize => ?ld, fun hat hfits hdual hright hsize hstack => ?st,
    fun hat hfits hdual hright hstack hsize => ?ldx, fun hat hfits hdual hright hstack hsize => ?stx, fun hat hfits => ?seglen⟩
  case ld =>
    have hplain : c.plainCheck seg.toNat off.toNat 1 false = none := Comp.plainCheck_limb hsg hdual hright hsize
    exact congrArg State.done (State.skPlain_next hat hfits
      (by rw [SkRes.unless_none (hdepth (by simp) le_rfl) hplain, Comp.limb_of_segment hsg]) rfl rfl)
  case st =>
    have hplain : c.plainCheck seg.toNat off.toNat 1 true = none := Comp.plainCheck_limb hsg hdual hright hsize
    exact congrArg State.done (State.skOne_next hat hfits
      (by rw [SkRes.unless_none (hdepth (by simp [hstack]) (by simp)) hplain, Comp.putBytes_of_segment hsg, Comp.top_zero hstack,
            hstack]; rfl) rfl)
  case ldx =>
    have hplain : c.plainCheck seg.toNat (off.toNat + x.toNat) 1 false = none := Comp.plainCheck_limb hsg hdual hright hsize
    exact congrArg State.done (State.skPlain_next hat hfits
      (by simp only [Comp.top_zero hstack]
          rw [SkRes.unless_none (hdepth (by simp [hstack]) le_rfl) hplain, Comp.limb_of_segment hsg, hstack]; rfl) rfl rfl)
  case stx =>
    have hplain : c.plainCheck seg.toNat (off.toNat + x.toNat) 1 true = none := Comp.plainCheck_limb hsg hdual hright hsize
    exact congrArg State.done (State.skOne_next hat hfits
      (by simp only [Comp.top_zero hstack, Comp.top_one hstack]
          rw [SkRes.unless_none (hdepth (by simp [hstack]) (by simp)) hplain, Comp.putBytes_of_segment hsg, hstack]; rfl) rfl)
  case seglen =>
    have himm : seg.toNat * 0x10000 = memImm seg 0 := by simp [memImm]
    rw [himm] at hat
    exact congrArg State.done (State.skOne_replaces [] [_] hat hfits hroom le_rfl rfl (by rw [hsg]; rfl))

end Sys2Proof.Machine
end

section
/-! PROOFS. The multiplier of the sketch processor, its special registers, and WRFL (R406, R419, R420). -/
namespace Sys2Proof.Machine

section flight
variable {c : Comp} {n : Nat}

/-- The newest product issued by cycle `n` lands, and the older ones with it (R420). -/
theorem Comp.land_newest {old new : List (Nat × BitVec 128)} {k : Nat} {p : BitVec 128} (hflight : c.flight = old ++ (k, p) :: new)
    (hold : ∀ q ∈ old, q.1 ≤ n) (hk : k ≤ n) (hnew : ∀ q ∈ new, n < q.1) :
    c.land n = { c with mh := p.extractLsb' 64 64, ml := p.extractLsb' 0 64, flight := new } := by
  have hnewOut : new.filter (fun q => decide (q.1 ≤ n)) = [] :=
    List.filter_eq_nil_iff.mpr fun q hq => by simpa using hnew q hq
  have holdOut : old.filter (fun q => decide (n < q.1)) = [] :=
    List.filter_eq_nil_iff.mpr fun q hq => by simpa using hold q hq
  have hnewIn : new.filter (fun q => decide (n < q.1)) = new := List.filter_eq_self.mpr fun q hq => by simpa using hnew q hq
  have hlast : (c.flight.filter fun q => decide (q.1 ≤ n)).getLast? = some (k, p) := by
    simp [hflight, List.filter_append, hk, hnewOut]
  have hrest : (c.flight.filter fun q => decide (n < q.1)) = new := by
    simp [hflight, List.filter_append, Nat.not_lt.mpr hk, holdOut, hnewIn]
  simp only [Comp.land, hlast, hrest]

/-- No product lands that was issued later. -/
theorem Comp.land_nothing (hnew : ∀ q ∈ c.flight, n < q.1) : c.land n = c := by
  have hnone : c.flight.filter (fun q => decide (q.1 ≤ n)) = [] :=
    List.filter_eq_nil_iff.mpr fun q hq => by simpa using hnew q hq
  simp only [Comp.land, hnone, List.getLast?_nil]

/-- The computation with the products landed that RDML and RDMH can read. -/
def Comp.landed (c : Comp) : Comp := if 6 ≤ c.total then c.land (c.total - 6) else c

/-- RDML and RDMH push their half of the newest product that has landed. -/
theorem Comp.readProduct_pushes {c' : Comp} (hi : Bool) (hland : c.landed = c') (hroom : c'.stack.length < 32) :
    c.readProduct hi = .next { c' with stack := (if hi then c'.mh else c'.ml) :: c'.stack } := by
  subst hland
  exact Comp.stackOp_replaces (popped := []) rfl hroom

end flight

/-- A read of the multiplier, on agreeing slices, goes on to the next word with its half of the landed product. -/
theorem State.skCompare_readProduct {s : State} {e opc i : Nat} {g : BitVec 4} {c c' : Comp} {r : Req} (hi : Bool)
    (hfits : s.Fits c i 1 1 ((c.pc + 1) % 0x10000)) (hland : c.landed = c') (hpc : c'.pc = c.pc) (hroom : c'.stack.length < 32)
    (hat : s.AtWord e g (skWord g opc 0) c r i) :
    (s.skCompare e g opc 0 true (fun _ => 1) fun _ c => c.readProduct hi).done
      = .next (s.ran e 1 c { c' with stack := (if hi then c'.mh else c'.ml) :: c'.stack }).settle :=
  congrArg State.done (State.skCompare_next hat hfits (Comp.readProduct_pushes hi hland hroom) hpc rfl)

/-- Settles O9: which product has landed, what each special register reads, and the flags that WRFL sets. -/
theorem sketchMultiplierAndSpecialRegisters : Obligations.SketchMultiplierAndSpecialRegisters := by
  intro s e g c r i t a b hfits hroom
  refine ⟨fun hat hstack => ?mul, fun old new k p hflight hold hk hnew => ?newest, fun hnew => ?nothing, fun sr v hv hat => ?rdsr,
    fun hat hstack => ?wrfl⟩
  case mul =>
    have hpops : c.depthCheck 2 0 = none := Comp.depthCheck_ok (by simp [hstack]) (by omega)
    exact congrArg State.done (State.skOne_next hat hfits
      (by simp only [hpops, SkRes.unless, Comp.top_zero hstack, Comp.top_one hstack]; rw [hstack]; rfl) rfl)
  case newest =>
    have hsix : 6 ≤ c.total := by omega
    have hland : c.landed = { c with mh := p.extractLsb' 64 64, ml := p.extractLsb' 0 64, flight := new } :=
      (if_pos hsix).trans (Comp.land_newest hflight (fun q hq => Nat.le_sub_of_add_le (hold q hq)) (by omega)
        fun q hq => by have := hnew q hq; omega)
    have hread (hi : Bool) {opc : Nat} := State.skCompare_readProduct (e := e) (g := g) (r := r) (opc := opc) hi hfits hland rfl hroom
    exact ⟨fun hat => hread false hat, fun hat => hread true hat⟩
  case nothing =>
    have hland : c.landed = c := by
      unfold Comp.landed
      split
      · exact Comp.land_nothing fun q hq => by have := hnew q hq; omega
      · rfl
    have hread (hi : Bool) {opc : Nat} := State.skCompare_readProduct (e := e) (g := g) (r := r) (opc := opc) hi hfits hland rfl hroom
    exact ⟨fun hat => hread false hat, fun hat => hread true hat⟩
  case rdsr =>
    have hspecial : c.special (s.skEnv r i) sr.toNat = v := by
      simp only [List.mem_cons, Prod.mk.injEq, List.not_mem_nil, or_false] at hv
      obtain ⟨rfl, rfl⟩ | hv := hv
      · exact BitVec.ofNat_toNat 64 c.flags
      · rcases hv with ⟨rfl, rfl⟩ | ⟨rfl, rfl⟩ | ⟨rfl, rfl⟩ | ⟨rfl, rfl⟩ | ⟨rfl, rfl⟩ | ⟨rfl, rfl⟩ <;> rfl
    exact congrArg State.done (State.skOne_replaces [] [v] hat hfits hroom le_rfl rfl (by rw [hspecial]; rfl))
  case wrfl =>
    have hkeeps := Comp.stackOp_replaces (popped := [a]) (push := []) (fl := BitVec.ofNat 4 a.toNat) hstack
      (Nat.add_le_add hroom.le (Nat.zero_le _))
    exact congrArg State.done (State.skOne_next hat hfits (by rw [Comp.top_zero hstack]; exact hkeeps) rfl)

end Sys2Proof.Machine
end

section
/-! PROOFS. The word code: parity, syndrome and key are linear over exclusive or, and the reader follows the syndrome table (R497 to
R499). -/
namespace Sys2Proof.Machine

-- linearity over exclusive or -------------------------------------------------------------------------------------------------

/-- One step of the folding that yields the parity. -/
def foldHalf (x : BitVec 128) (k : Nat) : BitVec 128 := x ^^^ x >>> k

theorem foldHalf_xor (x y : BitVec 128) (k : Nat) : foldHalf (x ^^^ y) k = foldHalf x k ^^^ foldHalf y k := by
  simp only [foldHalf, BitVec.ushiftRight_xor_distrib]
  ac_rfl

theorem parity128_eq_folds (x : BitVec 128) : parity128 x = ([64, 32, 16, 8, 4, 2, 1].foldl foldHalf x).getLsbD 0 := rfl

theorem parity128_xor (x y : BitVec 128) : parity128 (x ^^^ y) = (parity128 x ^^ parity128 y) := by
  simp only [parity128_eq_folds, List.foldl, foldHalf_xor, BitVec.getLsbD_xor]

theorem ofBits_xor {α : Type} (f g : α → Bool) (l : List α) :
    ofBits (l.map fun a => f a ^^ g a) = ofBits (l.map f) ^^^ ofBits (l.map g) := by
  have hbit (b : Bool) (n : Nat) : (if b = true then 1 else 0) + 2 * n = Nat.bit b n := by cases b <;> simp [Nat.bit]; omega
  induction l with
  | nil => simp [ofBits]
  | cons a l ih => simp only [List.map_cons, ofBits, hbit, ih, Nat.xor_bit, Bool.bne_eq_xor]

theorem ofBits_lt (l : List Bool) : ofBits l < 2 ^ l.length := by
  induction l with
  | nil => simp [ofBits]
  | cons b l ih => simp only [ofBits, List.length_cons]; split <;> omega

theorem codeLow_xor (d e : BitVec 128) : codeLow (d ^^^ e) = codeLow d ^^^ codeLow e := by
  have hand (m : BitVec 128) : (d ^^^ e) &&& m = (d &&& m) ^^^ (e &&& m) := by
    apply BitVec.eq_of_getLsbD_eq
    simp [Bool.and_xor_distrib_right]
  simp only [codeLow, hand, parity128_xor, ofBits_xor]

theorem codeLow_lt (d : BitVec 128) : codeLow d < 256 := by
  simpa [codeLow, codeMasks] using ofBits_lt (codeMasks.map fun m => parity128 (d &&& m))

-- check bits as a byte and its parity -----------------------------------------------------------------------------------------

/-- Nine bits whose last one is the parity `p` taken with that of the byte below it. -/
def withParity (b : Nat) (p : Bool) : BitVec 9 := BitVec.ofNat 9 (b + if p ^^ parity128 (BitVec.ofNat 128 b) then 256 else 0)

/-- Parity of nine check bits. -/
def parity9 (c : BitVec 9) : Bool := parity128 (c.setWidth 128)

theorem parity9_xor (c e : BitVec 9) : parity9 (c ^^^ e) = (parity9 c ^^ parity9 e) := by
  simp only [parity9, BitVec.setWidth_xor, parity128_xor]

theorem parity9_eq (c : BitVec 9) : parity128 (BitVec.ofNat 128 c.toNat) = parity9 c := by
  rw [parity9, BitVec.ofNat_toNat]

theorem withParity_parity : ∀ b < 256, ∀ p, parity9 (withParity b p) = p := by decide +kernel

theorem withParity_low {b : Nat} (hb : b < 256) (p : Bool) : (withParity b p).toNat % 256 = b := by
  rw [withParity]
  split <;> simp only [BitVec.toNat_ofNat] <;> omega

theorem low_xor (c e : BitVec 9) : (c ^^^ e).toNat % 256 = c.toNat % 256 ^^^ e.toNat % 256 := by
  rw [BitVec.toNat_xor]
  exact Nat.xor_mod_two_pow (n := 8)

/-- Nine bits are told apart by their low eight and their parity. -/
theorem eq_zero_of_low_of_parity : ∀ c : BitVec 9, c.toNat % 256 = 0 → parity9 c = false → c = 0 := by decide +kernel

theorem wordCode_eq (d : BitVec 128) : wordCode d = withParity (codeLow d) (parity128 d) := rfl

/-- The byte of a word number's key. -/
def keyByte (w : Nat) : Nat := (List.range 8).foldl (fun a i => Nat.xor a (w % 2 ^ 60 / 2 ^ (8 * i) % 256)) 0

theorem keyByte_lt (w : Nat) : keyByte w < 256 := by
  refine List.foldlRecOn (motive := (· < 256)) _ _ (by decide) fun a ha i _ => ?_
  exact Nat.xor_lt_two_pow (n := 8) ha (Nat.mod_lt _ (by decide))

theorem wordKey_eq (w : Nat) : wordKey w = withParity (keyByte w) false := by
  simp only [wordKey, withParity, Bool.false_xor, keyByte]

theorem wordKey_parity (w : Nat) : parity9 (wordKey w) = false := by rw [wordKey_eq, withParity_parity _ (keyByte_lt w)]

-- the syndrome table ----------------------------------------------------------------------------------------------------------

theorem columnBit_columnValue : ∀ i < 128, columnBit (columnValue i) = some i := by decide +kernel

theorem columnBit_pow : ∀ j < 8, columnBit (2 ^ j) = none := by decide +kernel

theorem columnBit_lt {v i : Nat} (h : columnBit v = some i) : i < 128 := by
  simp only [columnBit] at h
  split at h
  · cases h
  · split at h
    · cases h; assumption
    · cases h

theorem columnBit_all : ∀ v < 256, (columnBit v).all (fun i => columnValue i == v) = true := by decide +kernel

theorem columnValue_of_columnBit {v i : Nat} (hv : v < 256) (h : columnBit v = some i) : columnValue i = v := by
  simpa [h] using columnBit_all v hv

theorem codeLow_pow : ∀ i < 128, codeLow (BitVec.ofNat 128 (2 ^ i)) = columnValue i := by decide +kernel

theorem parity128_zero : parity128 0 = false := by decide

theorem codeLow_zero : codeLow 0 = 0 := by decide

theorem parity128_pow : ∀ i < 128, parity128 (BitVec.ofNat 128 (2 ^ i)) = true := by decide +kernel

/-- The parity s_P of all 137 bits, once the key is taken off (R499). -/
def allParity (w : Nat) (d : BitVec 128) (c : BitVec 9) : Bool := parity128 d ^^ parity9 (c ^^^ wordKey w)

/-- The syndrome s_H (R499). -/
def syndrome (w : Nat) (d : BitVec 128) (c : BitVec 9) : Nat := codeLow d ^^^ (c ^^^ wordKey w).toNat % 256

theorem syndrome_lt (w : Nat) (d : BitVec 128) (c : BitVec 9) : syndrome w d c < 256 :=
  Nat.xor_lt_two_pow (n := 8) (codeLow_lt d) (Nat.mod_lt _ (by decide))

theorem isPow_iff {v : Nat} : (v = 1 ∨ v = 2 ∨ v = 4 ∨ v = 8 ∨ v = 16 ∨ v = 32 ∨ v = 64 ∨ v = 128) ↔ ∃ j < 8, v = 2 ^ j := by
  constructor
  · rintro (rfl | rfl | rfl | rfl | rfl | rfl | rfl | rfl)
    exacts [⟨0, by decide⟩, ⟨1, by decide⟩, ⟨2, by decide⟩, ⟨3, by decide⟩, ⟨4, by decide⟩, ⟨5, by decide⟩, ⟨6, by decide⟩, ⟨7, by decide⟩]
  · rintro ⟨j, hj, rfl⟩
    interval_cases j <;> decide

section reader
variable {w : Nat} {d : BitVec 128} {c : BitVec 9}

theorem readWord_eq : readWord w d c
    = if allParity w d c = true then
        (if syndrome w d c = 0 then .corrected d
         else match columnBit (syndrome w d c) with
           | some i => .corrected (d ^^^ BitVec.ofNat 128 (2 ^ i))
           | none => if ∃ j < 8, syndrome w d c = 2 ^ j then .corrected d else .bad)
      else if syndrome w d c = 0 then .good d else .bad := by
  simp only [← isPow_iff, allParity, ← parity9_eq]
  rfl

theorem readWord_good (hp : allParity w d c = false) (hs : syndrome w d c = 0) : readWord w d c = .good d := by simp [readWord_eq, hp, hs]

theorem readWord_even (hp : allParity w d c = false) (hs : syndrome w d c ≠ 0) : readWord w d c = .bad := by simp [readWord_eq, hp, hs]

theorem readWord_parityBit (hp : allParity w d c = true) (hs : syndrome w d c = 0) : readWord w d c = .corrected d := by
  simp [readWord_eq, hp, hs]

theorem readWord_dataBit {i : Nat} (hi : i < 128) (hp : allParity w d c = true) (hs : syndrome w d c = columnValue i) :
    readWord w d c = .corrected (d ^^^ BitVec.ofNat 128 (2 ^ i)) := by
  have hcol : columnBit (syndrome w d c) = some i := hs ▸ columnBit_columnValue i hi
  have hne : syndrome w d c ≠ 0 := fun h => by simp [h, columnBit] at hcol
  simp [readWord_eq, hp, hne, hcol]

theorem readWord_checkBit {j : Nat} (hj : j < 8) (hp : allParity w d c = true) (hs : syndrome w d c = 2 ^ j) :
    readWord w d c = .corrected d := by
  have hcol : columnBit (syndrome w d c) = none := hs ▸ columnBit_pow j hj
  have hpow : ∃ j < 8, syndrome w d c = 2 ^ j := ⟨j, hj, hs⟩
  simp only [readWord_eq, hp, hcol, if_pos hpow, if_true, ite_self]

theorem readWord_odd (hp : allParity w d c = true) (hs : syndrome w d c ≠ 0) (hcol : ∀ i < 128, syndrome w d c ≠ columnValue i)
    (hpow : ∀ j < 8, syndrome w d c ≠ 2 ^ j) : readWord w d c = .bad := by
  have hnone : columnBit (syndrome w d c) = none := by
    cases hbit : columnBit (syndrome w d c) with
    | none => rfl
    | some i =>
      exact absurd (columnValue_of_columnBit (syndrome_lt w d c) hbit).symm (hcol i (columnBit_lt hbit))
  have hno : ¬ ∃ j < 8, syndrome w d c = 2 ^ j := fun ⟨j, hj, h⟩ => hpow j hj h
  simp only [readWord_eq, hp, hs, hnone, if_neg hno, if_true, if_false]

end reader

/-- A word read with the check bits of the word `d`: parity and syndrome show only what has been inverted since. -/
theorem allParity_stored (w : Nat) (d e : BitVec 128) : allParity w (d ^^^ e) (storedCode w d) = parity128 e := by
  simp only [allParity, storedCode, BitVec.xor_assoc, BitVec.xor_self, BitVec.xor_zero, wordCode_eq,
    withParity_parity _ (codeLow_lt d), parity128_xor]
  rw [Bool.xor_comm (parity128 d), Bool.xor_assoc, Bool.xor_self, Bool.xor_false]

theorem syndrome_stored (w : Nat) (d e : BitVec 128) : syndrome w (d ^^^ e) (storedCode w d) = codeLow e := by
  simp only [syndrome, storedCode, BitVec.xor_assoc, BitVec.xor_self, BitVec.xor_zero, wordCode_eq, withParity_low (codeLow_lt d),
    codeLow_xor]
  rw [Nat.xor_comm (codeLow d), Nat.xor_assoc, Nat.xor_self, Nat.xor_zero]

/-- At another address the syndrome shows the difference of the keys. -/
theorem readWord_moved {v w : Nat} (d : BitVec 128) (hkey : wordKey v ≠ wordKey w) : readWord v d (storedCode w d) = .bad := by
  have hbits : storedCode w d ^^^ wordKey v = wordCode d ^^^ (wordKey w ^^^ wordKey v) := BitVec.xor_assoc _ _ _
  have hpar : parity9 (wordKey w ^^^ wordKey v) = false := by simp [parity9_xor, wordKey_parity]
  refine readWord_even ?_ fun hs => ?_
  · simp [allParity, hbits, parity9_xor, wordCode_eq, withParity_parity _ (codeLow_lt d), wordKey_parity]
  · have hlow : (wordKey w ^^^ wordKey v).toNat % 256 = 0 := by
      rw [syndrome, hbits, low_xor, wordCode_eq, withParity_low (codeLow_lt d), ← Nat.xor_assoc, Nat.xor_self, Nat.zero_xor] at hs
      exact hs
    exact hkey (BitVec.xor_eq_zero_iff.mp (eq_zero_of_low_of_parity _ hlow hpar)).symm

/-- Settles O60: each row of the table is a case of the reader; as stored, parity and syndrome show what has been inverted. -/
theorem wordReaderFollowsTheSyndromeTable : Obligations.WordReaderFollowsTheSyndromeTable := by
  rintro w d c c' sH sP rfl hsH hsP
  have hs : syndrome w d c = sH := by
    have hlow : (wordCode d).toNat % 256 = codeLow d := withParity_low (codeLow_lt d) _
    rw [hsH, hlow]
    rfl
  have hp : allParity w d c = sP := by rw [hsP, Bool.bne_eq_xor]; rfl
  refine ⟨fun hP hH => readWord_good (hp.trans hP) (hs.trans hH), fun i hi hP hH => readWord_dataBit hi (hp.trans hP) (hs.trans hH),
    fun j hj hP hH => readWord_checkBit hj (hp.trans hP) (hs.trans hH), fun hP hH => readWord_parityBit (hp.trans hP) (hs.trans hH),
    fun hP hne hcol hpow => readWord_odd (hp.trans hP) (hs ▸ hne) (hs ▸ hcol) (hs ▸ hpow),
    fun hP hne => readWord_even (hp.trans hP) (hs ▸ hne), ?asStored, fun i hi => ?oneInverted, fun i hi j hj hij => ?twoInverted,
    fun v hkey => readWord_moved d hkey⟩
  case asStored =>
    have hread := readWord_good ((allParity_stored w d 0).trans parity128_zero) ((syndrome_stored w d 0).trans codeLow_zero)
    rwa [show d ^^^ 0 = d from BitVec.xor_zero] at hread
  case oneInverted =>
    have hread := readWord_dataBit hi ((allParity_stored w d _).trans (parity128_pow i hi)) ((syndrome_stored w d _).trans (codeLow_pow i hi))
    rwa [BitVec.xor_assoc, BitVec.xor_self, BitVec.xor_zero] at hread
  case twoInverted =>
    rw [BitVec.xor_assoc]
    refine readWord_even ?_ ?_
    · rw [allParity_stored, parity128_xor, parity128_pow i hi, parity128_pow j hj, Bool.xor_self]
    · rw [syndrome_stored, codeLow_xor, codeLow_pow i hi, codeLow_pow j hj, Ne, Nat.xor_eq_zero_iff]
      exact fun h => hij (Option.some.inj ((columnBit_columnValue i hi).symm.trans (h ▸ columnBit_columnValue j hj)))

end Sys2Proof.Machine
end

section
/-! PROOFS. What the writes of the tally store leave as it was, the paired cells, and M's writes of its registers (R70, R520 to R522,
R551). -/
namespace Sys2Proof.Machine

-- what a capture leaves as it was ---------------------------------------------------------------------------------------------

/-- A property that the capture of an event keeps: the collector takes it, a stalled read ends, the block may freeze (R506, R515). -/
structure CaptureInv (P : State → Prop) : Prop where
  captured : ∀ s l, P s → P { s with flt := { s.flt with captured := l } }
  port : ∀ s p, P s → P { s with port := p }
  frozen : ∀ s, P s → P { s with blk := { s.blk with frozen := true } }

theorem CaptureInv.endStall {P : State → Prop} (h : CaptureInv P) {s : State} (hs : P s) (code : Nat) (v : Word) : P (s.endStall code v) := by
  unfold State.endStall
  split
  · exact h.port s _ hs
  · exact hs

theorem CaptureInv.capture {P : State → Prop} (h : CaptureInv P) {s : State} (hs : P s) (src detail tag : Nat) (inj : Bool) (least : Nat) :
    P (s.capture src detail tag inj least) := by
  unfold State.capture
  split
  · exact hs
  · dsimp only
    split
    · unfold State.endStall
      split
      · exact h.frozen _ (h.port _ _ (h.captured s _ hs))
      · exact h.frozen _ (h.captured s _ hs)
    · exact h.captured s _ hs

-- what a write of the tally store leaves as it was ----------------------------------------------------------------------------

/-- A property that every effect of a write of the tally store keeps, other than the programming of a cell: the queue moves, a refusal is
captured, and those who wait on a write are told (R522, R524). -/
structure TallyInv (P : State → Prop) : Prop extends CaptureInv P where
  tly : ∀ s t, t.cells = s.tly.cells → P s → P { s with tly := t }
  fns : ∀ s t, P s → P { s with fns := t }
  gen : ∀ s busy fail, P s → P { s with ctx := { s.ctx with genBusy := busy, genFail := fail } }
  warmup : ∀ s, P s → P s.usable.enterWarmup

section invariant
variable {P : State → Prop} (h : TallyInv P) {s : State} (hs : P s)
include h hs

theorem TallyInv.effect (idx : Nat) (ok : Bool) (who : TlyWho) : P (s.tlyEffect idx ok who) := by
  match who with
  | .floor => exact h.warmup s hs
  | .epoch f => exact h.fns s _ hs
  | .gen => exact h.gen s _ _ hs
  | .seal f upper =>
    have hdead : P (s.setFn f { s.fn f with sealAdvance := false, sealDead := true }) := h.fns s _ hs
    cases ok <;> cases upper
    case false.false => exact hdead
    case false.true => exact h.tly _ _ rfl hdead
    case true.false =>
      simp only [State.tlyEffect, Bool.false_eq_true, if_true, if_false]
      split
      · exact h.fns s _ hs
      · exact h.fns s _ hs
    case true.true => exact hs
  | .retire | .hist | .m | .plan | .repair =>
    simp only [State.tlyEffect, ite_self]
    exact hs

theorem TallyInv.effects (idx : Nat) (ok : Bool) (who : List TlyWho) : P (who.foldl (fun s x => s.tlyEffect idx ok x) s) := by
  induction who generalizing s with
  | nil => exact hs
  | cons x who ih => exact ih (h.effect hs idx ok x)

theorem TallyInv.startF (fuel : Nat) : P (State.tlyStartF fuel s) := by
  induction fuel generalizing s with
  | zero => exact hs
  | succ fuel ih =>
    unfold State.tlyStartF
    split
    next w t hcur hqueue =>
      dsimp only
      split
      · refine ih (h.effects (h.capture ?_ _ _ _ _ _) _ _ _)
        exact h.tly s _ rfl hs
      · exact h.tly s _ rfl hs
    · exact hs

theorem TallyInv.start : P s.tlyStart := h.startF hs _

theorem TallyInv.enqueue (w : TlyW) : P (s.tlyEnqueue w) := by
  unfold State.tlyEnqueue
  refine h.start ?_
  split_ifs
  all_goals exact h.tly s _ rfl hs

theorem TallyInv.write (idx : Nat) (v : Word) (cls : Nat) (who : List TlyWho) : P (s.tlyWrite idx v cls who) := by
  unfold State.tlyWrite
  dsimp only
  split
  · split
    · exact h.effects hs _ _ _
    · split
      · exact h.tly s _ rfl hs
      · exact h.tly s _ rfl hs
  · exact h.enqueue hs _

theorem TallyInv.history (src cls detail : Nat) : P (s.history src cls detail) := h.write (h.write hs _ _ _ _) _ _ _ _

end invariant

/-- A field that each of these changes leaves as it was keeps its value. -/
theorem TallyInv.of_field {β : Type} {field : State → β} (c : β) (hflt : ∀ (s : State) l, field { s with flt := { s.flt with captured := l } } = field s)
    (hport : ∀ (s : State) p, field { s with port := p } = field s) (hblk : ∀ (s : State) b, field { s with blk := b } = field s)
    (htly : ∀ (s : State) t, t.cells = s.tly.cells → field { s with tly := t } = field s) (hfns : ∀ (s : State) t, field { s with fns := t } = field s)
    (hctx : ∀ (s : State) x, field { s with ctx := x } = field s) (hpwr : ∀ (s : State) p, field { s with pwr := p } = field s)
    (hent : ∀ (s : State) e, field { s with ent := e } = field s) (husable : ∀ s : State, field s.usable = field s) :
    TallyInv (fun s => field s = c) where
  captured s l hs := (hflt s l).trans hs
  port s p hs := (hport s p).trans hs
  frozen s hs := (hblk s _).trans hs
  tly s t ht hs := (htly s t ht).trans hs
  fns s t hs := (hfns s t).trans hs
  gen s _ _ hs := (hctx s _).trans hs
  warmup s hs := ((s.usable.enterWarmup_field field hblk hpwr hent).trans (husable s)).trans hs

@[simp] theorem State.usable_tly (s : State) : s.usable.tly = s.tly := by unfold State.usable; split <;> rfl
@[simp] theorem State.usable_flt (s : State) : s.usable.flt = s.flt := by unfold State.usable; split <;> rfl

/-- The cells change only when a write becomes durable (R521). -/
theorem tallyInv_cells (c : Tbl (Cell × Cell)) : TallyInv (fun s => s.tly.cells = c) :=
  TallyInv.of_field c (fun _ _ => rfl) (fun _ _ => rfl) (fun _ _ => rfl) (fun _ _ ht => ht) (fun _ _ => rfl) (fun _ _ => rfl)
    (fun _ _ => rfl) (fun _ _ => rfl) (fun s => by rw [State.usable_tly])

-- paired cells ----------------------------------------------------------------------------------------------------------------

/-- The cell that a program leaves out of date. -/
def Cell.successor (c : Cell) (v : Word) : Cell := { val := v, wear := c.wear + 1, gen := c.gen + 1, good := true }

theorem cellNewer_successor (c : Cell) (v : Word) : cellNewer (c, c.successor v) = true := by simp [cellNewer, Cell.successor]

theorem not_cellNewer_successor (c : Cell) (v : Word) : cellNewer (c.successor v, c) = false := by
  have hgen : ∀ g : BitVec 2, (g == g + 1 + 1) = false := by decide
  exact hgen c.gen

/-- The new value goes into the cell beside the current one, by whichever cells are good (R520, R521). -/
theorem tlyProgram_cases {c : Cell × Cell} {cur : Cell} (h : tlyPick c = some cur) (v : Word) :
    cur.good = true ∧ (tlyProgram c v = (cur, cur.successor v) ∨ tlyProgram c v = (cur.successor v, cur)) := by
  obtain ⟨a, b⟩ := c
  simp only [tlyPick] at h
  split_ifs at h with hboth hnew ha hb
  · cases h
    exact ⟨hboth.2, .inr (by simp [tlyProgram, tlyPick, hboth, hnew, Cell.successor])⟩
  · cases h
    exact ⟨hboth.1, .inl (by simp [tlyProgram, tlyPick, hboth, hnew, Cell.successor])⟩
  · cases h
    have hb : b.good = false := by simpa [ha] using hboth
    exact ⟨ha, .inl (by simp [tlyProgram, tlyPick, ha, hb, Cell.successor])⟩
  · cases h
    exact ⟨hb, .inr (by simp [tlyProgram, tlyPick, ha, hb, Cell.successor])⟩

theorem tlyPick_program {c : Cell × Cell} {cur : Cell} (h : tlyPick c = some cur) (v : Word) :
    tlyPick (tlyProgram c v) = some (cur.successor v) := by
  obtain ⟨hgood, hprog | hprog⟩ := tlyProgram_cases h v
  · rw [hprog, tlyPick, if_pos ⟨hgood, rfl⟩, if_pos (cellNewer_successor cur v)]
  · rw [hprog, tlyPick, if_pos ⟨rfl, hgood⟩, not_cellNewer_successor, if_neg Bool.false_ne_true]

theorem exec_tallyWriteDurable (s : State) : exec .tallyWriteDurable s = .next s.tlyDurable.snowDone.settle := rfl

theorem State.snowDone_of_not_entering {s : State} (h : s.blk.snow ≠ 1) : s.snowDone = s := if_neg fun hs => h hs.1

/-- With nothing queued no further write starts. -/
theorem State.tlyStart_idle {s : State} (hqueue : s.tly.queue = []) : s.tlyStart = s := by
  unfold State.tlyStart State.tlyStartF
  split
  next hq => rw [hqueue] at hq; cases hq
  · rfl

/-- Settles O44: the programmed cell is the one picked; a requested write keeps the cells; the durable one programs its register's. -/
theorem tallyWritesAreAtomicOverPairedCells : Obligations.TallyWritesAreAtomicOverPairedCells := by
  refine ⟨fun c cur v h => ⟨tlyPick_program h v, ?_⟩, fun s idx v cls who => (tallyInv_cells s.tly.cells).write rfl idx v cls who,
    fun s hclk hsnow => ?_, fun s w hclk hcur hqueue _ hwho hsnow => ?_⟩
  · obtain ⟨_, hprog | hprog⟩ := tlyProgram_cases h v
    · exact .inl (by rw [hprog])
    · exact .inr (by rw [hprog])
  · have hidle : s.tlyDurable = s := if_pos (by simp [hclk])
    rw [exec_tallyWriteDurable, hidle, State.snowDone_of_not_entering hsnow]
  · have hdone : s.tlyDurable = { s with tly := { s.tly with
        cells := tset (fun _ => ({}, {})) s.tly.cells w.idx (tlyProgram (s.tlyCells w.idx) w.val), cur := none, writes := s.tly.writes + 1 } } := by
      simp only [State.tlyDurable, hclk, hcur, hwho, not_true_eq_false, if_false, List.foldl_nil]
      exact State.tlyStart_idle hqueue
    exact congrArg (fun t : State => Host.Outcome.next t.settle)
      ((congrArg State.snowDone hdone).trans (State.snowDone_of_not_entering hsnow))

-- M's writes of the store's registers -----------------------------------------------------------------------------------------

theorem exec_tallyRegisterWrite (i : Nat) (v : Word) (s : State) : exec (.tallyRegisterWrite i v) s = .next (s.put ⟨.tly, 0, i⟩ v).settle := rfl

theorem State.tlyTurnedAway_iff {s : State} {i : Nat} (hi : i < 1024) :
    s.tlyTurnedAway ⟨.tly, 0, i⟩ = true ↔ 512 ≤ i ∧ s.mBusy = false ∧ 1000000 ≤ s.tlyWearOf i := by
  simp only [State.tlyTurnedAway, beq_self_eq_true, Bool.and_eq_true, decide_eq_true_eq, Bool.not_eq_true', true_and, hi, and_true,
    and_assoc]
  rfl

theorem State.put_tly_away {s : State} {i : Nat} {v : Word} (h : s.Open) (haway : s.tlyTurnedAway ⟨.tly, 0, i⟩ = true) :
    s.put ⟨.tly, 0, i⟩ v = (({ s with tly := { s.tly with refused := some i } } : State).capture 0x92 i).refuse :=
  if_pos ⟨h.1, h.2, haway⟩

/-- A write that is not turned away is the register's own (R551). -/
theorem State.put_tly {s : State} {i : Nat} {v : Word} (hnot : ¬ s.tlyTurnedAway ⟨.tly, 0, i⟩ = true) :
    s.put ⟨.tly, 0, i⟩ v = s.mgmt (s.writeTly i v) := if_neg fun hs => hnot hs.2.2

/-- Settles O24: the write is turned away at the limit, refused while the last one is not durable, queued, or without effect. -/
theorem tallyRegisterWriteQueuedOrTurnedAway : Obligations.TallyRegisterWriteQueuedOrTurnedAway := by
  intro s i v h hi
  refine ⟨fun hprov hbusy hwear => ?queued, fun hprov hbusy hwear => ?away, fun hprov hbusy => ?busy, fun hprov => ?readOnly⟩
  case queued =>
    have hnot : ¬ s.tlyTurnedAway ⟨.tly, 0, i⟩ = true := by rw [State.tlyTurnedAway_iff hi]; omega
    have hwrite : s.writeTly i v = some (s.tlyWrite i v 3 [.m]) := by
      simp only [State.writeTly, tlyLimit, hbusy, Bool.false_eq_true, false_or]
      rw [if_neg (by omega), if_neg (by omega)]
    rw [exec_tallyRegisterWrite, State.put_tly hnot, hwrite, State.mgmt_some h]
  case away => rw [exec_tallyRegisterWrite, State.put_tly_away h ((State.tlyTurnedAway_iff hi).mpr ⟨hprov, hbusy, hwear⟩)]
  case busy =>
    have hnot : ¬ s.tlyTurnedAway ⟨.tly, 0, i⟩ = true := by simp [State.tlyTurnedAway_iff hi, hbusy]
    have hwrite : s.writeTly i v = none := by simp [State.writeTly, hbusy, Nat.not_lt.mpr hprov]
    rw [exec_tallyRegisterWrite, State.put_tly hnot, hwrite, State.mgmt_none h]
  case readOnly =>
    have hnot : ¬ s.tlyTurnedAway ⟨.tly, 0, i⟩ = true := by rw [State.tlyTurnedAway_iff hi]; omega
    rw [exec_tallyRegisterWrite, State.put_tly hnot, State.writeTly, if_pos hprov, State.mgmt_some h]

end Sys2Proof.Machine
end

section
/-! PROOFS. The commands of the collector, of self-test and of ageing (R510, R514, R536, R547, R553). -/
namespace Sys2Proof.Machine

theorem exec_faultPendingClear (v : Word) (s : State) : exec (.faultPendingClear v) s = .next (s.mgmt (some (s.writeFltPend v))).settle := rfl

theorem exec_rearm (s : State) : exec .rearm s = .next (s.mgmt (some (s.writeFltCtrl 0x80000000))).settle := rfl

theorem exec_faultInjectArm (v : Word) (s : State) :
    exec (.faultInjectArm v) s = .next (s.mgmt (s.writeFltInj (0x80000000 ||| v))).settle := rfl

theorem exec_bistCommand (kind : BitVec 2) (s : State) :
    exec (.bistCommand kind) s = .next (s.mgmt (s.writeBistCmd (0x80000000 ||| at_ kind.toNat 4))).settle := rfl

theorem exec_vretry (s : State) : exec .vretry s = .next (s.mgmt (some (s.writeAgeCtrl 0x80000000))).settle := rfl

theorem exec_measureAll (s : State) : exec .measureAll s = .next (s.mgmt (some (s.writeAgeCtrl 0x40000000))).settle := rfl

-- injections ------------------------------------------------------------------------------------------------------------------

theorem injection_bits (v : Word) : (0x80000000 ||| v) &&& 0x1FF = v &&& 0x1FF := by
  apply BitVec.eq_of_getLsbD_eq
  intro i hi
  have hhigh : ((0x80000000 : Word).getLsbD i && (0x1FF : Word).getLsbD i) = false := by
    have : ∀ i < 32, ((0x80000000 : Word).getLsbD i && (0x1FF : Word).getLsbD i) = false := by decide
    exact this i hi
  simp only [BitVec.getLsbD_and, BitVec.getLsbD_or, Bool.and_or_distrib_right, hhigh, Bool.false_or]

/-- An injection that does not fire by itself stays armed (R514). -/
theorem State.fireAtOnce_waits {s : State} (hcount : fld (s.reg .fltInj) 7 0 ≠ 0xA3) (hcollector : 1 < fld (s.reg .fltInj) 7 0) :
    s.fireAtOnce = s := by
  simp only [State.fireAtOnce, hcount, Nat.not_le.mpr hcollector, if_false, ite_self]

theorem fld_injection (v : Word) : fld (v &&& 0x1FF) 7 0 = fld v 7 0 := by
  simp only [fld, Nat.pow_zero, Nat.div_one, BitVec.toNat_and]
  have hmask : (0x1FF : Word).toNat = 2 ^ 9 - 1 := rfl
  rw [hmask, Nat.and_two_pow_sub_one_eq_mod]
  omega

section inject
variable {s : State} {v : Word}

theorem State.writeFltInj_armed (hen : (s.reg .fltCtrl).getLsbD 30 = true) (hidle : s.flt.armed = false)
    (hinj : injectable (fld v 7 0) = true) (hcount : fld v 7 0 ≠ 0xA3) (hcollector : 1 < fld v 7 0) :
    s.writeFltInj (0x80000000 ||| v)
      = some { s.setReg .fltInj 0 0 (v &&& 0x1FF) with flt := { s.flt with armed := true, injDone := false } } := by
  have htaken : ¬ (¬ bitOf (s.reg .fltCtrl) 30 = true ∨ s.flt.armed = true ∨ ¬ injectable (fld (0x80000000 ||| v) 7 0) = true) := by
    rw [fld_or_bit31 v (by decide), hinj]
    simp [bitOf, hen, hidle]
  have hnamed : fld ((s.setReg .fltInj 0 0 (v &&& 0x1FF)).reg .fltInj) 7 0 = fld v 7 0 := by
    rw [State.reg_setReg_self, fld_injection]
  simp only [State.writeFltInj, if_neg htaken, bitOf_enable, if_true, injection_bits, State.setReg_flt]
  exact congrArg some (State.fireAtOnce_waits (hnamed.trans_ne hcount) (hcollector.trans_eq hnamed.symm))

theorem State.writeFltInj_refused
    (h : (s.reg .fltCtrl).getLsbD 30 = false ∨ s.flt.armed = true ∨ injectable (fld v 7 0) = false) :
    s.writeFltInj (0x80000000 ||| v) = none := by
  have hrefused : ¬ bitOf (s.reg .fltCtrl) 30 = true ∨ s.flt.armed = true ∨ ¬ injectable (fld (0x80000000 ||| v) 7 0) = true := by
    rw [fld_or_bit31 v (by decide)]
    simpa [bitOf] using h
  simp only [State.writeFltInj, if_pos hrefused]

end inject

-- self-test and ageing --------------------------------------------------------------------------------------------------------

/-- GO of a legal test of a digest engine takes it out of service for the test (R547). -/
theorem State.writeBistCmd_digest {s : State} {kind : BitVec 2} {u : Nat} (hu : fld (s.reg .bistUnit) 4 0 = u) (hidle : s.bist.busy = false)
    (hkind : kind ≠ 3) (hlow : 9 ≤ u) (hhigh : u ≤ 12) (hin : s.retired u = false) : ∃ t : State,
    s.writeBistCmd (0x80000000 ||| at_ kind.toNat 4) = some t ∧
    t.bist = { s.bist with busy := true, done := false, pass := false, abandoned := false, kind := kind.toNat, unit := u } ∧
    (t.dig (u - 9)).test = true ∧ t.reqs = s.reqs := by
  have hkindBits : ∀ k : BitVec 2, fld (at_ k.toNat 4) 5 4 = k.toNat := by decide
  have hthree : kind.toNat ≠ 3 := fun h => hkind (BitVec.eq_of_toNat_eq h)
  have htaken : ¬ (s.bist.busy = true ∨ kind.toNat = 3 ∨ 16 < u ∨ s.retired u = true ∨ (u < 9 ∧ s.reserve ≠ some u)) := by
    simp only [hidle, hin, Bool.false_eq_true, false_or]
    omega
  simp only [State.writeBistCmd, hu, fld_or_bit31 _ (show 5 < 31 by decide), hkindBits, bitOf_enable, not_true_eq_false, if_false,
    if_neg htaken, State.setTest, if_neg (show ¬ u < 9 by omega), if_pos (show u < 13 by omega)]
  exact ⟨_, rfl, by simp, by simp, by simp⟩

theorem State.writeBistCmd_busy {s : State} (hbusy : s.bist.busy = true) (v : Word) : s.writeBistCmd (0x80000000 ||| v) = none := by
  simp only [State.writeBistCmd, bitOf_enable, not_true_eq_false, if_false, if_pos (Or.inl hbusy)]

/-- Settles O23: each command is a write to its register, taken or refused. -/
theorem collectorSelfTestAndAgeingCommands : Obligations.CollectorSelfTestAndAgeingCommands := by
  refine ⟨fun s v h => ⟨?_, ?_, fun hen hidle hsrc => ?_, fun hbad => ?_⟩,
    fun s kind h => ⟨fun hidle hkind hlow hhigh hin => ?_, fun hbusy => ?_, fun hvref => ?_, ?_⟩⟩
  · rw [exec_faultPendingClear, State.mgmt_some h, State.writeFltPend]
  · rw [exec_rearm, State.mgmt_some h]
    rfl
  · rw [exec_faultInjectArm, State.writeFltInj_armed hen hidle (by rw [hsrc]; rfl) (by omega) (by omega), State.mgmt_some h]
  · rw [exec_faultInjectArm, State.writeFltInj_refused hbad, State.mgmt_none h]
  · obtain ⟨t, hwrite, hbist, htest, hreqs⟩ := State.writeBistCmd_digest rfl hidle hkind hlow hhigh hin
    exact ⟨t, by rw [exec_bistCommand, hwrite, State.mgmt_some h], hbist, htest, hreqs⟩
  · rw [exec_bistCommand, State.writeBistCmd_busy hbusy, State.mgmt_none h]
  · rw [exec_vretry, State.mgmt_some h, State.writeAgeCtrl, if_pos ⟨rfl, hvref⟩]
  · have hnoRetry : ¬ (bitOf 0x40000000 31 = true ∧ s.pwr.vref = true) := fun hs => Bool.false_ne_true hs.1
    rw [exec_measureAll, State.mgmt_some h, State.writeAgeCtrl, if_neg hnoRetry]

end Sys2Proof.Machine
end

section
/-! PROOFS. Edges of `time_align`, SYNC, slowing, and a count that never decreases (R480 to R484, R496). -/
namespace Sys2Proof.Machine

theorem exec_timeAlign {s : State} (past : Nat) (hpor : s.blk.porLow = false) : exec (.timeAlign past) s = .next (s.timeAlign past).settle :=
  congrArg (fun t : State => Host.Outcome.next t.settle) (if_neg (by simp [hpor]))

theorem exec_timeMiss (s : State) : exec .timeMiss s = .next s.timeMiss.settle := rfl

theorem exec_timeSync (s : State) : exec .timeSync s
    = .next ({ s with time := { s.time with age := max s.time.age (s.holdover + 1) } } : State).updateSync.settle := rfl

theorem exec_slowingEnd (s : State) : exec .slowingEnd s = .next s.slowingEnd.settle := rfl

theorem exec_timeNowRead {s : State} (h : s.Open) : exec .timeNowRead s = .next s.readNow.settle :=
  congrArg (fun t : State => Host.Outcome.next t.settle) (by rw [if_neg (not_not.mpr h.1), if_pos h.2])

theorem captureInv_porLow : CaptureInv (fun s => s.blk.porLow = false) where
  captured _ _ hs := hs
  port _ _ hs := hs
  frozen _ hs := hs

-- edges -----------------------------------------------------------------------------------------------------------------------

theorem State.timeMiss_none {s : State} (h : s.time.due = false) : s.timeMiss = s := if_neg (by simp [h])

/-- The edge before has had no load: it is counted and reported, and awaits none any more (R482). -/
def State.missed (s : State) : State := (({ s with time := { s.time with due := false } } : State).bumpSat .timeMissCount).capture 0xA1

theorem State.timeMiss_due {s : State} (h : s.time.due = true) : s.timeMiss = s.missed := if_pos h

theorem State.missed_due (s : State) : s.missed.time.due = false := by simp [State.missed]

theorem State.missed_porLow {s : State} (h : s.blk.porLow = false) : s.missed.blk.porLow = false :=
  captureInv_porLow.capture (s := ({ s with time := { s.time with due := false } } : State).bumpSat .timeMissCount) (by simpa using h) ..

theorem State.timeAlign_missed {s : State} (h : s.time.due = true) (past : Nat) : s.timeAlign past = s.missed.timeAlign past := by
  unfold State.timeAlign
  rw [State.timeMiss_due h, State.timeMiss_none s.missed_due]

theorem State.moveCount_forward (s : State) {c m : Nat} (h : c ≤ m) :
    s.moveCount c m = { s with time := { s.time with count := s.time.count + (m - c) } } := if_pos h

theorem State.moveCount_back (s : State) {c m : Nat} (h : m < c) :
    s.moveCount c m = { s with time := { s.time with hold := s.time.hold + (c - m) } } := if_neg (Nat.not_le.mpr h)

/-- The time unit with an edge latched: the first one after a wake corrects at once (R484). -/
def TimeU.latched (u : TimeU) : TimeU := { u with edge := some u.count, edgeAge := 0, due := true, wake := none }

/-- FINE rises at the first edge after a wake, with what it has corrected (R484). -/
def State.fineAgain (s : State) (x : Int) : State := { s with time := { s.time with fine := true, wake := some x } }

section edge
variable {s : State} {past : Nat} (hdue : s.time.due = false)
include hdue

theorem State.timeAlign_fine (hup : s.islandUp 12 = true) (hfine : s.time.fine = true) :
    s.timeAlign past = { s with time := (s.time.upTo (past % 1000)).latched } := by
  rw [State.timeAlign, State.timeMiss_none hdue]
  exact (if_pos hup).trans (if_pos hfine)

theorem State.timeAlign_woken {u : TimeU} (hup : s.islandUp 12 = true) (hfine : s.time.fine = false) (hu : u = s.time.upTo (past % 1000)) :
    s.timeAlign past = (({ s with time := u.latched } : State).moveCount u.count (nearestMs u.count)).fineAgain
      ((nearestMs u.count : Int) - u.count) := by
  subst hu
  rw [State.timeAlign, State.timeMiss_none hdue]
  exact (if_pos hup).trans (if_neg (Bool.eq_false_iff.mp hfine))

/-- While the island is down the edge is latched at the tick's reading. -/
def State.coarseEdge (s : State) : State := { s with time := { s.time with edge := some s.time.count, edgeAge := 0, wake := none } }

/-- The count snaps to `m`, which is the reference event's (R483). -/
def State.snapped (s : State) (m : Nat) : State := { s with time := { s.time with age := 0, edge := some m } }

section down
variable {c m : Nat} (hdown : s.islandUp 12 = false) (hc : c = s.time.count) (hm : m = nearestMs c)
include hdown hc hm

theorem State.timeAlign_snaps (hnear : (if c ≤ m then m - c else c - m) < 100000) :
    s.timeAlign past = (((s.coarseEdge.setReg .timeOffset 0 0 (sat32 ((m : Int) - c))).moveCount c m).snapped m) := by
  subst hm hc
  rw [State.timeAlign, State.timeMiss_none hdue]
  exact (if_neg (Bool.eq_false_iff.mp hdown)).trans (if_pos hnear)

theorem State.timeAlign_coarse (hfar : ¬ (if c ≤ m then m - c else c - m) < 100000) : s.timeAlign past = s.coarseEdge := by
  subst hm hc
  rw [State.timeAlign, State.timeMiss_none hdue]
  exact (if_neg (Bool.eq_false_iff.mp hdown)).trans (if_neg hfar)

end down
end edge

-- SYNC and slowing ------------------------------------------------------------------------------------------------------------

theorem State.updateSync_iff (s : State) :
    s.updateSync.time.sync = true ↔ s.time.near = true ∧ s.time.slow = 0 ∧ s.time.age ≤ s.holdover := by
  simp only [State.updateSync]
  split <;> simp [and_assoc]

/-- SYNC falls with its event (R482, R500). -/
theorem State.updateSync_falls {s : State} (hsync : s.time.sync = true) (hold : s.holdover < s.time.age) :
    s.updateSync = ({ s with time := { s.time with sync := false } } : State).capture 0xA2 := by
  have hoff : (s.time.near && s.time.slow == 0 && decide (s.time.age ≤ s.holdover)) = false := by simp [hold]
  simp only [State.updateSync, hoff, hsync, Bool.false_eq_true, not_false_eq_true, and_self, if_true]

theorem State.slowingEnd_early {s : State} (h : 500 < s.time.slow) : s.slowingEnd = s := if_pos (.inr h)

theorem State.slowingEnd_ends {s : State} (hslow : 0 < s.time.slow) (hleft : s.time.slow ≤ 500) : s.slowingEnd
    = ({ s with time := { s.time with slow := 0, hold := s.time.hold + s.time.slow } } : State).updateSync := if_neg (by omega)

-- the count -------------------------------------------------------------------------------------------------------------------

theorem TimeU.count_le_upTo (u : TimeU) (p : Nat) : u.count ≤ (u.upTo p).count := Nat.le_add_right _ _

/-- With nothing to correct the count gains what passes (R480). -/
theorem TimeU.gain_plain {u : TimeU} (hrate : u.rate = 0) (hfrac : u.frac = 0) (hslow : u.slow = 0) (hhold : u.hold = 0)
    (hslew : u.slewPos = 1000000) (p : Nat) : (u.gain p).1 = p := by
  simp [TimeU.gain, hrate, hfrac, hslow, hhold, hslew]

/-- Settles O34: an edge by the state of the core island and FINE, a miss, SYNC, a slowing, and the count as time passes. -/
theorem timeEdgesSyncAndReads : Obligations.TimeEdgesSyncAndReads := by
  intro s missed past c m b n u hpor hu hc hm hb hn hmissed
  have hedge := exec_timeAlign past hpor
  have hm' : nearestMs c = m := hm.symm
  refine ⟨fun hdue hup hfine => ?fine, fun hdue hup hfine => ?woken, fun hdue hdown => ?down, fun hdue => ?missed, fun hdue => ?noMiss,
    ?sync, ?count, fun h => by rw [exec_timeNowRead h]; rfl⟩
  case fine =>
    subst hc hu
    rw [hedge, State.timeAlign_fine hdue hup hfine]
    rfl
  case woken =>
    rw [hedge, State.timeAlign_woken hdue hup hfine hu, ← hc, hm']
    refine ⟨fun hforward => ?_, fun hback => ?_⟩
    · rw [State.moveCount_forward _ hforward, hc]
      rfl
    · rw [State.moveCount_back _ hback, hc]
      rfl
  case down =>
    rw [hedge]
    refine ⟨fun hforward hnear => ?_, fun hback hnear => ?_, fun hfar => ?_⟩
    · rw [State.timeAlign_snaps hdue hdown hb hn (by rwa [if_pos hforward]), State.moveCount_forward _ hforward, hb]
      rfl
    · rw [State.timeAlign_snaps hdue hdown hb hn (by rwa [if_neg (Nat.not_le.mpr hback)]), State.moveCount_back _ hback]
      rfl
    · rw [State.timeAlign_coarse hdue hdown hb hn (by split <;> omega), hb]
      rfl
  case missed =>
    have hmissed' : missed = s.missed := hmissed
    have hpor' : s.missed.blk.porLow = false := State.missed_porLow hpor
    rw [exec_timeMiss, State.timeMiss_due hdue, hedge, State.timeAlign_missed hdue, hmissed', exec_timeAlign past hpor']
    exact ⟨rfl, rfl⟩
  case noMiss => rw [exec_timeMiss, State.timeMiss_none hdue]
  case sync =>
    refine ⟨s.updateSync_iff, fun hsync => ?_, fun hslow hleft => ?_, fun hlong => ?_⟩
    · rw [exec_timeSync]
      exact congrArg (fun t : State => Host.Outcome.next t.settle)
        (State.updateSync_falls (s := { s with time := { s.time with age := max s.time.age (s.holdover + 1) } }) hsync
          (Nat.lt_of_succ_le (Nat.le_max_right _ _)))
    · rw [exec_slowingEnd, State.slowingEnd_ends hslow hleft]
    · rw [exec_slowingEnd, State.slowingEnd_early hlong]
  case count =>
    subst hb
    refine ⟨s.time.count_le_advance, hc ▸ hu ▸ s.time.count_le_upTo _, fun hrate hfrac hslow hhold hslew => ?_⟩
    exact congrArg (s.time.count + ·) (TimeU.gain_plain hrate hfrac hslow hhold hslew _)

end Sys2Proof.Machine
end

section
/-! PROOFS. The bits of an entropy window, and the two tests of its samples (R450, R453, R454). -/
namespace Sys2Proof.Machine

-- bits of a byte --------------------------------------------------------------------------------------------------------------

/-- The number whose bit `i` is `f i`, for `i` below `n`. -/
def bitSum (f : Nat → Nat) (n : Nat) : Nat := (List.range n).foldl (fun t i => t + f i * 2 ^ i) 0

theorem bitSum_succ (f : Nat → Nat) (n : Nat) : bitSum f (n + 1) = 2 ^ n * f n + bitSum f n := by
  rw [bitSum, List.range_succ, List.foldl_append, List.foldl_cons, List.foldl_nil, ← bitSum, Nat.add_comm, Nat.mul_comm]

section bits
variable {f : Nat → Nat} (hf : ∀ i, f i < 2)
include hf

theorem bitSum_lt (n : Nat) : bitSum f n < 2 ^ n := by
  induction n with
  | zero => exact Nat.one_pos
  | succ n ih =>
    have hbit : 2 ^ n * f n ≤ 2 ^ n * 1 := Nat.mul_le_mul_left _ (Nat.le_of_lt_succ (hf n))
    rw [bitSum_succ, pow_succ]
    omega

theorem bitSum_testBit {n k : Nat} (hk : k < n) : (bitSum f n).testBit k = (f k == 1) := by
  induction n with
  | zero => omega
  | succ n ih =>
    rw [bitSum_succ, Nat.testBit_two_pow_mul_add _ (bitSum_lt hf n)]
    split
    next hlow => exact ih hlow
    next hlow =>
      obtain rfl : k = n := by omega
      have hfk := hf k
      rw [Nat.sub_self]
      interval_cases f k <;> rfl

end bits

/-- The parity of how many elements hold is their exclusive or. -/
theorem foldl_xor_eq_parity {α : Type} (p : α → Bool) (l : List α) (x : Bool) :
    l.foldl (fun x a => x ^^ p a) x = (x ^^ (l.filter p).length % 2 == 1) := by
  induction l generalizing x with
  | nil => simp
  | cons a l ih =>
    rw [List.foldl_cons, ih]
    cases ha : p a
    · simp [ha]
    · have hparity : ((l.filter p).length + 1) % 2 = 1 - (l.filter p).length % 2 := by omega
      have hbit := Nat.mod_lt (l.filter p).length (show 2 > 0 by decide)
      simp only [List.filter_cons, ha, if_true, List.length_cons, hparity]
      interval_cases (l.filter p).length % 2 <;> cases x <;> rfl

theorem windowBytes_length (a b : BitVec 8192) : (windowBytes a b).length = 128 := by simp [windowBytes]

theorem windowBytes_bit (a b : BitVec 8192) {j : Nat} (hj : j < 1024) : ((windowBytes a b).getD (j / 8) 0).getLsbD (j % 8)
    = (List.range 8).foldl (fun x i => x ^^ (a.getLsbD (8 * j + i) ^^ b.getLsbD (8 * j + i))) false := by
  have hbyte : j / 8 < 128 := by omega
  have hbit : j % 8 < 8 := Nat.mod_lt _ (by decide)
  have hindex : 8 * (j / 8) + j % 8 = j := Nat.div_add_mod j 8
  have hget : (windowBytes a b).getD (j / 8) 0 = BitVec.ofNat 8 (bitSum (fun i => ((List.range 8).filter (fun k =>
      a.getLsbD (8 * (8 * (j / 8) + i) + k) != b.getLsbD (8 * (8 * (j / 8) + i) + k))).length % 2) 8) := by
    simp [windowBytes, hbyte, bitSum]
  rw [hget, BitVec.getLsbD_ofNat, bitSum_testBit (fun i => Nat.mod_lt _ (by decide)) hbit, hindex]
  simp only [hbit, decide_true, Bool.true_and, foldl_xor_eq_parity, Bool.false_xor, Bool.bne_eq_xor]

-- the repetition count --------------------------------------------------------------------------------------------------------

/-- Length of the run of equal samples that ends with sample `k`. -/
def runEnd (f : Nat → Bool) : Nat → Nat
  | 0 => 1
  | k + 1 => if f k = f (k + 1) then runEnd f k + 1 else 1

theorem lt_runEnd_iff {f : Nat → Bool} {k c : Nat} : c < runEnd f k ↔ c ≤ k ∧ ∀ j ≤ c, f (k - j) = f k := by
  induction k generalizing c with
  | zero =>
    simp only [runEnd, Nat.lt_one_iff, Nat.le_zero, Nat.zero_sub, implies_true, and_true]
  | succ k ih =>
    cases c with
    | zero =>
      have hpos : 0 < runEnd f (k + 1) := by unfold runEnd; split <;> omega
      simp [hpos]
    | succ c =>
      unfold runEnd
      split
      next hsame =>
        rw [Nat.add_lt_add_iff_right, ih, hsame, Nat.add_le_add_iff_right]
        refine and_congr_right fun _ => ⟨fun h j hj => ?_, fun h j hj => ?_⟩
        · cases j with
          | zero => rfl
          | succ j => simpa using h j (by omega)
        · simpa using h (j + 1) (by omega)
      next hdiff =>
        refine iff_of_false (by omega) fun h => hdiff ?_
        simpa using h.2 1 (by omega)

/-- The longest run is the longest that ends within the samples counted. -/
theorem le_rctF_iff (v : BitVec 8192) (c n i : Nat) (l : Option Bool) (r m : Nat)
    (hstart : (i = 0 ∧ l = none) ∨ ∃ k, i = k + 1 ∧ l = some (v.getLsbD k) ∧ r = runEnd v.getLsbD k) :
    c ≤ (rctF v n i l r m).2.2 ↔ c ≤ m ∨ ∃ k, i ≤ k ∧ k < i + n ∧ c ≤ runEnd v.getLsbD k := by
  induction n generalizing i l r m with
  | zero =>
    refine (or_iff_left ?_).symm
    rintro ⟨k, hik, hki, -⟩
    omega
  | succ n ih =>
    have hrun : (if l = some (v.getLsbD i) then r + 1 else 1) = runEnd v.getLsbD i := by
      rcases hstart with ⟨rfl, rfl⟩ | ⟨k, rfl, rfl, rfl⟩
      · rfl
      · simp only [runEnd, Option.some.injEq]
    rw [rctF, hrun, ih _ _ _ _ (.inr ⟨i, rfl, rfl, rfl⟩), le_max_iff, or_assoc]
    refine or_congr_right ⟨?_, ?_⟩
    · rintro (hc | ⟨k, hik, hk, hc⟩)
      · exact ⟨i, le_rfl, by omega, hc⟩
      · exact ⟨k, by omega, by omega, hc⟩
    · rintro ⟨k, hik, hk, hc⟩
      obtain rfl | hlt := hik.eq_or_lt
      · exact .inl hc
      · exact .inr ⟨k, hlt, by omega, hc⟩

/-- A run of `c + 1` equal samples among the first `n` starts somewhere just where it ends somewhere. -/
theorem exists_run_iff {f : Nat → Bool} {n c : Nat} :
    (∃ k, 0 ≤ k ∧ k < 0 + n ∧ c < runEnd f k) ↔ ∃ i, i + (c + 1) ≤ n ∧ ∀ j < c + 1, f (i + j) = f i := by
  simp only [lt_runEnd_iff]
  constructor
  · rintro ⟨k, -, hk, hck, hsame⟩
    refine ⟨k - c, by omega, fun j hj => ?_⟩
    rw [hsame c le_rfl, ← hsame (c - j) (by omega)]
    congr 1
    omega
  · rintro ⟨i, hi, hsame⟩
    refine ⟨i + c, by omega, by omega, by omega, fun j hj => ?_⟩
    rw [hsame c (by omega), ← hsame (c - j) (by omega)]
    congr 1
    omega

theorem rctF_window (v : BitVec 8192) {c : Nat} (hc : 0 < c) (r : Nat) :
    (rctF v 8192 0 none r 0).2.2 < c ↔ ¬ ∃ i, i + c ≤ 8192 ∧ ∀ j < c, v.getLsbD (i + j) = v.getLsbD i := by
  obtain ⟨c, rfl⟩ := Nat.exists_eq_add_of_lt hc
  rw [Nat.zero_add, ← not_le, le_rctF_iff v (c + 1) 8192 0 none r 0 (.inl ⟨rfl, rfl⟩), ← exists_run_iff]
  simp only [Nat.succ_le_iff, Nat.not_lt_zero, false_or]

theorem State.windowTests_passed (s : State) (x : Src) (v : BitVec 8192) : (s.windowTests x v).1
    = (decide ((rctF v 8192 0 x.last x.run 0).2.2 < s.rctCutoff) && (List.range 8).all (fun w => decide (aptCount v w < s.aptCutoff))) := by
  unfold State.windowTests
  generalize rctF v 8192 0 x.last x.run 0 = p
  rfl

/-- Settles O35: the byte's bits one by one; the repetition count is the longest run, the proportion count is taken as stated. -/
theorem entropyWindowBitsAndTests : Obligations.EntropyWindowBitsAndTests := by
  refine ⟨fun a b j hj => ⟨windowBytes_length a b, windowBytes_bit a b hj⟩, fun s x v hlast => ?_⟩
  have hcutoff : 0 < s.rctCutoff := lt_of_lt_of_le (by decide) (Nat.le_max_left 32 _)
  rw [State.windowTests_passed, hlast, Bool.and_eq_true, decide_eq_true_iff, rctF_window v hcutoff]
  refine and_congr Iff.rfl ?_
  simp only [List.all_eq_true, List.mem_range, decide_eq_true_eq]
  rfl

end Sys2Proof.Machine
end

section
/-! PROOFS. Entropy windows: what a window that passes does to the palette, and what one that fails does to its sources (R451, R456, R462,
R463, R468, R469, R474). -/
namespace Sys2Proof.Machine

theorem exec_entropyWindowEnd (k : Nat) (jit met : SourceWindow) (s : State) : exec (.entropyWindowEnd k jit met) s
    = .next (s.windowEnd k jit.bits met.bits jit.pos.toNat met.pos.toNat).settle := rfl

/-- The runs of identical samples go on in both sources of the lane. -/
def State.windowTested (s : State) (a b : Nat) (jit met : BitVec 8192) : State :=
  (s.setSource a (s.windowTests (s.source a) jit).2).setSource b (s.windowTests (s.source b) met).2

theorem State.setSources_ent (s : State) (a b : Nat) (x y : Src) :
    ((s.setSource a x).setSource b y).ent = { s.ent with src := ((s.setSource a x).setSource b y).ent.src } := rfl

section lane
variable {s : State} {k a b : Nat} (hlive : s.live = true) (hproduces : s.laneProduces k = true) (hisland : s.islandUp 11 = true)
  (hclk : s.clkOk 7 = true) (hsources : s.laneSources k = some (a, b))
include hlive hproduces hisland hclk hsources

/-- Both sources pass: the window passes. -/
theorem State.windowEnd_passes {jit met : BitVec 8192} (pj pm : Nat) (hjit : (s.windowTests (s.source a) jit).1 = true)
    (hmet : (s.windowTests (s.source b) met).1 = true) :
    s.windowEnd k jit met pj pm = (s.windowTested a b jit met).windowPass (windowBytes jit met) := by
  rw [State.windowEnd, if_neg (by simp [hlive, hproduces, hisland, hclk]), hsources]
  dsimp only
  rw [if_pos ⟨hjit, hmet⟩, State.windowTested]

/-- A source fails: the window is discarded, and each source that failed fails at its sample. -/
theorem State.windowEnd_fails {jit met : BitVec 8192} (pj pm : Nat)
    (hfail : ¬ ((s.windowTests (s.source a) jit).1 = true ∧ (s.windowTests (s.source b) met).1 = true)) :
    s.windowEnd k jit met pj pm
      = (let t := s.windowTested a b jit met
         let u := if (s.windowTests (s.source a) jit).1 = true then t.discardWindow
           else (t.discardWindow.capture (0x60 + a)).recover
             (fun x => x.sourceFails a (t.sampleNo a pj - (8191 - s.failedAt (s.source a) jit)))
         if (s.windowTests (s.source b) met).1 = true then u
           else (u.capture (0x60 + b)).recover (fun x => x.sourceFails b (t.sampleNo b pm - (8191 - s.failedAt (s.source b) met)))) := by
  rw [State.windowEnd, if_neg (by simp [hlive, hproduces, hisland, hclk]), hsources]
  dsimp only
  rw [if_neg hfail, State.windowTested]

end lane

-- a window that passes --------------------------------------------------------------------------------------------------------

section pass
variable {t : State} {w : Bytes} (hraw : t.ent.raw = false)

theorem State.windowPass_raw (h : t.ent.raw = true) : t.windowPass w = t := if_pos h

include hraw in
theorem State.windowPass_held (hstarting : t.ent.starting = true) (hwaits : t.startPassed = false) :
    t.windowPass w = { t with ent := { t.ent with held := t.ent.held ++ [w] } } :=
  (if_neg (by simp [hraw])).trans (if_pos ⟨hstarting, by simp [hwaits]⟩)

include hraw in
theorem State.windowPass_released (hstarting : t.ent.starting = false) (hheld : t.ent.held = []) : t.windowPass w = t.releaseWindows [w] := by
  rw [State.windowPass, if_neg (by simp [hraw]), if_neg (by simp [hstarting]), hheld, List.nil_append]

/-- The windows that the palette has room for are appended to it and counted (R462, R463). -/
theorem State.releaseWindows_on {ws taken : List Bytes} (hstarting : t.ent.starting = false) (hheld : t.ent.held = [])
    (hwarm : t.ent.state ≠ 1) (hstopped : t.ent.state ≠ 4) (htaken : taken = ws.take (60 - t.ent.pal.length)) :
    t.releaseWindows ws = { t with ent := { t.ent with pal := t.ent.pal ++ taken } }.setReg .entWindowCount 0 0
      (t.reg .entWindowCount + BitVec.ofNat 32 taken.length) := by
  subst htaken
  have hent : ({ t.ent with pal := t.ent.pal ++ ws.take (60 - t.ent.pal.length), held := [], starting := false } : Ent)
      = { t.ent with pal := t.ent.pal ++ ws.take (60 - t.ent.pal.length) } := by rw [← hheld, ← hstarting]
  rw [State.releaseWindows, hent]
  exact if_neg (by rw [State.setReg_ent]; exact not_or.mpr ⟨hwarm, hstopped⟩)

end pass

/-- Settles O36: both sources pass and the window is dropped, held or released; or the lane's window is discarded with its source. -/
theorem entropyWindowsReleasedOrDiscarded : Obligations.EntropyWindowsReleasedOrDiscarded := by
  intro s t u k a b na nb jit met pj pm hlive hproduces hisland hclk hsources ht hu hna hnb
  have htested : s.windowTested a b jit met = t := ht.symm
  have hdiscard : t.discardWindow = u := hu.symm
  have hstep : exec (.entropyWindowEnd k ⟨jit, pj⟩ ⟨met, pm⟩) s = .next (s.windowEnd k jit met pj.toNat pm.toNat).settle := rfl
  have hfails := State.windowEnd_fails hlive hproduces hisland hclk hsources (jit := jit) (met := met) pj.toNat pm.toNat
  simp only [htested, hdiscard, ← hna, ← hnb] at hfails
  have hent : t.ent = { s.ent with src := t.ent.src } := ht ▸ State.setSources_ent s a b _ _
  refine ⟨fun hjit hmet => ?pass, fun hjit hmet => ?jitter, fun hjit hmet => ?metastable, fun hjit hmet => ?both⟩
  case pass =>
    have hpass := State.windowEnd_passes hlive hproduces hisland hclk hsources pj.toNat pm.toNat hjit hmet
    rw [htested] at hpass
    rw [hstep, hpass]
    refine ⟨fun hraw => ?raw, fun hraw hstarting hwaits => ?held, fun hraw hstarting hheld hwarm hstopped => ?released⟩
    case raw => rw [State.windowPass_raw (by rwa [hent])]
    case held => rw [State.windowPass_held (by rwa [hent]) (by rwa [hent]) hwaits]
    case released =>
      have hpal : t.ent.pal = s.ent.pal := by rw [hent]
      rw [State.windowPass_released (by rwa [hent]) (by rwa [hent]) (by rwa [hent]),
        State.releaseWindows_on (by rwa [hent]) (by rwa [hent]) (by rwa [hent]) (by rwa [hent]) rfl, hpal]
      refine ⟨fun hroom => ?_, fun hfull => ⟨_, rfl, ?_, ?_⟩⟩
      · have hone : [windowBytes jit met].take (60 - s.ent.pal.length) = [windowBytes jit met] :=
          List.take_of_length_le (by simp only [List.length_singleton]; omega)
        rw [hone]
        rfl
      · simp only [State.setReg_ent, hfull, Nat.sub_self, List.take_zero, List.append_nil]
        rw [← hpal]
      · rw [State.reg_setReg_self, hfull, ht]
        simp
  case jitter => rw [hstep, hfails (by simp [hjit]), hjit, hmet, if_neg Bool.false_ne_true, if_pos rfl]
  case metastable => rw [hstep, hfails (by simp [hmet]), hjit, hmet, if_pos rfl, if_neg Bool.false_ne_true]
  case both => rw [hstep, hfails (by simp [hjit]), hjit, hmet, if_neg Bool.false_ne_true, if_neg Bool.false_ne_true]

end Sys2Proof.Machine
end

section
/-! PROOFS. Noise sources: they start, fail and restart, retire at the third failure, and report their estimates (R453, R455, R457 to
R460, R468, R477). -/
namespace Sys2Proof.Machine

theorem exec_sourceStartupPass (i : Nat) (s : State) : exec (.sourceStartupPass i) s = .next (s.startupPass i).settle := rfl

theorem exec_sourceHealthFail (i : Nat) (pos : BitVec 16) (s : State) :
    exec (.sourceHealthFail ⟨i, pos⟩) s = .next (s.healthFail i ((s.source i).pos * 65536 + pos.toNat)).settle := rfl

theorem exec_estimatePeriodEnd (i n1 neq maxrun aptmax : Nat) (s : State) :
    exec (.estimatePeriodEnd i n1 neq maxrun aptmax) s = .next (s.periodEnd i n1 neq maxrun aptmax).settle := rfl

theorem exec_entropyStartTimeout (s : State) : exec .entropyStartTimeout s = .next s.startTimeout.settle := rfl

-- a retired source ------------------------------------------------------------------------------------------------------------

/-- Source `i` is retired, in the retirement map and in its own state. -/
def State.SourceRetired (i : Nat) (s : State) : Prop := s.retired (19 + i) = true ∧ (s.source i).state = .retired

section retired
variable {i : Nat} {s t : State} (hs : s.SourceRetired i)
include hs

theorem State.SourceRetired.congr (hflt : t.flt.retired = s.flt.retired) (hsrc : t.ent.src = s.ent.src) : t.SourceRetired i := by
  obtain ⟨hretired, hstate⟩ := hs
  refine ⟨?_, ?_⟩
  · rw [State.retired, hflt]
    exact hretired
  · rw [State.source, hsrc]
    exact hstate

/-- A change of another source, or one of this source that leaves its state. -/
theorem State.SourceRetired.setSource (j : Nat) {x : Src} (hx : j = i → x.state = .retired) : (s.setSource j x).SourceRetired i := by
  obtain ⟨hretired, hstate⟩ := hs
  refine ⟨hretired, ?_⟩
  by_cases h : i = j
  · subst h
    rw [State.source_setSource_self]
    exact hx rfl
  · rwa [State.source_setSource_ne s x h]

theorem State.SourceRetired.seam (j : Nat) : (s.seam j).SourceRetired i := hs.setSource j fun h => h ▸ hs.2

theorem State.SourceRetired.startSource (j : Nat) : (s.startSource j).SourceRetired i := by
  unfold State.startSource
  split
  next => exact hs
  next hstarts => exact hs.setSource j fun h => absurd (.inl (h ▸ hs.1)) hstarts

theorem State.SourceRetired.foldl {α : Type} {f : State → α → State} (hf : ∀ u x, State.SourceRetired i u → State.SourceRetired i (f u x))
    (l : List α) : (l.foldl f s).SourceRetired i := by
  induction l generalizing s with
  | nil => exact hs
  | cons x l ih => exact ih (hf s x hs)

theorem State.SourceRetired.islWake (j : Nat) : (s.islWake j).SourceRetired i :=
  hs.congr (s.islWake_field (fun u => u.flt.retired) (fun _ _ => rfl) j) (s.islWake_field (fun u => u.ent.src) (fun _ _ => rfl) j)

omit hs in
theorem State.releaseWindows_src (s : State) (ws : List Bytes) : (s.releaseWindows ws).ent.src = s.ent.src := by
  simp only [State.releaseWindows]
  split <;> simp

omit hs in
theorem State.releaseWindows_flt (s : State) (ws : List Bytes) : (s.releaseWindows ws).flt = s.flt := by
  simp only [State.releaseWindows]
  split <;> simp

/-- A start of entropy passes a retired source by (R455). -/
theorem State.SourceRetired.warmup : s.usable.enterWarmup.SourceRetired i := by
  have hblk := (hs.congr (t := s.usable) (by rw [State.usable_flt]) (by unfold State.usable; split <;> rfl))
  refine State.SourceRetired.congr (s := (List.range 8).foldl State.startSource (((List.range 11).foldl State.islWake
    { s.usable with blk := { s.usable.blk with phase := 5, toTest := s.usable.testUnits.flatMap (fun u => [(u, 1), (u, 2)]) } }).islWake 11))
    ?_ rfl rfl
  refine (State.SourceRetired.islWake (State.SourceRetired.foldl ?_ (fun u x hu => hu.islWake x) _) 11).foldl (fun u x hu => hu.startSource x) _
  exact hblk.congr rfl rfl

end retired

theorem tallyInv_sourceRetired (i : Nat) : TallyInv (State.SourceRetired i) where
  captured _ _ hs := hs
  port _ _ hs := hs
  frozen _ hs := hs
  tly _ _ _ hs := hs
  fns _ _ hs := hs
  gen _ _ _ hs := hs
  warmup _ hs := hs.warmup

section retired
variable {i : Nat} {s : State} (hs : s.SourceRetired i)
include hs

theorem State.SourceRetired.entUpdate : s.entUpdate.SourceRetired i := by
  unfold State.entUpdate
  split_ifs
  · exact hs
  · exact hs
  · refine (tallyInv_sourceRetired i).capture ?_ ..
    exact hs.congr rfl rfl
  · exact hs
  · exact hs.congr rfl rfl

theorem State.SourceRetired.tryRelease : s.tryRelease.SourceRetired i := by
  unfold State.tryRelease
  split
  · exact hs.congr (by rw [State.releaseWindows_flt]) (State.releaseWindows_src ..)
  · exact hs

end retired

/-- The retirement of a source in its retired state (R458, R504). -/
theorem State.SourceRetired.markRetired {i : Nat} {s : State} (hi : i < 8) (hin : s.retired (19 + i) = false)
    (hstate : (s.source i).state = .retired) : (s.markRetired (19 + i)).SourceRetired i := by
  have hbit : (s.flt.retired ||| BitVec.ofNat 27 (2 ^ (19 + i))).getLsbD (19 + i) = true := by
    have hlow : 19 + i < 27 := by omega
    rw [BitVec.getLsbD_or, BitVec.getLsbD_ofNat, Nat.testBit_two_pow_self, decide_eq_true hlow, Bool.and_self, Bool.or_true]
  unfold State.markRetired
  rw [if_neg (Bool.eq_false_iff.mp hin)]
  refine (tallyInv_sourceRetired i).capture ((tallyInv_sourceRetired i).write ?_ ..) ..
  exact ⟨hbit, hstate⟩

theorem State.retireSource_retired {i : Nat} {s : State} (hi : i < 8) (hin : s.retired (19 + i) = false) : (s.retireSource i).SourceRetired i := by
  have hmarked := State.SourceRetired.markRetired (s := s.setSource i { s.source i with state := .retired, recent := [], awaited := false }) hi
    (by simpa [State.retired] using hin) (by simp)
  exact (hmarked.foldl (fun u j hu => hu.seam j) _).entUpdate.tryRelease

-- a failure -------------------------------------------------------------------------------------------------------------------

/-- A source that fails restarts, its lane pauses, and the failure is noted (R457, R458). -/
def State.restarting (s : State) (i n : Nat) : State :=
  (match s.partnerOf i with | some j => s.seam j | none => s).setSource i
    { s.source i with state := .restarting, fails := min ((s.source i).fails + 1) 0xFFFF
                      recent := (s.source i).recentFails n ++ [n], last := none, run := 0, alarm := false }

theorem State.restarting_retired (s : State) (i n u : Nat) : (s.restarting i n).retired u = s.retired u := by
  unfold State.restarting
  split <;> rfl

section failure
variable {s : State} {i n : Nat} (hruns : (s.source i).runs = true)
include hruns

section unretired
variable (hin : s.retired (19 + i) = false)
include hin

theorem State.sourceFails_again (hfew : ((s.source i).recentFails n).length < 2) : s.sourceFails i n = (s.restarting i n).entUpdate := by
  rw [State.sourceFails, if_neg (by simp [hruns, hin])]
  exact if_neg (Nat.not_le.mpr hfew)

theorem State.sourceFails_third (hmany : 2 ≤ ((s.source i).recentFails n).length) : s.sourceFails i n = (s.restarting i n).retireSource i := by
  rw [State.sourceFails, if_neg (by simp [hruns, hin])]
  exact if_pos hmany

end unretired

variable (hlive : s.live = true) (hi : i < 8)
include hlive hi

theorem State.healthFail_alone (hlane : s.laneOfSource i = none) : s.healthFail i n = s.sourceFails i n := by
  rw [State.healthFail, if_neg (by simp [hlive, hruns, hi]), hlane]

theorem State.healthFail_onLane {k : Nat} (hlane : s.laneOfSource i = some k) :
    s.healthFail i n = (s.discardWindow.capture (0x60 + i)).recover (fun s => s.sourceFails i n) := by
  rw [State.healthFail, if_neg (by simp [hlive, hruns, hi]), hlane]

end failure

-- estimates -------------------------------------------------------------------------------------------------------------------

/-- The word that shows a Q1.15 estimate: 16 bits in two's complement. -/
def estimateWord (n : Nat) : Word := BitVec.ofNat 32 (BitVec.ofInt 16 (q15 n)).toNat

theorem estimateWord_toInt {n : Nat} (h : n ≤ 65536) :
    (estimateWord n).toInt = (if n < 32768 then 65536 else 0) + min ((n : Int) - 32768) 32767 := by
  have hsmall := (BitVec.ofInt 16 (q15 n)).isLt
  rw [BitVec.toInt_eq_toNat_of_lt (by rw [estimateWord, BitVec.toNat_ofNat]; omega), estimateWord, BitVec.toNat_ofNat,
    Nat.mod_eq_of_lt (by omega), BitVec.toNat_ofInt, q15]
  split <;> omega

/-- The registers of a source at the end of a period (R459). -/
def State.estimated (s : State) (i n1 neq maxrun aptmax : Nat) : State :=
  (((s.setReg .entSrcBias i 0 (estimateWord n1)).setReg .entSrcCorr i 0 (estimateWord neq)).setReg .entSrcMaxrun i 0
    (BitVec.ofNat 32 (min maxrun 0xFFFF))).setReg .entSrcAptmax i 0 (BitVec.ofNat 32 (aptmax % 2048))

/-- The source with one more period ended. -/
def Src.nextPeriod (x : Src) : Src := { x with pos := x.pos + 1, recent := x.recentFails (65536 * (x.pos + 1)) }

theorem State.estimated_reg (s : State) (i n1 neq maxrun aptmax : Nat) (m : RegName) : (s.estimated i n1 neq maxrun aptmax).reg m i
    = if m = .entSrcAptmax then BitVec.ofNat 32 (aptmax % 2048) else if m = .entSrcMaxrun then BitVec.ofNat 32 (min maxrun 0xFFFF)
      else if m = .entSrcCorr then estimateWord neq else if m = .entSrcBias then estimateWord n1 else s.reg m i := by
  simp only [State.estimated, State.setReg_reg_sameIndex]

/-- Two registers of different names, at indexes within their fields, have different keys. -/
theorem regKey_ne {n m : RegName} {i j a b : Nat} (h : n ≠ m) (hi : i * 0x4000 + j < 0x100000) (ha : a * 0x4000 + b < 0x100000) :
    regKey n i j ≠ regKey m a b := by
  intro hkey
  have hctor : n.ctorIdx = m.ctorIdx := by simp only [regKey] at hkey; omega
  exact h (by rw [← RegName.ofNat_ctorIdx n, hctor, RegName.ofNat_ctorIdx])

theorem State.estimated_limit (s : State) {i : Nat} (hi : i < 8) (n1 neq maxrun aptmax : Nat) :
    (s.estimated i n1 neq maxrun aptmax).reg .entEst = s.reg .entEst := by
  have hother (t : State) {n : RegName} (h : .entEst ≠ n) (v : Word) : (t.setReg n i 0 v).reg .entEst = t.reg .entEst :=
    State.reg_setReg_ne t v (regKey_ne h (by norm_num) (by omega))
  rw [State.estimated, hother, hother, hother, hother] <;> nofun

/-- A source whose estimate reaches the limit of ENT_EST raises the alarm, and fails at the last sample of its period (R460). -/
def State.alarmed (s : State) (i pos : Nat) : State :=
  (s.healthFail i (65536 * pos - 1)).setSource i { (s.healthFail i (65536 * pos - 1)).source i with alarm := true }

section period
variable {s : State} {i n1 neq maxrun aptmax limit : Nat} (hlive : s.live = true) (hi : i < 8) (hruns : (s.source i).runs = true)
include hlive hi hruns

theorem State.periodEnd_eq (hlimit : fld (s.reg .entEst) 15 0 = limit) : s.periodEnd i n1 neq maxrun aptmax
    = (if limit ≠ 0 ∧ (limit ≤ (q15 n1).natAbs ∨ limit ≤ (q15 neq).natAbs) then
        ((s.estimated i n1 neq maxrun aptmax).setSource i (s.source i).nextPeriod).alarmed i ((s.source i).pos + 1)
       else (s.estimated i n1 neq maxrun aptmax).setSource i (s.source i).nextPeriod) := by
  have hreg : ((s.estimated i n1 neq maxrun aptmax).setSource i (s.source i).nextPeriod).reg .entEst = s.reg .entEst := by
    rw [State.setSource_reg, s.estimated_limit hi]
  rw [State.periodEnd, if_neg (by simp [hlive, hruns, hi]), ← hlimit, ← hreg]
  rfl

end period

-- the end of the start --------------------------------------------------------------------------------------------------------

/-- No source is awaited and no window is held: the start ends in STOPPED (R468). -/
theorem State.startTimeout_stops {s : State} (hlive : s.live = true) (hstarting : s.ent.starting = true) (hraw : s.ent.raw = false)
    (hnone : ∀ j < 8, (s.source j).awaited = false) (hheld : s.ent.held = []) :
    s.startTimeout = ({ s with ent := { s.ent with starting := false, state := 4 } } : State).entUpdate := by
  have hlate : (List.range 8).filter (fun j => (s.source j).awaited) = [] :=
    List.filter_eq_nil_iff.mpr fun j hj => by simp [hnone j (List.mem_range.mp hj)]
  have hrelease : s.tryRelease = s := if_neg (by simp [hheld])
  rw [State.startTimeout, if_neg (by simp [hlive, hstarting, hraw]), hlate]
  simp only [List.foldl_nil, hrelease, hstarting, not_true_eq_false, if_false]

/-- Settles O37: a pass of the start-up tests, a failure by the failures before it and by the lane, the end of a period, and of the start. -/
theorem entropySourcesStartFailAndRetire : Obligations.EntropySourcesStartFailAndRetire := by
  rintro s b i n pos x hlive hi rfl
  refine ⟨fun henable hstarts => ?pass, fun hruns hin hn => ⟨fun hlane hb => ⟨fun hfew => ?again, fun hmany => ⟨_, ?third, rfl, ?retired⟩⟩,
    fun k hlane => ?onLane⟩, fun n1 neq maxrun aptmax hruns hn1 hneq hmaxrun haptmax => ⟨fun hoff => ?period, fun hon hreached => ?alarm⟩,
    fun hstarting hraw hnone hheld => ?start⟩
  case pass =>
    rw [exec_sourceStartupPass]
    refine congrArg (fun t : State => Host.Outcome.next t.settle) (if_neg ?_)
    simp [hlive, henable, hi, hstarts]
  case again =>
    rw [exec_sourceHealthFail, ← hn, State.healthFail_alone hruns hlive hi hlane, State.sourceFails_again hruns hin hfew, hb]
    rfl
  case third =>
    rw [exec_sourceHealthFail, ← hn, State.healthFail_alone hruns hlive hi hlane, State.sourceFails_third hruns hin hmany, hb]
    rfl
  case retired =>
    have hin' : b.retired (19 + i) = false := by
      rw [hb]
      exact (s.restarting_retired i n (19 + i)).trans hin
    exact State.retireSource_retired hi hin'
  case onLane => rw [exec_sourceHealthFail, ← hn, State.healthFail_onLane hruns hlive hi hlane, State.discardWindow]
  case period =>
    refine ⟨(s.estimated i n1 neq maxrun aptmax).setSource i (s.source i).nextPeriod, ?_, ?_, ?_, ?_, ?_, State.source_setSource_self ..⟩
    · rw [exec_estimatePeriodEnd, State.periodEnd_eq hlive hi hruns hoff, if_neg fun h => h.1 rfl]
    · simpa [State.estimated_reg] using estimateWord_toInt hn1
    · simpa [State.estimated_reg] using estimateWord_toInt hneq
    · simp [State.estimated_reg]
    · simp [State.estimated_reg]
      omega
  case alarm =>
    refine ⟨((s.estimated i n1 neq maxrun aptmax).setSource i (s.source i).nextPeriod).alarmed i ((s.source i).pos + 1), ?_, ?_⟩
    · rw [exec_estimatePeriodEnd, State.periodEnd_eq hlive hi hruns rfl]
      exact congrArg (fun t : State => Host.Outcome.next t.settle) (if_pos ⟨hon, hreached⟩)
    · rw [State.alarmed, State.source_setSource_self]
  case start => rw [exec_entropyStartTimeout, State.startTimeout_stops hlive hstarting hraw hnone hheld]

end Sys2Proof.Machine
end

section
/-! PROOFS. A turn of the palette: the oldest bytes, in order, go to the request whose turn it is (R465, R471). -/
namespace Sys2Proof.Machine

theorem State.palBytes_eq (s : State) : s.palBytes = s.ent.pal.flatten.length := by
  rw [State.palBytes, List.length_flatten, List.sum_eq_foldl]

theorem palDrop_flatten (n : Nat) (l : List Bytes) : (palDrop n l).flatten = l.flatten.drop n := by
  induction l generalizing n with
  | nil => simp [palDrop]
  | cons w l ih =>
    rw [palDrop, List.flatten_cons, List.drop_append]
    split
    next hwhole => rw [ih, List.drop_eq_nil_of_le hwhole, List.nil_append]
    next hpart => rw [List.flatten_cons, Nat.sub_eq_zero_of_le (Nat.le_of_not_le hpart), List.drop_zero]

theorem State.entNeed_fill (s : State) {r : Req} (hop : dOp r.d = 0x70) : s.entNeed r = dLen r.d := by simp only [State.entNeed, hop, if_true]

/-- The state once request `r` has taken `k` bytes in its turn. -/
def State.turnTaken (s : State) (r : Req) (k : Nat) : State :=
  { s with ent := { s.ent with pal := palDrop k s.ent.pal, palOff := palOffAfter k s.ent.palOff s.ent.pal, turn := r.adm } }

/-- A RANDOM_FILL with `b` behind the bytes that it has. -/
def Req.filled (r : Req) (b : Bytes) : Req := { r with got := r.got ++ b }

section turn
variable {s : State} {r : Req} {k : Nat} {b : Bytes}

/-- A turn of a RANDOM_FILL whose destination may be written: its bytes are written, and with the last one it commits (R471). -/
theorem State.serveOne_fill (hraw : s.ent.state ≠ 6) (hbytes : s.palBytes ≠ 0) (hturn : s.entTurn = some r) (hop : dOp r.d = 0x70)
    (hk : k = min (min 64 (dLen r.d - r.got.length)) s.palBytes) (hb : b = s.ent.pal.flatten.take k)
    (hdst : (s.turnTaken r k).dstFail r r.got.length b.length = none) :
    s.serveOne = some
      (let full := decide (dLen r.d ≤ (r.filled b).got.length)
       let u := (((s.turnTaken r k).setReq { r.filled b with written := (r.filled b).got.length, entWaits := !full }).writeData
        (r.filled b) r.got.length b)
       if full = true then u.commit { r.filled b with written := (r.filled b).got.length, outBytes := (r.filled b).got.length } stOk 0 else u) := by
  have hserves : ¬ ((s.ent.state == 6) = true ∨ s.palBytes = 0) := by simp [hraw, hbytes]
  subst hb hk
  rw [State.serveOne, if_neg hserves, hturn]
  simp only [State.entNeed_fill s hop, State.palTake, hop, if_true]
  split
  next x hx => exact absurd (hdst.symm.trans hx) nofun
  next =>
    simp only [decide_eq_true_eq]
    rfl

end turn

/-- Settles O55: the turn takes at most 64 of the oldest bytes; with the last one the request is full and commits. -/
theorem entropyTurnFillsTheRequest : Obligations.EntropyTurnFillsTheRequest := by
  intro s t r k hraw hturn hop hneed hk hpos ht
  have htaken : t = s.turnTaken r k := ht
  have hlength : (s.ent.pal.flatten.take k).length = k := by
    rw [List.length_take, ← State.palBytes_eq]
    omega
  have hgot : (r.filled (s.ent.pal.flatten.take k)).got.length = r.got.length + k := by rw [Req.filled, List.length_append, hlength]
  refine ⟨hlength, palDrop_flatten k _, fun hdst hpart => ⟨_, rfl, ?part⟩, fun hdst hfull => ⟨_, rfl, ?full⟩⟩
  case part =>
    have hnot : ¬ dLen r.d ≤ r.got.length + k := by omega
    rw [State.serveOne_fill hraw (by omega) hturn hop hk rfl (by rwa [hlength, ← htaken])]
    simp only [hgot, hnot, decide_false, Bool.false_eq_true, if_false, Bool.not_false, ← htaken]
    rfl
  case full =>
    rw [State.serveOne_fill hraw (by omega) hturn hop hk rfl (by rwa [hlength, ← htaken])]
    simp only [hgot, hfull, le_refl, decide_true, if_true, Bool.not_true, ← htaken]
    rfl

end Sys2Proof.Machine
end

section
/-! PROOFS. Readers of entropy, enable, disable and raw mode (R465, R466, R468, R469, R473 to R475). -/
namespace Sys2Proof.Machine

theorem exec_entropyWaitTimeout (id : Nat) (s : State) : exec (.entropyWaitTimeout id) s = .next (s.waitTimeout id).settle := rfl

theorem exec_entWordTimeout (s : State) : exec .entWordTimeout s = .next (s.entWordEnd 1).settle := rfl

theorem exec_entWord {s : State} (h : s.Open) (f : Nat) : exec (.entWord f) s = .next (s.entWordRead f).settle := by
  refine congrArg (fun t : State => Host.Outcome.next t.settle) ?_
  rw [State.get_open h, State.doRead, if_neg (by simp [State.readable_open h])]

theorem exec_entropyEnable (s : State) : exec .entropyEnable s = .next (s.mgmt (s.writeEntCtrl 0x80000000)).settle := rfl

theorem exec_entropyDisable (s : State) : exec .entropyDisable s = .next (s.mgmt (s.writeEntCtrl 0)).settle := rfl

theorem exec_rawModeEnter (sel : BitVec 4) (s : State) :
    exec (.rawModeEnter sel) s = .next (s.mgmt (s.writeRawCtrl (0x80000000 ||| BitVec.ofNat 32 sel.toNat))).settle := rfl

theorem exec_rawModeExit (sel : BitVec 4) (s : State) :
    exec (.rawModeExit sel) s = .next (s.mgmt (s.writeRawCtrl (0x40000000 ||| BitVec.ofNat 32 sel.toNat))).settle := rfl

theorem exec_rawCaptureBeat (data : BitVec 256) (s : State) : exec (.rawCaptureBeat data) s = .next (s.rawBeat data).settle := rfl

-- readers ---------------------------------------------------------------------------------------------------------------------

theorem State.waitTimeout_ends {s : State} {id : Nat} {r : Req} (hreq : s.req id = some r) (hlive : s.live = true) (hwaits : r.entWaits = true)
    (hnone : s.palBytes = 0) : s.waitTimeout id = s.fail r stEntropyUnavailable 0 := by
  simp [State.waitTimeout, hreq, hlive, hwaits, hnone]

theorem State.entWordEnd_stalled {s : State} {f : Nat} (h : s.port.stall = some (.entWord f)) (reason : Nat) :
    s.entWordEnd reason = { s.entEmpty f reason with port := { s.port with stall := none, code := 0, data := 0 } } := by
  have hkept : (s.entEmpty f reason).port = s.port := by simp [State.entEmpty]
  rw [State.entWordEnd, h]
  dsimp only
  rw [State.endStall, hkept, h]

/-- A palette that no injection is armed on is read as it is (R514). -/
theorem State.palStrike_unarmed {s : State} (h : s.armedChecker ≠ some 0x69) : s.palStrike = s := by
  have hnone : s.wordStrike 0x69 = none := if_neg h
  simp only [State.palStrike, State.singleStrike, hnone, reduceCtorEq, if_false, ite_self]

section entWord
variable {s : State} {f : Nat} {w : Bytes} {rest : List Bytes} (hpal : s.ent.pal = w :: rest) (hlong : 4 < w.length)
include hpal hlong

theorem State.palTake_word : s.palTake 4
    = ({ s with ent := { s.ent with pal := w.drop 4 :: rest, palOff := s.ent.palOff + 4 } }, w.take 4) := by
  have hpart : ¬ w.length ≤ 4 := Nat.not_le.mpr hlong
  have hfirst : (w ++ rest.flatten).take 4 = w.take 4 := List.take_append_of_le_length hlong.le
  rw [State.palTake, hpal, List.flatten_cons, hfirst, palDrop, if_neg hpart, palOffAfter, if_neg hpart]

theorem State.four_le_palBytes : 4 ≤ s.palBytes := by
  rw [State.palBytes_eq, hpal, List.flatten_cons, List.length_append]
  omega

/-- A stalled read of ENT_WORD takes the oldest four bytes (R465, R469). -/
theorem State.entRead_taken (hstall : s.port.stall = some (.entWord f)) (hunarmed : s.armedChecker ≠ some 0x69) : s.entRead
    = { s.setFn f { s.fn f with entStatus := BitVec.ofNat 32 (((s.fn f).entStatus.toNat + 1) % 0x10000) } with
        ent := { s.ent with pal := w.drop 4 :: rest, palOff := s.ent.palOff + 4 }
        port := { s.port with stall := none, code := 0, data := BitVec.ofNat 32 (leNat (w.take 4)) } } := by
  have hfour : ¬ s.palBytes < 4 := Nat.not_lt.mpr (State.four_le_palBytes hpal hlong)
  rw [State.entRead, hstall]
  dsimp only
  rw [if_neg hfour, State.palStrike_unarmed hunarmed, State.entStall, hstall]
  dsimp only
  rw [if_neg hfour, State.palTake_word hpal hlong]
  dsimp only
  rw [State.endStall, State.setFn_port, hstall]
  rfl

theorem State.entWordRead_taken (henabled : (s.fn f).enabled = true) (hunarmed : s.armedChecker ≠ some 0x69) : s.entWordRead f
    = { s.setFn f { s.fn f with entStatus := BitVec.ofNat 32 (((s.fn f).entStatus.toNat + 1) % 0x10000) } with
        ent := { s.ent with pal := w.drop 4 :: rest, palOff := s.ent.palOff + 4 }
        port := { s.port with waiting := false, stall := none, code := 0, data := BitVec.ofNat 32 (leNat (w.take 4)) } } := by
  have htaken := State.entRead_taken (s := { s with port := { s.port with waiting := false, stall := some (.entWord f) } })
    hpal hlong rfl hunarmed
  rw [State.entWordRead, if_pos (.inr henabled)]
  exact (if_pos (State.four_le_palBytes hpal hlong)).trans htaken

end entWord

theorem State.entWordRead_denied {s : State} {f : Nat} (henabled : (s.fn f).enabled = false) (hresetting : (s.fn f).resetting = false) :
    s.entWordRead f = (s.entEmpty f 3).respond 0 0 := if_neg (by simp [henabled, hresetting])

-- enable and disable ----------------------------------------------------------------------------------------------------------

theorem State.writeEntCtrl_starts {s : State} (hoff : s.ent.enable = false) : s.writeEntCtrl 0x80000000 = some s.entropyStart :=
  (if_pos rfl).trans (if_neg (by simp [hoff]))

theorem State.writeEntCtrl_on {s : State} (hon : s.ent.enable = true) : s.writeEntCtrl 0x80000000 = some s := (if_pos rfl).trans (if_pos hon)

/-- Entropy off: the palette is zeroed, every source stops, no capture write is issued any more (R468, R475). -/
def State.entropyOff (s : State) : State :=
  { s with ent := s.ent.off, fab := { s.fab with wrQ := s.fab.wrQ.filter (fun t => !t.rawWaits) } }

theorem State.writeEntCtrl_off {s : State} (hon : s.ent.enable = true) : s.writeEntCtrl 0 = some s.entropyOff :=
  (if_neg (by decide)).trans (if_neg (by simp [hon]))

theorem State.entropyOff_source (s : State) (i : Nat) : (s.entropyOff.source i).state = .off := by
  refine tget_property (P := fun x : Src => x.state = .off) ?_ rfl
  intro e he
  obtain ⟨x, -, hx⟩ := List.mem_filterMap.mp he
  dsimp only at hx
  split at hx
  · cases hx
  · cases hx
    rfl

-- raw mode --------------------------------------------------------------------------------------------------------------------

/-- The start of sources changes the table of sources alone (R455). -/
theorem State.startSources_frame (l : List Nat) (s : State) : ∃ t, l.foldl State.startSource s = { s with ent := { s.ent with src := t } } := by
  induction l generalizing s with
  | nil => exact ⟨s.ent.src, rfl⟩
  | cons i l ih =>
    obtain ⟨t, ht⟩ := ih (s.startSource i)
    refine ⟨t, ht.trans ?_⟩
    unfold State.startSource
    split <;> rfl

theorem fld_sel_enter (sel : BitVec 4) : fld (0x80000000 ||| BitVec.ofNat 32 sel.toNat) 3 0 = sel.toNat := by revert sel; decide

theorem fld_sel_exit : ∀ sel : BitVec 4, fld (0x40000000 ||| BitVec.ofNat 32 sel.toNat) 3 0 = sel.toNat ∧
    bitOf (0x40000000 ||| BitVec.ofNat 32 sel.toNat) 31 = false ∧ bitOf (0x40000000 ||| BitVec.ofNat 32 sel.toNat) 30 = true := by decide

theorem State.writeRawCtrl_enter {s : State} {sel : BitVec 4} (hout : s.ent.raw = false) (hok : s.rawOk sel.toNat = true) :
    s.writeRawCtrl (0x80000000 ||| BitVec.ofNat 32 sel.toNat) = some (s.rawStart sel.toNat) := by
  simp only [State.writeRawCtrl, fld_sel_enter, hout, Bool.false_eq_true, if_false, bitOf_enable, if_true, hok]

theorem State.writeRawCtrl_refused {s : State} {sel : BitVec 4} (hout : s.ent.raw = false) (hok : s.rawOk sel.toNat = false) :
    s.writeRawCtrl (0x80000000 ||| BitVec.ofNat 32 sel.toNat) = none := by
  simp only [State.writeRawCtrl, fld_sel_enter, hout, Bool.false_eq_true, if_false, bitOf_enable, if_true, hok]

theorem State.writeRawCtrl_exit {s : State} {sel : BitVec 4} (hin : s.ent.raw = true) (hsel : sel.toNat = fld (s.reg .entRawCtrl) 3 0) :
    s.writeRawCtrl (0x40000000 ||| BitVec.ofNat 32 sel.toNat) = some s.rawStop := by
  obtain ⟨hfld, htop, hexit⟩ := fld_sel_exit sel
  simp only [State.writeRawCtrl, hin, hfld, ← hsel, htop, hexit, if_true, ne_eq, not_true_eq_false, Bool.false_eq_true, or_self, if_false]

/-- The capture ends, and sources start anew (R475). -/
theorem State.rawStop_frame {s : State} (hkinds : s.kindGone = false) : ∃ t, s.rawStop
    = { s with ent := { s.ent with raw := false, state := 1, starting := true, src := t }
               fab := { s.fab with wrQ := s.fab.wrQ.filter (fun t => !t.rawWaits) } } := by
  obtain ⟨t, ht⟩ := State.startSources_frame (List.range 8) { s with
    ent := { s.ent with raw := false, state := 1, starting := true }
    fab := { s.fab with wrQ := s.fab.wrQ.filter (fun t => !t.rawWaits) } }
  refine ⟨t, (congrArg State.entUpdate ht).trans ?_⟩
  unfold State.entUpdate
  split
  · rfl
  · exact (if_neg (Bool.eq_false_iff.mp hkinds)).trans (if_pos (.inl rfl))

theorem State.rawStart_ent (s : State) (sel : Nat) : (s.rawStart sel).ent
    = { s.ent with state := 6, pal := [], palOff := 0, held := [], starting := false, raw := true, rawDone := false, rawErr := false
                   rawLen := fld (s.reg .entRawLen) 24 0, rawIssued := 0, rawBytes := 0, rawCap := s.ent.rawCap + 1 } :=
  State.islWake_field State.ent (fun _ _ => rfl) _ 9

theorem State.rawStart_gal (s : State) (sel : Nat) : (s.rawStart sel).gal
    = { s.gal with ext := s.gal.ext ++ [(31, natLE 8 sel ++ natLE 8 (fld (s.reg .entRawLen) 24 0) ++ natLE 8 s.now ++ zeros 40)] } :=
  State.islWake_field State.gal (fun _ _ => rfl) _ 9

/-- The next 32 bytes of a capture are written behind those before (R474). -/
theorem State.rawBeat_written {s : State} {data : BitVec 256} (hlive : s.live = true) (hraw : s.ent.raw = true) (herr : s.ent.rawErr = false)
    (hroom : s.ent.rawIssued < s.ent.rawLen) (hgal : s.gal.ext.any (fun e => e.1 == 31) = false) (hresetting : (s.fn 16).resetting = false)
    (hquiet : (s.fn 16).quiet = false) (hwin : s.winFail 16 (s.rawAddr + s.ent.rawIssued) 32 true = none) :
    s.rawBeat data = ({ s with ent := { s.ent with rawIssued := s.ent.rawIssued + 32 } } : State).queueWrite
      (s.rawAddr + s.ent.rawIssued) (natLE 32 data.toNat) 16 (.raw s.ent.rawCap 32) := by
  have htakes : ¬ (¬ s.live = true ∨ ¬ s.ent.raw = true ∨ s.ent.rawErr = true ∨ s.ent.rawLen ≤ s.ent.rawIssued ∨
      s.gal.ext.any (fun e => e.1 == 31) = true ∨ (s.fn 16).resetting = true ∨ (s.fn 16).quiet = true) := by
    simp only [hlive, hraw, herr, hgal, hresetting, hquiet, not_true_eq_false, Bool.false_eq_true, or_false, false_or]
    omega
  rw [State.rawBeat, if_neg htakes]
  simp only [hwin]

/-- Settles O38: the readers by what the palette holds, the control registers by the modes. -/
theorem entropyReadersAndControl : Obligations.EntropyReadersAndControl := by
  intro s f
  refine ⟨fun id r hreq hlive hwaits hnone => ?wait, fun hstall => ?wordTimeout, fun h hf => ⟨fun henabled hraw hunarmed w rest hpal hlong => ?word,
    fun henabled hresetting => ?denied⟩, fun h hoff => ⟨?enable, rfl, rfl⟩, fun h hon => ?enabled, fun h hon => ?disable,
    fun sel h hon hout hsel hmod hmin hmax haddr hwin => ?enter, fun sel h hout hsel => ?badSel, fun sel h hin hsel hkinds => ?exit,
    fun data hlive hraw herr hroom hgal hresetting hquiet hwin => ?beat⟩
  case wait => rw [exec_entropyWaitTimeout, State.waitTimeout_ends hreq hlive hwaits hnone]
  case wordTimeout =>
    rw [exec_entWordTimeout, State.entWordEnd_stalled hstall, State.entEmpty, Nat.one_mul]
  case word => rw [exec_entWord h, State.entWordRead_taken hpal hlong henabled hunarmed]
  case denied => rw [exec_entWord h, State.entWordRead_denied henabled hresetting, State.entEmpty]
  case enable => rw [exec_entropyEnable, State.writeEntCtrl_starts hoff, State.mgmt_some h]
  case enabled => rw [exec_entropyEnable, State.writeEntCtrl_on hon, State.mgmt_some h]
  case disable =>
    refine ⟨s.entropyOff, ?_, rfl, rfl, rfl, rfl, rfl, rfl, s.entropyOff_source⟩
    rw [exec_entropyDisable, State.writeEntCtrl_off hon, State.mgmt_some h]
  case enter =>
    have hok : s.rawOk sel.toNat = true := by
      simp [State.rawOk, hon, hout, hsel, hmod, hmin, hmax, haddr, hwin]
    refine ⟨s.rawStart sel.toNat, ?_, ?_⟩
    · rw [exec_rawModeEnter, State.writeRawCtrl_enter hout hok, State.mgmt_some h]
    · rw [State.rawStart_ent, State.rawStart_gal]
      exact ⟨rfl, rfl, rfl, rfl, rfl, rfl, rfl⟩
  case badSel =>
    have hok : s.rawOk sel.toNat = false := by simp [State.rawOk, Nat.not_le.mpr hsel]
    rw [exec_rawModeEnter, State.writeRawCtrl_refused hout hok, State.mgmt_none h]
  case exit =>
    obtain ⟨t, ht⟩ := State.rawStop_frame hkinds
    refine ⟨s.rawStop, ?_, ?_⟩
    · rw [exec_rawModeExit, State.writeRawCtrl_exit hin hsel, State.mgmt_some h]
    · rw [ht]
      exact ⟨rfl, rfl, rfl, rfl⟩
  case beat => rw [exec_rawCaptureBeat, State.rawBeat_written hlive hraw herr hroom hgal hresetting hquiet hwin]

end Sys2Proof.Machine
end

section
/-! PROOFS. The capture of a fault event of a source whose recovery is the event itself (R500, R502, R506, R514, R515). -/
namespace Sys2Proof.Machine

theorem exec_faultCapture (src : BitVec 8) (tag : BitVec 5) (detail : BitVec 16) (s : State) :
    exec (.faultCapture src tag detail) s = .next (s.faultCapture src.toNat tag.toNat detail.toNat).settle := rfl

-- the capture -----------------------------------------------------------------------------------------------------------------

/-- The state with one more event captured (R506). -/
def State.captured (s : State) (e : Event) : State := { s with flt := { s.flt with captured := s.flt.captured ++ [e] } }

section capture
variable {s : State} {src detail tag : Nat} {inj : Bool} {e : Event} (hlisted : (faultFloor src).isNone = false)
  (he : e = eventOf s src detail tag inj)
include hlisted he

theorem State.capture_recorded (h : ¬ (s.faultClass src = 4 ∧ s.awake = true)) : s.capture src detail tag inj = s.captured e := by
  subst he
  exact (if_neg (by simp [hlisted])).trans (if_neg fun hs => h ⟨hs.1.resolve_right (by decide), hs.2⟩)

/-- A fatal event freezes the block, and a stalled read ends with ERROR (R515). -/
theorem State.capture_fatal (hclass : s.faultClass src = 4) (hawake : s.awake = true) :
    s.capture src detail tag inj = { (s.captured e).endStall 1 0 with blk := { s.blk with frozen := true } } := by
  subst he
  exact (if_neg (by simp [hlisted])).trans (if_pos ⟨.inl hclass, hawake⟩)

end capture

theorem captureInv_kl (c : Kl) : CaptureInv (fun s => s.kl = c) where
  captured _ _ hs := hs
  port _ _ hs := hs
  frozen _ hs := hs

-- sources without a recovery of their own -------------------------------------------------------------------------------------

/-- The listed sources whose unit does nothing but report. -/
def reportSources : List Nat :=
  [0x02, 0x03, 0x04, 0x08, 0x10, 0x11, 0x39, 0x47, 0x57, 0x58, 0x69, 0x70, 0x74, 0x75, 0x76, 0x77, 0x78, 0x79, 0x80, 0x8B,
   0x91, 0x92, 0x93, 0xA0, 0xA1, 0xA2, 0xA3, 0xB0, 0xB2, 0xB3]

theorem reportSources_listed : ∀ src ∈ reportSources, (faultFloor src).isNone = false := by decide

theorem reportSources_unit : ∀ src ∈ reportSources, ¬ src ≤ 1 ∧ ¬ (0x16 ≤ src ∧ src ≤ 0x17) ∧ ¬ (0x20 ≤ src ∧ src ≤ 0x28) ∧
    ¬ (0x30 ≤ src ∧ src ≤ 0x38) ∧ ¬ (0x40 ≤ src ∧ src ≤ 0x43) ∧ ¬ (0x50 ≤ src ∧ src ≤ 0x53) ∧ ¬ (0x06 ≤ src ∧ src ≤ 0x07) ∧
    ¬ (0x12 ≤ src ∧ src ≤ 0x13) ∧ ¬ (0x60 ≤ src ∧ src ≤ 0x67) := by decide

theorem reportSources_memory : ∀ src ∈ reportSources, src ≠ 0x68 ∧ src ≠ 0x6A ∧ ¬ (src = 0x71 ∨ src = 0x72) ∧ src ≠ 0x73 ∧
    ¬ (0x81 ≤ src ∧ src ≤ 0x88) ∧ src ≠ 0x8A ∧ src ≠ 0x90 ∧ src ≠ 0x94 := by decide

theorem reportSources_kept : ∀ src ∈ reportSources, src ≠ 0x2A ∧ src ≠ 0x45 ∧ src ≠ 0x55 := by decide

theorem klSources : ∀ src : Nat, 0x74 ≤ src ∧ src ≤ 0x77 → src ∈ [0x74, 0x75, 0x76, 0x77] ∧ tagged src = true ∧
    detailZero src = decide (¬ src ≤ 0x75) := by
  rintro src ⟨hlow, hhigh⟩
  interval_cases src <;> decide

section recorded
variable {s : State} {src tag detail : Nat} (hsrc : src ∈ reportSources)
include hsrc

theorem retiredUnit_report (detail : Nat) : retiredUnit src detail = none := by
  obtain ⟨hlane, hdigest, heasel⟩ := reportSources_kept src hsrc
  simp only [retiredUnit, hlane, hdigest, heasel, if_false]

/-- The checker of such a source captures its event; of the key lift, with no such request outstanding, likewise. -/
theorem State.checker_report {inj : Bool}
    (hkl : src ∈ [0x74, 0x75, 0x76, 0x77] → s.kl.out.find? (fun k => k.slot == detail && k.tag == tag && !k.timedOut) = none) :
    s.checker src (if tagged src then tag else 31) (if detailZero src then 0 else detail) inj detail
      = s.capture src (if detailZero src then 0 else detail) (if tagged src then tag else 31) inj := by
  obtain ⟨hcollector, hport, hlane, hbank, hdigest, heasel, hpower, haccess, hnoise⟩ := reportSources_unit src hsrc
  obtain ⟨hpalette, hretired, hctx, hkey, hhalt, hstencil, htally, htest⟩ := reportSources_memory src hsrc
  simp only [State.checker, hcollector, hport, hlane, hbank, hdigest, heasel, hpower, haccess, hnoise, hpalette, hretired, hctx, hkey,
    hhalt, hstencil, htally, htest, retiredUnit_report hsrc, if_false]
  split
  case isTrue => rfl
  case isFalse =>
    split
    case isFalse => rfl
    case isTrue hk =>
      obtain ⟨hmem, htagged, hzero⟩ := klSources src hk
      have hdetail : (if src ≤ 0x75 then detail else 0) = (if detailZero src = true then 0 else detail) := by
        rw [hzero]
        by_cases h : src ≤ 0x75 <;> simp [h]
      have hout : ∀ d t, (s.capture src d t inj).kl.out = s.kl.out := fun d t =>
        congrArg Kl.out ((captureInv_kl s.kl).capture (s := s) rfl src d t inj 0)
      rw [State.klEvent, hdetail, htagged, if_pos rfl]
      dsimp only
      rw [hout, hkl hmem]

end recorded

theorem State.faultCapture_unlisted {s : State} {src tag detail : Nat} (h : faultFloor src = none) : s.faultCapture src tag detail = s :=
  if_pos (.inr (by simp [h]))

/-- The capture of such a source's event, once an injection that it fires has fired (R514). -/
theorem State.faultCapture_report {s t : State} {src tag detail : Nat} {inj : Bool} (hpor : s.blk.porLow = false) (hsrc : src ∈ reportSources)
    (hinj : s.strikes src = inj) (ht : s.struck src = t)
    (hkl : src ∈ [0x74, 0x75, 0x76, 0x77] → t.kl.out.find? (fun k => k.slot == detail && k.tag == tag && !k.timedOut) = none) :
    s.faultCapture src tag detail = t.capture src (if detailZero src then 0 else detail) (if tagged src then tag else 31) inj := by
  subst hinj ht
  rw [State.faultCapture, if_neg (by simp [hpor, reportSources_listed src hsrc])]
  exact State.checker_report hsrc hkl

/-- Settles O39: the event is captured by its class and by the state of the block; an armed injection fires with it. -/
theorem faultEventsAreCaptured : Obligations.FaultEventsAreCaptured := by
  intro s src tag detail e hpor
  rw [exec_faultCapture]
  refine ⟨fun hnone => by rw [State.faultCapture_unlisted hnone], fun hsrc hkl => ⟨fun hunarmed he => ?plain, fun harmed hclass he => ?injected⟩⟩
  case plain =>
    have hinj : s.strikes src.toNat = false := by simpa [State.strikes] using hunarmed
    have hstruck : s.struck src.toNat = s := if_neg (by simp [hinj])
    have hlisted := reportSources_listed _ hsrc
    rw [State.faultCapture_report hpor hsrc hinj hstruck hkl]
    refine ⟨fun hclass => ?_, fun hclass hawake => ?_, fun hasleep => ?_⟩
    · rw [State.capture_recorded hlisted he fun hs => by omega, State.captured]
    · rw [State.capture_fatal hlisted he hclass hawake, State.captured]
    · rw [State.capture_recorded hlisted he (by simp [hasleep]), State.captured]
  case injected =>
    have hinj : s.strikes src.toNat = true := by simpa [State.strikes] using harmed
    have hstruck : s.struck src.toNat = s.injFired := if_pos hinj
    have hclass' : ¬ (s.injFired.faultClass src.toNat = 4 ∧ s.injFired.awake = true) := fun hs => absurd hs.1 (ne_of_lt hclass)
    rw [State.faultCapture_report hpor hsrc hinj hstruck hkl, State.capture_recorded (s := s.injFired) (reportSources_listed _ hsrc) he hclass']
    rfl

end Sys2Proof.Machine
end

section
/-! PROOFS. One captured event is classified: it is counted, recorded and pended; a fatal one ends in the snowplough state (R501, R505, R507,
R509, R515 to R517). -/
namespace Sys2Proof.Machine

theorem exec_faultClassify {s : State} (hpor : s.blk.porLow = false) : exec .faultClassify s = .next s.classify.settle :=
  congrArg (fun t : State => Host.Outcome.next t.settle) (if_neg (by simp [hpor]))

-- the class, the pending bit and the latch ------------------------------------------------------------------------------------

/-- The event is counted and its pending bit set, with nothing captured any more (R507, R509). -/
def State.counted (s : State) (e : Event) : State :=
  { s.setReg .fltCount 0 e.src (BitVec.ofNat 32 (min ((s.reg .fltCount 0 e.src).toNat + 1) 0xFFFF)) with
    flt := { s.flt with captured := [], pend := s.flt.pend ||| s.pendBit e } }

theorem State.counted_react (s : State) (e : Event) : (s.counted e).reg .fltReact 0 e.src = s.reg .fltReact 0 e.src :=
  (s.setReg_reg_sameIndex .fltCount .fltReact 0 e.src _).trans (if_neg nofun)

theorem State.faultClass_congr {s t : State} {src : Nat} (h : t.reg .fltReact 0 src = s.reg .fltReact 0 src) :
    t.faultClass src = s.faultClass src := by simp only [State.faultClass, h]

@[simp] theorem State.counted_eventClass (s : State) (e : Event) : (s.counted e).eventClass e = s.eventClass e := by
  rw [State.eventClass, State.faultClass_congr (s.counted_react e), State.eventClass]

section pending
variable {s : State} {e : Event} {c : Nat} (hc : s.eventClass e = c)
include hc

theorem State.pendBit_minor (h : c < 2) : s.pendBit e = if bitOf (s.reg .fltReact 0 e.src) 3 then bit32 26 else 0 := by
  rw [State.pendBit, hc, if_neg (by omega), if_neg (by omega), if_neg (by omega)]

theorem State.pendBit_reported (h : c = 2) : s.pendBit e = bit32 24 := by simp [State.pendBit, hc, h]

theorem State.pendBit_function (h : c = 3) (htag : e.tag ≤ 16) : s.pendBit e = bit32 e.tag := by simp [State.pendBit, hc, h, htag]

theorem State.pendBit_fatal (h : c = 4) : s.pendBit e = bit32 25 := by simp [State.pendBit, hc, h]

theorem State.latch_minor (h : c < 2) : s.latch e = { s with flt := { s.flt with lastMinor := some (e, c) } } := by
  rw [State.latch, hc]
  exact if_pos h

theorem State.latch_first (h : 2 ≤ c) (hempty : s.flt.first = none) : s.latch e = { s with flt := { s.flt with first := some (e, c) } } := by
  rw [State.latch, hc]
  dsimp only
  rw [if_neg (by omega), hempty]

theorem State.latch_overflow (h : 2 ≤ c) (hfull : s.flt.first ≠ none) : s.latch e = { s with flt := { s.flt with overflow := true } } := by
  obtain ⟨p, hp⟩ := Option.ne_none_iff_exists'.mp hfull
  rw [State.latch, hc]
  dsimp only
  rw [if_neg (by omega), hp]

end pending

/-- What the latch leaves as it was. -/
theorem State.latch_frame (s : State) (e : Event) : ∃ first full minor,
    s.latch e = { s with flt := { s.flt with first := first, overflow := full, lastMinor := minor } } := by
  simp only [State.latch]
  split
  · exact ⟨_, _, _, rfl⟩
  · split
    · exact ⟨_, _, _, rfl⟩
    · exact ⟨_, _, _, rfl⟩

/-- A class of REPORTED or above fills the empty latch (R505). -/
theorem State.latch_filled {s : State} {e : Event} {c : Nat} (hc : s.eventClass e = c) (h : 2 ≤ c) :
    (s.latch e).flt.first = s.flt.first.or (some (e, c)) := by
  cases hfirst : s.flt.first with
  | none => rw [State.latch_first hc h hfirst]; rfl
  | some p => rw [State.latch_overflow hc h (by simp [hfirst])]; exact hfirst

-- one event -------------------------------------------------------------------------------------------------------------------

theorem State.countPermanent_none {s : State} {e : Event} (h : s.permUnit e.src = none) : s.countPermanent e = s := by
  rw [State.countPermanent, h]

section one
variable {s : State} {e : Event} (hone : s.flt.captured = [e])
include hone

/-- The one captured event is classified, and ends in the snowplough state where it is fatal (R515). -/
theorem State.classify_one : s.classify
    = if s.eventClass e = 4 then (({ s with flt := { s.flt with captured := [] } } : State).classifyOne e).snowEnter
      else ({ s with flt := { s.flt with captured := [] } } : State).classifyOne e := by
  have hsorted : sortBy s.eventBefore s.flt.captured = [e] := by rw [hone]; rfl
  rw [State.classify, hsorted]
  simp only [List.any_cons, List.any_nil, Bool.or_false, beq_iff_eq, List.foldl_cons, List.foldl_nil]

end one

/-- Outside the snowplough state an event is counted, recorded, and where it is fatal or a retirement written to the history. -/
theorem State.classifyOne_active {s : State} {e : Event} (hsnow : s.blk.snow = 0) :
    ({ s with flt := { s.flt with captured := [] } } : State).classifyOne e
      = (if isRetirement e.src = true ∨ s.eventClass e = 4 then
          ((s.counted e).latch e).history e.src (s.eventClass e) e.detail else (s.counted e).latch e).countPermanent e := by
  have hactive : ¬ s.blk.snow ≠ 0 := not_not.mpr hsnow
  obtain ⟨first, full, minor, hlatch⟩ := (s.counted e).latch_frame e
  have hclass : ((s.counted e).latch e).eventClass e = s.eventClass e := by
    rw [hlatch]
    exact s.counted_eventClass e
  refine (if_neg hactive).trans ?_
  rw [← hclass]
  rfl

theorem State.classifyOne_snow {s : State} {e : Event} (hsnow : s.blk.snow ≠ 0) (h : 2 ≤ s.eventClass e) :
    ({ s with flt := { s.flt with captured := [] } } : State).classifyOne e
      = { s with flt := { s.flt with captured := [], overflow := true, pend := s.flt.pend ||| s.pendBit e } } :=
  (if_pos hsnow).trans (if_pos h)

theorem State.permUnit_none_congr {s t : State} {src : Nat} (h : s.permUnit src = none) : t.permUnit src = none := by
  unfold State.permUnit at h ⊢
  split_ifs at h ⊢
  rfl

theorem State.classify_recorded {s : State} {e : Event} (hone : s.flt.captured = [e]) (hsnow : s.blk.snow = 0)
    (hret : isRetirement e.src = false) (hperm : s.permUnit e.src = none) (hclass : s.eventClass e ≠ 4) :
    s.classify = (s.counted e).latch e := by
  rw [State.classify_one hone, if_neg hclass, State.classifyOne_active hsnow, if_neg (by simp [hret, hclass]),
    State.countPermanent_none (State.permUnit_none_congr hperm)]

-- the way into the snowplough state -------------------------------------------------------------------------------------------

/-- Pending bits, first event, tally cells and gallery: what the way into the snowplough state leaves standing. -/
def State.record (s : State) : Word × Option (Event × Nat) × Tbl (Cell × Cell) × Tbl Bytes := (s.flt.pend, s.flt.first, s.tly.cells, s.gal.val)

theorem tallyInv_record (s : State) : TallyInv (fun t => t.record = s.record) :=
  TallyInv.of_field s.record (fun _ _ => rfl) (fun _ _ => rfl) (fun _ _ => rfl) (fun s _ ht => congrArg (fun c => (s.flt.pend, s.flt.first, c, s.gal.val)) ht)
    (fun _ _ => rfl) (fun _ _ => rfl) (fun _ _ => rfl) (fun _ _ => rfl)
    (fun s => by simp only [State.record, State.usable_flt, State.usable_tly, State.usable_gal])

/-- The block is out of reset, and not in the snowplough state. -/
def State.CanPlough (s : State) : Prop := s.blk.snow = 0 ∧ s.awake = true

theorem tallyInv_canPlough : TallyInv State.CanPlough where
  captured _ _ hs := hs
  port _ _ hs := hs
  frozen _ hs := hs
  tly _ _ _ hs := hs
  fns _ _ hs := hs
  gen _ _ _ hs := hs
  warmup s hs := by simpa [State.CanPlough, State.awake] using hs

/-- Nothing secret is left in the contexts, the palette and the primer loader (R516). -/
def State.Wiped (s : State) : Prop :=
  s.ctx.keys = [] ∧ s.ctx.key = none ∧ s.ctx.cache = [] ∧ s.ctx.hmac = [] ∧ s.ent.pal = [] ∧ s.primer = {}

theorem State.islWake_ent (s : State) (i : Nat) : (s.islWake i).ent = s.ent := s.islWake_field State.ent (fun _ _ => rfl) i

theorem State.entropyStart_pal (s : State) : s.entropyStart.ent.pal = s.ent.pal := by
  obtain ⟨t, ht⟩ := State.startSources_frame (List.range 8) (s.islWake 11)
  have hstarted : s.entropyStart.ent.pal = ((List.range 8).foldl State.startSource (s.islWake 11)).ent.pal := rfl
  rw [hstarted, ht, State.islWake_ent]

@[simp] theorem State.enterWarmup_pal (s : State) : s.enterWarmup.ent.pal = s.ent.pal := by
  rw [State.enterWarmup, State.entropyStart_pal]
  exact foldl_keeps_field (fun u => u.ent.pal) (fun u i => congrArg Ent.pal (u.islWake_ent i)) _ _

theorem tallyInv_wiped : TallyInv State.Wiped where
  captured _ _ hs := hs
  port _ _ hs := hs
  frozen _ hs := hs
  tly _ _ _ hs := hs
  fns _ _ hs := hs
  gen _ _ _ hs := hs
  warmup s hs := by
    have hstays : s.usable = s := by
      obtain ⟨-, -, -, -, -, hprimer⟩ := hs
      simp [State.usable, hprimer]
    rw [hstays]
    simpa [State.Wiped] using hs

theorem State.wipe_wiped (s : State) : s.wipe.Wiped := ⟨rfl, rfl, rfl, rfl, rfl, rfl⟩

/-- On entry everything secret is gone and no traffic waits; what is left to do is the tally store's last writes (R516). -/
theorem State.snowEnter_wiped {s : State} (h : s.CanPlough) : ∃ t : State, s.snowEnter = t.snowDone ∧ t.record = s.record ∧ t.Wiped ∧
    t.blk.st = .snowplough ∧ t.blk.phase = 9 ∧ t.blk.snow = 1 ∧ t.fab.rdQ = [] ∧ t.fab.wrQ = [] := by
  have hended : (s.endStall 1 0).record = s.record := (tallyInv_record s).toCaptureInv.endStall rfl 1 0
  have hkept : (s.endStall 1 0).wipe.tallyOnlyHistory.tlyStart.record = s.record := (tallyInv_record s).start hended
  have hwiped : (s.endStall 1 0).wipe.tallyOnlyHistory.tlyStart.Wiped := tallyInv_wiped.start (s.endStall 1 0).wipe_wiped
  obtain ⟨hsnow, hawake⟩ := h
  rw [State.snowEnter, if_neg (by simp [hsnow, hawake])]
  exact ⟨_, rfl, hkept, hwiped, rfl, rfl, rfl, rfl, rfl⟩

/-- With the last write made every clock request falls (R516). -/
theorem State.snowDone_cases (t : State) : t.snowDone = t ∨ t.snowDone = ({ t with blk := { t.blk with snow := 2 } } : State).allOff := by
  unfold State.snowDone
  split
  · exact .inr rfl
  · exact .inl rfl

section fatal
variable {s : State} {e : Event} (hone : s.flt.captured = [e]) (hsnow : s.blk.snow = 0) (hperm : s.permUnit e.src = none)
  (hclass : s.eventClass e = 4) (hawake : s.awake = true)
include hone hsnow hperm hclass hawake

/-- A fatal event is recorded and written to the history, and the block enters the snowplough state. -/
theorem State.classify_fatal : ∃ t : State, s.classify = t.snowEnter ∧ t.CanPlough ∧
    t.record = (s.flt.pend ||| bit32 25, s.flt.first.or (some (e, 4)), s.tly.cells, s.gal.val) := by
  obtain ⟨first, full, minor, hlatch⟩ := (s.counted e).latch_frame e
  have hfirst := State.latch_filled (s.counted_eventClass e ▸ hclass) (show 2 ≤ 4 by decide)
  have hrecord : ((s.counted e).latch e).record = (s.flt.pend ||| bit32 25, s.flt.first.or (some (e, 4)), s.tly.cells, s.gal.val) := by
    rw [State.record, hfirst, hlatch, ← s.pendBit_fatal hclass rfl]
    rfl
  have hplough : ((s.counted e).latch e).CanPlough := by
    rw [hlatch]
    exact ⟨hsnow, hawake⟩
  refine ⟨((s.counted e).latch e).history e.src (s.eventClass e) e.detail, ?_, tallyInv_canPlough.history hplough .., ?_⟩
  · rw [State.classify_one hone, if_pos hclass, State.classifyOne_active hsnow, if_pos (.inr hclass),
      State.countPermanent_none (State.permUnit_none_congr hperm)]
  · exact ((tallyInv_record _).history rfl ..).trans hrecord

end fatal

/-- Settles O40: the event's class decides its record and pending bit; a fatal one wipes the block on its way to the snowplough state. -/
theorem faultEventsAreClassified : Obligations.FaultEventsAreClassified := by
  intro s t e c hpor hone hc ht
  have hclass : s.eventClass e = c := hc.symm
  have hclass' : (s.counted e).eventClass e = c := (s.counted_eventClass e).trans hclass
  rw [exec_faultClassify hpor]
  refine ⟨fun hsnow hret hperm => ?_, fun hsnow htwo => ?snow⟩
  · have hrecorded (h4 : c ≠ 4) := State.classify_recorded hone hsnow hret hperm (hclass ▸ h4)
    refine ⟨fun hminor => ?minor, fun htwo hempty => ?first, fun htwo hfull => ?overflow, fun hthree htag hempty => ?function,
      fun hfour hawake => ?fatal⟩
    case minor =>
      rw [hrecorded (by omega), State.latch_minor hclass' hminor, State.counted, s.pendBit_minor hclass hminor, ht]
    case first =>
      rw [hrecorded (by omega), State.latch_first hclass' (by omega) hempty, State.counted, s.pendBit_reported hclass htwo, ht]
    case overflow =>
      rw [hrecorded (by omega), State.latch_overflow hclass' (by omega) hfull, State.counted, s.pendBit_reported hclass htwo, ht]
    case function =>
      rw [hrecorded (by omega), State.latch_first hclass' (by omega) hempty, State.counted, s.pendBit_function hclass hthree htag, ht]
    case fatal =>
      subst hfour
      obtain ⟨x, hx, hplough, hrecord⟩ := State.classify_fatal hone hsnow hperm hclass hawake
      obtain ⟨y, hy, hkept, ⟨hkeys, hkey, hcache, hhmac, hpal, -⟩, hst, hphase, hentered, hrdQ, hwrQ⟩ := State.snowEnter_wiped hplough
      obtain ⟨hpend, hfirst, hcells, hval⟩ : y.flt.pend = _ ∧ y.flt.first = _ ∧ y.tly.cells = _ ∧ y.gal.val = _ := by
        simpa only [State.record, Prod.mk.injEq] using hkept.trans hrecord
      refine ⟨y.snowDone, by rw [hx, hy], ?_⟩
      rcases y.snowDone_cases with hdone | hdone
      · rw [hdone]
        exact ⟨hst, hphase, .inl hentered, hpend, hfirst, hkeys, hkey, hcache, hhmac, hpal, hrdQ, hwrQ, by simp [hentered], hcells, hval⟩
      · rw [hdone]
        exact ⟨hst, hphase, .inr rfl, hpend, hfirst, hkeys, hkey, hcache, hhmac, hpal, hrdQ, hwrQ, fun _ => rfl, hcells, hval⟩
  case snow =>
    rw [State.classify_one hone, if_neg (by omega), State.classifyOne_snow hsnow (by omega), s.pendBit_reported hclass htwo]

end Sys2Proof.Machine
end

section
/-! PROOFS. Repeated mismatches of a lane retire it (R503, R504): its bit in the retirement map is set and LANE_RETIRE is captured, and the
work that moves off the lane leaves the collector as it was. -/
namespace Sys2Proof.Machine

-- the work of a retired lane moves, and the collector stays -------------------------------------------------------------------

theorem iterate_keeps_field {β : Type} (field : State → β) {g : State → State} (hg : ∀ s, field (g s) = field s) (n : Nat) (s : State) :
    field (iterate n g s) = field s := by
  induction n generalizing s with
  | zero => rfl
  | succ n ih => exact (ih (g s)).trans (hg s)

@[simp] theorem State.abandonTest_flt (s : State) (u : Nat) : (s.abandonTest u).flt = s.flt := rfl

@[simp] theorem State.takeLaneRetry_flt (s : State) : s.takeLaneRetry.flt = s.flt := by
  unfold State.takeLaneRetry
  split
  next => rfl
  next =>
    split
    next => rfl
    next =>
      dsimp only
      generalize (_ : Bool) = comb
      split_ifs <;> simp

@[simp] theorem State.takeDigRetry_flt (s : State) : s.takeDigRetry.flt = s.flt := by
  unfold State.takeDigRetry
  split
  next => rfl
  next =>
    split
    next => rfl
    next => simp

@[simp] theorem State.takeDigMove_flt (s : State) : s.takeDigMove.flt = s.flt := by
  unfold State.takeDigMove
  split
  next => rfl
  next =>
    split
    next => simp
    next => rfl
    next => rfl

@[simp] theorem State.takeRetries_flt (s : State) : s.takeRetries.flt = s.flt := by
  unfold State.takeRetries
  split
  · rfl
  · exact (iterate_keeps_field State.flt State.takeDigMove_flt _ _).trans
      ((iterate_keeps_field State.flt State.takeDigRetry_flt _ _).trans (iterate_keeps_field State.flt State.takeLaneRetry_flt _ s))

@[simp] theorem State.clearLane_flt (s : State) (n : Nat) : (s.clearLane n).flt = s.flt := by
  unfold State.clearLane
  split
  · rfl
  · dsimp only
    split <;> simp

@[simp] theorem State.handBanks_flt (s : State) (a b : Nat) : (s.handBanks a b).flt = s.flt := by simp [State.handBanks]

/-- The stroke of a lane that is retired becomes a retry (R35). -/
def State.strokeToRetry (s : State) (n : Nat) : State :=
  match (s.lane (s.mainLane n)).run with
  | none => s
  | some w =>
    let s := s.clearLane (s.mainLane n)
    { s with sched := { s.sched with
      laneRetry := s.sched.laneRetry ++ [{ w with failed := w.failed ++ [n], out := none, digest := none, pair := none }] } }

/-- The reserve, or else another lane in service, takes over the banks of lane `n` (R36). -/
def State.laneReplaced (s : State) (n : Nat) : State :=
  match s.reserve with
  | some m =>
    let s : State := { s with reserve := none }
    if m = n then s else (s.abandonTest m).setLane m { s.lane m with test := false } |>.handBanks n m
  | none =>
    match (List.range 9).find? (fun m => s.laneIn m && m != n) with
    | some m => s.handBanks n m
    | none => s

theorem State.retireLane_eq (s : State) (n : Nat) : s.retireLane n =
    ((s.strokeToRetry n).setLane n { (s.strokeToRetry n).lane n with test := false }).laneReplaced n := rfl

@[simp] theorem State.strokeToRetry_flt (s : State) (n : Nat) : (s.strokeToRetry n).flt = s.flt := by
  unfold State.strokeToRetry
  split
  · rfl
  · exact s.clearLane_flt _

@[simp] theorem State.laneReplaced_flt (s : State) (n : Nat) : (s.laneReplaced n).flt = s.flt := by
  unfold State.laneReplaced
  split
  · dsimp only
    split <;> simp
  · split <;> simp

@[simp] theorem State.retireLane_flt (s : State) (n : Nat) : (s.retireLane n).flt = s.flt := by simp [State.retireLane_eq]

@[simp] theorem State.endClassTests_flt (s : State) (u : Nat) : (s.endClassTests u).flt = s.flt := by
  refine foldl_keeps_field State.flt (fun s v => ?_) _ s
  split_ifs <;> simp

-- the retirement --------------------------------------------------------------------------------------------------------------

/-- Unit `u` is in the retirement map, and an event of source `src` is captured. -/
def State.RetirementCaptured (u src : Nat) (s : State) : Prop := s.retired u = true ∧ ∃ x ∈ s.flt.captured, x.src = src

theorem State.RetirementCaptured.congr {u src : Nat} {s t : State} (hs : s.RetirementCaptured u src) (h : t.flt = s.flt) :
    t.RetirementCaptured u src := by
  simp only [State.RetirementCaptured, State.retired, h]
  exact hs

@[simp] theorem State.endStall_flt (s : State) (code : Nat) (v : Word) : (s.endStall code v).flt = s.flt := by
  unfold State.endStall
  split <;> rfl

theorem State.capture_mem {s : State} {src : Nat} (hlisted : (faultFloor src).isNone = false) (detail tag : Nat) (inj : Bool) (least : Nat) :
    ∃ x ∈ (s.capture src detail tag inj least).flt.captured, x.src = src := by
  unfold State.capture
  rw [if_neg (by simp [hlisted])]
  dsimp only
  split <;> simp

theorem captureInv_retired (u : Nat) (b : Bool) : CaptureInv (fun s => s.retired u = b) where
  captured _ _ hs := hs
  port _ _ hs := hs
  frozen _ hs := hs

theorem tallyInv_retired (u : Nat) (b : Bool) : TallyInv (fun s => s.retired u = b) :=
  TallyInv.of_field b (fun _ _ => rfl) (fun _ _ => rfl) (fun _ _ => rfl) (fun _ _ _ => rfl) (fun _ _ => rfl)
    (fun _ _ => rfl) (fun _ _ => rfl) (fun _ _ => rfl) (fun s => by simp only [State.retired, State.usable_flt])

section lane
variable {s : State} {n : Nat} (hn : n < 9) (hin : s.retired n = false)
include hn hin

theorem State.markRetired_lane : (s.markRetired n).RetirementCaptured n 0x2A := by
  have hbit : (s.flt.retired ||| BitVec.ofNat 27 (2 ^ n)).getLsbD n = true := by
    have hlow : n < 27 := by omega
    rw [BitVec.getLsbD_or, BitVec.getLsbD_ofNat, Nat.testBit_two_pow_self, decide_eq_true hlow, Bool.and_self, Bool.or_true]
  have hid : retireId n = 0x2A := if_pos hn
  unfold State.markRetired
  rw [if_neg (Bool.eq_false_iff.mp hin), hid]
  refine ⟨(captureInv_retired n true).capture ((tallyInv_retired n true).write ?_ ..) .., State.capture_mem (by decide) ..⟩
  exact hbit

theorem State.retireUnit_lane : (s.retireUnit n).RetirementCaptured n 0x2A := by
  unfold State.retireUnit
  rw [if_neg (Bool.eq_false_iff.mp hin), if_neg (by omega), if_neg (by omega)]
  dsimp only
  rw [if_pos hn]
  exact (State.markRetired_lane hn hin).congr (by simp)

end lane

-- the count of a source's events ----------------------------------------------------------------------------------------------

/-- The events of a source within WINDOW of its running time `t`, with one more at `t` (R503). -/
def State.permAt (s : State) (src t : Nat) : List (Nat × Nat) :=
  (s.flt.perm ++ [(src, t)]).filter (fun p => p.1 != src || decide (t ≤ p.2 + 1000 * max 1 (fld (s.reg .fltPermCfg) 15 0)))

section lane
variable {s : State} {n : Nat} {e : Event} (hn : n < 9) (hsrc : e.src = 0x20 + n)
include hn hsrc

theorem State.permUnit_lane : s.permUnit e.src = some (n, s.runLane) := by
  rw [State.permUnit, if_pos (by omega), hsrc, Nat.add_sub_cancel_left]

theorem isRetirement_lane : isRetirement e.src = false := by
  rw [hsrc]
  simp only [isRetirement, Bool.or_eq_false_iff, beq_eq_false_iff_ne]
  omega

theorem State.counted_permCfg : (s.counted e).reg .fltPermCfg = s.reg .fltPermCfg := by
  have hkey : regKey .fltPermCfg 0 0 ≠ regKey .fltCount 0 e.src := by
    refine regKey_ne nofun (by decide) ?_
    rw [hsrc]
    omega
  exact s.reg_setReg_ne _ hkey

/-- With its permanent fault count `perm` the event retires the lane at COUNT (R503). -/
theorem State.countPermanent_lane {perm : List (Nat × Nat)} (hinj : e.inj = false) (hperm : perm = s.permAt e.src s.runLane) :
    s.countPermanent e = if max 2 (fld (s.reg .fltPermCfg) 19 16) ≤ (perm.filter (fun p => p.1 == e.src)).length
      then ({ s with flt := { s.flt with perm := perm } } : State).retireUnit n else { s with flt := { s.flt with perm := perm } } := by
  rw [State.countPermanent, State.permUnit_lane hn hsrc]
  dsimp only
  rw [if_neg (by simp [hinj]), hperm]
  rfl

theorem State.countPermanent_injected (hinj : e.inj = true) : s.countPermanent e = s := by
  rw [State.countPermanent, State.permUnit_lane hn hsrc]
  exact if_pos hinj

end lane

/-- The state with the event counted and recorded as the last minor one. -/
def State.countedMinor (s : State) (e : Event) : State :=
  { s.counted e with flt := { (s.counted e).flt with lastMinor := some (e, 1) } }

theorem State.countedMinor_permCfg {s : State} {n : Nat} {e : Event} (hn : n < 9) (hsrc : e.src = 0x20 + n) :
    (s.countedMinor e).reg .fltPermCfg = s.reg .fltPermCfg := by
  have hregs : (s.countedMinor e).regs = (s.counted e).regs := rfl
  rw [← State.counted_permCfg (s := s) hn hsrc, State.reg, hregs, State.reg]

/-- A lane's event of class CORRECTED or ABSORBED counts towards the lane's retirement. -/
theorem State.classify_lane {s : State} {n : Nat} {e : Event} (hn : n < 9) (hsrc : e.src = 0x20 + n) (hone : s.flt.captured = [e])
    (hsnow : s.blk.snow = 0) (hclass : s.eventClass e = 1) : s.classify = (s.countedMinor e).countPermanent e := by
  have hminor : (s.counted e).latch e = s.countedMinor e := State.latch_minor ((s.counted_eventClass e).trans hclass) (by decide)
  rw [State.classify_one hone, if_neg (by simp [hclass]), State.classifyOne_active hsnow,
    if_neg (by simp [hclass, isRetirement_lane hn hsrc]), hminor]

/-- Settles O41: an injected event is not counted; another one joins the lane's list, and at COUNT of them the lane is retired. -/
theorem repeatedFaultsRetireTheUnit : Obligations.RepeatedFaultsRetireTheUnit := by
  intro s n e perm hpor hsnow hn hone hsrc hleast hfault hperm
  have hclass : s.eventClass e = 1 := by rw [State.eventClass, hfault, hleast]; rfl
  have hcfg : (s.countedMinor e).reg .fltPermCfg = s.reg .fltPermCfg := State.countedMinor_permCfg hn hsrc
  have hcount : perm = (s.countedMinor e).permAt e.src (s.countedMinor e).runLane := by
    rw [hperm, State.permAt, hcfg]
    rfl
  have hexec : exec .faultClassify s = .next ((s.countedMinor e).countPermanent e).settle := by
    rw [exec_faultClassify hpor, State.classify_lane hn hsrc hone hsnow hclass]
  refine ⟨fun hinj hin => ⟨_, hexec, ?_⟩, fun hinj hfew => ⟨_, hexec, ?_⟩, fun hinj hmany hin => ⟨_, hexec, ?_⟩⟩
  · rw [State.countPermanent_injected hn hsrc hinj]
    exact hin
  · rw [State.countPermanent_lane hn hsrc hinj hcount, hcfg, if_neg (by omega)]
    exact ⟨rfl, rfl, rfl⟩
  · rw [State.countPermanent_lane hn hsrc hinj hcount, hcfg, if_pos hmany]
    exact State.retireUnit_lane hn hin

end Sys2Proof.Machine
end

section
/-! PROOFS. The scan of the tally store, its repairs and refusals, and the count of life hours (R522, R523, R530). -/
namespace Sys2Proof.Machine

theorem exec_tallyScan (bad : List (Nat × Bool)) (s : State) : exec (.tallyScan bad) s = .next (s.tlyScan bad).settle := rfl

theorem exec_lifeHours (s : State) : exec .lifeHours s = .next s.lifeHour.settle := rfl

-- the cells read by a scan ----------------------------------------------------------------------------------------------------

/-- What a capture, which changes the collector, a stalled read and the frozen bit alone, leaves as it was (R506, R515). -/
theorem State.capture_field {β : Type} (field : State → β) (hflt : ∀ (s : State) l, field { s with flt := { s.flt with captured := l } } = field s)
    (hport : ∀ (s : State) p, field { s with port := p } = field s) (hblk : ∀ (s : State) b, field { s with blk := b } = field s)
    (s : State) (src detail tag : Nat) (inj : Bool) (least : Nat) : field (s.capture src detail tag inj least) = field s :=
  CaptureInv.capture (P := fun t => field t = field s)
    ⟨fun t l ht => (hflt t l).trans ht, fun t p ht => (hport t p).trans ht, fun t ht => (hblk t _).trans ht⟩ rfl src detail tag inj least

@[simp] theorem State.capture_tly (s : State) (src detail tag : Nat) (inj : Bool) (least : Nat) :
    (s.capture src detail tag inj least).tly = s.tly := s.capture_field State.tly (fun _ _ => rfl) (fun _ _ => rfl) (fun _ _ => rfl) ..

/-- An event below BLOCK_FATAL freezes nothing (R502, R515). -/
theorem State.capture_blk {s : State} {src : Nat} (hclass : s.faultClass src ≠ 4) (detail tag : Nat) (inj : Bool) :
    (s.capture src detail tag inj).blk = s.blk := by
  unfold State.capture
  split
  · rfl
  · dsimp only
    split
    next h => exact absurd (h.1.resolve_right (by decide)) hclass
    next => rfl

theorem State.tlyScanOne_good {s : State} {i : Nat} (ha : (s.tlyCells i).1.good = true) (hb : (s.tlyCells i).2.good = true) :
    s.tlyScanOne i = s := if_pos ⟨ha, hb⟩

theorem State.tlyScanOne_lost {s : State} {i : Nat} (ha : (s.tlyCells i).1.good = false) (hb : (s.tlyCells i).2.good = false) :
    s.tlyScanOne i = s.capture 0x91 i := by
  simp [State.tlyScanOne, tlyPick, ha, hb]

/-- The one good cell of two holds the register's value (R520, R523). -/
theorem tlyPick_single {c : Cell × Cell} (h : c.1.good ≠ c.2.good) : tlyPick c = some (if c.1.good then c.1 else c.2) := by
  cases ha : c.1.good <;> cases hb : c.2.good <;> simp_all [tlyPick]

section single
variable {s : State} {i : Nat} {cur : Cell} (hcur : cur = if (s.tlyCells i).1.good then (s.tlyCells i).1 else (s.tlyCells i).2)
  (hone : (s.tlyCells i).1.good ≠ (s.tlyCells i).2.good) (hlive : s.blk.frozen = false) (hclass : s.faultClass 0x90 < 4)
  (hwear : cur.wear < 1000000) (hahead : s.tlyAhead i = [])
include hcur hone hlive hclass hwear hahead

/-- With one good cell the other is reported, counted and rewritten with its value (R522, R523). -/
theorem State.tlyScanOne_repairs : s.tlyScanOne i
    = ((s.capture 0x90 i).bumpSat .tlyRepairCount).tlyEnqueue { idx := i, val := cur.val, cls := 5, who := [.repair] } := by
  have hpick : tlyPick (s.tlyCells i) = some cur := hcur ▸ tlyPick_single hone
  have hnot : ¬ ((s.tlyCells i).1.good = true ∧ (s.tlyCells i).2.good = true) := fun h => hone (h.1.trans h.2.symm)
  have htly : ((s.capture 0x90 i).bumpSat .tlyRepairCount).tly = s.tly := by simp
  have hunfrozen : (s.capture 0x90 i).blk.frozen = false := by rw [State.capture_blk (by omega), hlive]
  have hrepair : ((s.capture 0x90 i).bumpSat .tlyRepairCount).tlyRepair i cur.val
      = ((s.capture 0x90 i).bumpSat .tlyRepairCount).tlyEnqueue { idx := i, val := cur.val, cls := 5, who := [.repair] } := by
    have hworn : ¬ tlyLimit ≤ ((s.capture 0x90 i).bumpSat .tlyRepairCount).tlyWearOf i := by
      rw [State.tlyWearOf, State.tlyCells, htly, ← State.tlyCells, hpick]
      exact not_le.mpr hwear
    rw [State.tlyRepair, if_neg hworn, if_pos]
    rw [State.tlyAhead, htly]
    exact hahead
  rw [State.tlyScanOne, if_neg hnot, hpick]
  exact (if_neg (by simp [hunfrozen])).trans hrepair

end single

-- the scan --------------------------------------------------------------------------------------------------------------------

theorem State.tlyStrike_unarmed {s : State} (h : s.armedChecker ≠ some 0x90) (i : Nat) : s.tlyStrike i = s := if_pos h

section scan
variable {s : State} (hread : s.blk.tlyRead = true) (hsnow : s.blk.snow = 0)
include hread hsnow

/-- With its clock running the scan reads every listed register (R70, R523). -/
theorem State.tlyScan_reads (hclk : s.clkOk 12 = true) (bad : List (Nat × Bool)) {t : State}
    (ht : t = (bad.filter (fun p => decide (p.1 < 1024))).foldl State.tlySpoil ((s.bgDone 12).tlyStrike 0)) :
    s.tlyScan bad = (t.tly.cells.map (·.1)).foldl State.tlyScanOne t := by
  rw [State.tlyScan, if_neg (by simp [hread, hsnow]), if_neg (by simp [hclk]), ht]

theorem State.tlyScan_waits (hclk : s.clkOk 12 = false) (bad : List (Nat × Bool)) : s.tlyScan bad = s.bgAsk 12 := by
  rw [State.tlyScan, if_neg (by simp [hread, hsnow]), if_pos (by simp [hclk])]

end scan

theorem State.tlyScan_closed {s : State} (h : s.blk.tlyRead = false ∨ s.blk.snow ≠ 0) (bad : List (Nat × Bool)) : s.tlyScan bad = s :=
  if_pos (h.imp_left fun hread => by simp [hread])

/-- Cell pair after the check of one cell, or of both, has failed. -/
def spoiled (c : Cell × Cell) (b : Bool) : Cell × Cell := if b then (c.1, { c.2 with good := false }) else ({ c.1 with good := false }, c.2)

/-- A clean store in which the cells of one register are as given. -/
def State.withCells (s : State) (i : Nat) (c : Cell × Cell) : State := { s with tly := { s.tly with cells := [(i, c)] } }

@[simp] theorem State.withCells_tlyCells (s : State) (i : Nat) (c : Cell × Cell) : (s.withCells i c).tlyCells i = c := by
  simp [State.withCells, State.tlyCells, tget]

theorem State.tlySpoil_clean {s : State} (h : s.tly.cells = []) (i : Nat) (b : Bool) :
    s.tlySpoil (i, b) = s.withCells i (spoiled ({}, {}) b) := by
  cases b <;> simp [State.tlySpoil, State.withCells, State.tlyCells, spoiled, h, tset, terase, tinsert]

theorem State.tlySpoil_again (s : State) (i : Nat) :
    (s.withCells i (spoiled ({}, {}) false)).tlySpoil (i, true) = s.withCells i ({ good := false }, { good := false }) := by
  simp [State.tlySpoil, State.withCells, State.tlyCells, spoiled, tset, tget, terase, tinsert]

section spoil
variable {s : State} {i : Nat} (hread : s.blk.tlyRead = true) (hsnow : s.blk.snow = 0) (hclk : s.clkOk 12 = true)
  (hunarmed : s.armedChecker ≠ some 0x90) (hcells : s.tly.cells = []) (hi : i < 1024)
include hread hsnow hclk hunarmed hcells hi

/-- A scan of a clean store that finds one cell of register `i` bad. -/
theorem State.tlyScan_one (b : Bool) :
    s.tlyScan [(i, b)] = ((s.bgDone 12).withCells i (spoiled ({}, {}) b)).tlyScanOne i := by
  have hstrike : (s.bgDone 12).tlyStrike 0 = s.bgDone 12 := State.tlyStrike_unarmed (s := s.bgDone 12) hunarmed 0
  have hspoil : (s.bgDone 12).tlySpoil (i, b) = (s.bgDone 12).withCells i (spoiled ({}, {}) b) := State.tlySpoil_clean (s := s.bgDone 12) hcells i b
  refine State.tlyScan_reads hread hsnow hclk [(i, b)] (t := (s.bgDone 12).withCells i (spoiled ({}, {}) b)) ?_
  simp only [List.filter_cons, hi, decide_true, if_true, List.filter_nil, List.foldl_cons, List.foldl_nil, hstrike, hspoil]

/-- A scan that finds both cells bad. -/
theorem State.tlyScan_both :
    s.tlyScan [(i, false), (i, true)] = ((s.bgDone 12).withCells i ({ good := false }, { good := false })).tlyScanOne i := by
  have hstrike : (s.bgDone 12).tlyStrike 0 = s.bgDone 12 := State.tlyStrike_unarmed (s := s.bgDone 12) hunarmed 0
  have hspoil : (s.bgDone 12).tlySpoil (i, false) = (s.bgDone 12).withCells i (spoiled ({}, {}) false) := State.tlySpoil_clean (s := s.bgDone 12) hcells i false
  refine State.tlyScan_reads hread hsnow hclk [(i, false), (i, true)] (t := (s.bgDone 12).withCells i ({ good := false }, { good := false })) ?_
  simp only [List.filter_cons, hi, decide_true, if_true, List.filter_nil, List.foldl_cons, List.foldl_nil, hstrike, hspoil, State.tlySpoil_again]

end spoil

-- life hours and refusals -----------------------------------------------------------------------------------------------------

theorem State.lifeHour_counts {s : State} (hpor : s.blk.porLow = false) (hsnow : s.blk.snow = 0) : s.lifeHour
    = s.tlyWrite 161 (BitVec.ofNat 32 (min ((s.tlyNext 161).toNat % 2 ^ 20 + 1) (2 ^ 20 - 1))) 4 [.plan] := if_neg (by simp [hpor, hsnow])

theorem State.lifeHour_closed {s : State} (h : s.blk.porLow = true ∨ s.blk.snow ≠ 0) : s.lifeHour = s := if_pos h

/-- A write of another value than the register will hold joins the queue (R521, R524). -/
theorem State.tlyWrite_new {s : State} {i : Nat} {v : Word} (h : v ≠ s.tlyNext i) (cls : Nat) (who : List TlyWho) :
    s.tlyWrite i v cls who = s.tlyEnqueue { idx := i, val := v, cls := cls, who := who } := if_neg h

/-- Below its saturation LIFE_HOURS moves to the next value (R530). -/
theorem nextHour {h : Word} (hlt : h.toNat < 0xFFFFF) :
    BitVec.ofNat 32 (min (h.toNat % 2 ^ 20 + 1) (2 ^ 20 - 1)) = h + 1 ∧ h + 1 ≠ h := by
  have hone : (1 : Word).toNat = 1 := rfl
  have hnext : (h + 1).toNat = h.toNat + 1 := by rw [BitVec.toNat_add, hone]; omega
  refine ⟨BitVec.eq_of_toNat_eq ?_, fun heq => ?_⟩
  · rw [hnext, BitVec.toNat_ofNat]
    omega
  · have := congrArg BitVec.toNat heq
    omega

/-- The only queued write is refused where its register is worn, and nobody waits on it (R522). -/
theorem State.tlyStartF_refuses {s : State} {w : TlyW} (hcur : s.tly.cur = none) (hqueue : s.tly.queue = [w]) (hwait : s.tly.wait = [])
    (hworn : tlyLimit ≤ s.tlyWearOf w.idx) (hwho : w.who = []) (fuel : Nat) : State.tlyStartF (fuel + 1) s
      = State.tlyStartF fuel (({ s with tly := { s.tly with queue := [], wait := [], refused := some w.idx } } : State).capture 0x92 w.idx) := by
  rw [State.tlyStartF, hcur, hqueue, hwait]
  exact (if_pos hworn).trans (by rw [hwho]; rfl)

/-- A write past the endurance limit is refused and reported (R522). -/
theorem State.tlyEnqueue_refused {s : State} {w : TlyW} (hcur : s.tly.cur = none) (hqueue : s.tly.queue = []) (hwait : s.tly.wait = [])
    (hworn : tlyLimit ≤ s.tlyWearOf w.idx) (hwho : w.who = []) :
    s.tlyEnqueue w = ({ s with tly := { s.tly with refused := some w.idx } } : State).capture 0x92 w.idx := by
  have hjoin : s.tlyEnqueue w = State.tlyStartF 2 { s with tly := { s.tly with queue := [w] } } := by
    simp [State.tlyEnqueue, State.tlyStart, hqueue, hwait, tlyInsert]
  have hempty : ({ s with tly := { s.tly with queue := [], wait := [], refused := some w.idx } } : State)
      = { s with tly := { s.tly with refused := some w.idx } } := by
    simp only [← hqueue, hwait.trans hqueue.symm]
  have hidle : ∀ t : State, t.tly.queue = [] → State.tlyStartF 1 t = t := fun t ht => by
    rw [State.tlyStartF, ht]
    cases t.tly.cur <;> rfl
  rw [hjoin, State.tlyStartF_refuses (s := { s with tly := { s.tly with queue := [w] } }) hcur rfl hwait hworn hwho 1, hempty, hidle]
  rw [State.capture_tly]
  exact hqueue

/-- Settles O45: a scan by its clock and its cells; the hour counted below its saturation; the refusal of the only queued write. -/
theorem tallyScanRepairsAndRefusals : Obligations.TallyScanRepairsAndRefusals := by
  intro s t i bad
  refine ⟨fun hread hsnow => ⟨fun hclk ht => ?reads, fun hclk => ?waits⟩, fun hclosed => ?closed, State.tlyScanOne_good,
    State.tlyScanOne_lost, fun cur hcur hone hlive hclass hwear hahead => State.tlyScanOne_repairs hcur hone hlive hclass hwear hahead,
    fun hread hsnow hlive hclk hunarmed hcells hcur hqueue hwait hi ht => ⟨fun b hclass => ?single, ?both⟩,
    fun hpor hsnow => ⟨?hour, fun hlt => ?next⟩, fun hclosed => ?noHour,
    fun w hcur hqueue hwait hworn hwho => State.tlyEnqueue_refused hcur hqueue hwait hworn hwho⟩
  case reads => rw [exec_tallyScan, State.tlyScan_reads hread hsnow hclk bad ht]
  case waits => rw [exec_tallyScan, State.tlyScan_waits hread hsnow hclk]
  case closed => rw [exec_tallyScan, State.tlyScan_closed hclosed]
  case single =>
    have hahead : ((s.bgDone 12).withCells i (spoiled ({}, {}) b)).tlyAhead i = [] := by
      simp [State.tlyAhead, State.withCells, State.bgDone, hcur, hqueue, hwait]
    have hrepair := State.tlyScanOne_repairs (s := (s.bgDone 12).withCells i (spoiled ({}, {}) b)) (i := i) (cur := {})
      (by cases b <;> simp [spoiled]) (by cases b <;> simp [spoiled]) hlive hclass (by decide) hahead
    rw [exec_tallyScan, State.tlyScan_one hread hsnow hclk hunarmed hcells hi, hrepair, ht]
    rfl
  case both =>
    rw [exec_tallyScan, State.tlyScan_both hread hsnow hclk hunarmed hcells hi, State.tlyScanOne_lost (by simp) (by simp), ht]
    rfl
  case hour => rw [exec_lifeHours, State.lifeHour_counts hpor hsnow]
  case next =>
    obtain ⟨hvalue, hnew⟩ := nextHour hlt
    rw [exec_lifeHours, State.lifeHour_counts hpor hsnow, hvalue, State.tlyWrite_new hnew]
  case noHour => rw [exec_lifeHours, State.lifeHour_closed hclosed]

end Sys2Proof.Machine
end

section
/-! PROOFS. A scrubbed word by the clock of its domain and its check, and the disagreement of the collector's copies (R25, R70, R499, R512, R515,
R548). -/
namespace Sys2Proof.Machine

theorem exec_scrub (m : ScrubMem) (idx : Nat) (o : CheckOutcome) (s : State) : exec (.scrub m idx o) s = .next (s.scrubWord m idx o).settle := rfl

-- the scrubber ----------------------------------------------------------------------------------------------------------------

/-- A pass of the scrubber ends with this word by a free choice (R548). -/
def State.scrubPassed (s : State) : State :=
  if Config.freeNat s.free % 2 = 1 then ({ s with free := s.free + 1 } : State).bump .scrubCount else { s with free := s.free + 1 }

/-- The pass of the scrubber moves a counter of its own alone. -/
theorem State.scrubPassed_field {β : Type} (field : State → β) (hreg : ∀ (s : State) v, field (s.setReg .scrubCount 0 0 v) = field s)
    (hfree : ∀ (s : State) n, field { s with free := n } = field s) (s : State) : field s.scrubPassed = field s := by
  unfold State.scrubPassed
  split
  · exact (hreg _ _).trans (hfree s _)
  · exact hfree s _

theorem State.scrubPassed_armedChecker (s : State) : s.scrubPassed.armedChecker = s.armedChecker := by
  refine s.scrubPassed_field State.armedChecker (fun s v => ?_) (fun _ _ => rfl)
  simp only [State.armedChecker, State.setReg_flt, s.setReg_reg_sameIndex .scrubCount .fltInj 0 0 v, reduceCtorEq, if_false]

section scrub
variable {s : State} {m : ScrubMem} (hlive : s.live = true) (hok : m.ok = true) (hup : s.islandUp (scrubIsland m) = true)
include hlive hok hup

theorem State.scrubWord_waits (hclk : s.clkOk (scrubClock m) = false) (idx : Nat) (o : CheckOutcome) :
    s.scrubWord m idx o = s.bgAsk (scrubClock m) := by
  rw [State.scrubWord, if_neg (by simp [hlive, hok, hup]), if_pos (by simp [hclk])]

/-- With its clock running a word of a powered memory is read and checked (R548). -/
theorem State.scrubWord_reads (hclk : s.clkOk (scrubClock m) = true) (idx : Nat) (o : CheckOutcome) :
    s.scrubWord m idx o = (s.bgDone (scrubClock m)).scrubPassed.checkWord m idx o := by
  rw [State.scrubWord, if_neg (by simp [hlive, hok, hup]), if_neg (by simp [hclk])]
  simp only [State.scrubPassed, beq_iff_eq]

end scrub

/-- Without an injection the check of a word has its own outcome (R499, R514). -/
theorem State.checkWord_unarmed {s : State} {m : ScrubMem} (h : s.armedChecker ≠ some (scrubChecker m)) (idx : Nat) :
    s.checkWord m idx .good = s ∧ (∀ src, (scrubSrc m).1 = some src → s.checkWord m idx .correctable = s.capture src idx) ∧
    s.checkWord m idx .uncorrectable = s.checker (scrubSrc m).2 31 (idx % 0x10000) false := by
  have hinj : (s.armedChecker == some (scrubChecker m)) = false := by simpa using h
  refine ⟨by simp [State.checkWord, hinj], fun src hsrc => by simp [State.checkWord, hinj, hsrc], by simp [State.checkWord, hinj]⟩

/-- The DETAIL of an event holds 16 bits (R506). -/
theorem State.capture_detail_mod (s : State) (src detail tag : Nat) (inj : Bool) (least : Nat) :
    s.capture src (detail % 0x10000) tag inj least = s.capture src detail tag inj least := by
  simp only [State.capture, Nat.mod_mod]

/-- A lost word of the gallery is reported by its own source (R500). -/
theorem State.checker_gallery (s : State) (idx : Nat) : s.checker 0x02 31 (idx % 0x10000) false = s.capture 0x02 idx := by
  have hkl : (0x02 : Nat) ∈ [0x74, 0x75, 0x76, 0x77] → s.kl.out.find? (fun k => k.slot == idx % 0x10000 && k.tag == 31 && !k.timedOut) = none :=
    fun h => absurd h (by decide)
  exact (State.checker_report (s := s) (src := 0x02) (tag := 31) (detail := idx % 0x10000) (inj := false) (by decide) hkl).trans
    (s.capture_detail_mod ..)

-- the collector's copies --------------------------------------------------------------------------------------------------------

/-- The bit of BLOCK_FATAL, once set, reads set (R509). -/
theorem pend_fatal (v : Word) : (v ||| bit32 25).getLsbD 25 = true := by simp [bit32]

theorem State.collectorEvent_canPlough {s : State} (h : s.CanPlough) (src : Nat) (inj : Bool) : (s.collectorEvent src inj).CanPlough := h

theorem State.collectorEvent_first {s : State} (h : s.flt.first = none) (src : Nat) (inj : Bool) : (s.collectorEvent src inj).flt.first
    = some ({ src := src, time := s.now, coarse := !s.islandUp 12, inj := inj, cycle := s.flt.cycle }, 4) := congrArg (Option.or · _) h

theorem State.collectorEvent_pend (s : State) (src : Nat) (inj : Bool) : (s.collectorEvent src inj).flt.pend.getLsbD 25 = true :=
  pend_fatal s.flt.pend

theorem State.snowEnter_frozen {s : State} (h : s.CanPlough) : s.snowEnter.blk.frozen = true := by
  obtain ⟨hsnow, hawake⟩ := h
  rw [State.snowEnter, if_neg (by simp [hsnow, hawake])]
  exact (State.snowDone_cases _).elim (fun hdone => by rw [hdone]) (fun hdone => by rw [hdone]; rfl)

/-- With nothing armed a disagreement strikes no injection (R514). -/
theorem exec_collectorMismatch {s : State} (hunarmed : s.armedChecker = none) (logic : Bool) :
    exec (.collectorMismatch logic) s = .next (s.collectorMismatch (if logic then 1 else 0) false).settle := by
  have hquiet (src : Nat) : s.strikes src = false := by simp [State.strikes, hunarmed]
  simp only [exec, execCollectorMismatch, State.done, State.struck, hquiet, Bool.false_eq_true, if_false]

section collector
variable {s : State} (hpor : s.blk.porLow = false) (hsnow : s.blk.snow = 0) (hawake : s.awake = true)
include hpor hsnow hawake

/-- A disagreement is recorded as fatal, and the block enters the snowplough state (R512, R515). -/
theorem State.collectorMismatch_ploughs (src : Nat) (inj : Bool) : ∃ t : State, s.collectorMismatch src inj = t.snowEnter ∧ t.CanPlough ∧
    t.record = (s.collectorEvent src inj).record := by
  refine ⟨(s.collectorEvent src inj).history src 4 0, ?_, ?_, (tallyInv_record (s.collectorEvent src inj)).history rfl src 4 0⟩
  · rw [State.collectorMismatch, if_neg (by simp [hpor]), if_neg (by simp [hsnow])]
  · exact tallyInv_canPlough.history (s := s.collectorEvent src inj) (State.collectorEvent_canPlough ⟨hsnow, hawake⟩ src inj) src 4 0

end collector

/-- Settles O42: the word waits or is read and judged by its check; the disagreement is recorded on the way to the snowplough state. -/
theorem scrubberAndCollectorCopies : Obligations.ScrubberAndCollectorCopies := by
  intro s b t m idx
  refine ⟨fun hlive hok hup => ⟨fun o hclk => ?waits, fun hclk hunarmed hb ht => ?reads⟩, fun logic hpor hsnow hawake hunarmed => ?collector⟩
  case waits => rw [exec_scrub, State.scrubWord_waits hlive hok hup hclk]
  case reads =>
    have hpassed : t = (s.bgDone (scrubClock m)).scrubPassed := by rw [ht, hb]; rfl
    have hstill : t.armedChecker ≠ some (scrubChecker m) := by
      rw [hpassed, State.scrubPassed_armedChecker]
      exact hunarmed
    obtain ⟨hgood, hcorrectable, huncorrectable⟩ := State.checkWord_unarmed hstill idx
    have hword (o : CheckOutcome) : exec (.scrub m idx o) s = .next (t.checkWord m idx o).settle := by
      rw [exec_scrub, State.scrubWord_reads hlive hok hup hclk, hpassed]
    refine ⟨by rw [hword, hgood], fun src hsrc => by rw [hword, hcorrectable src hsrc], fun hgallery => ?_⟩
    rw [hword, huncorrectable, hgallery]
    exact congrArg (fun u : State => Host.Outcome.next u.settle) (t.checker_gallery idx)
  case collector =>
    obtain ⟨x, hx, hplough, hrecord⟩ := State.collectorMismatch_ploughs hpor hsnow hawake (if logic then 1 else 0) false
    obtain ⟨y, hy, hkept, ⟨-, hkey, -, -, hpal, -⟩, hst, -, hentered, -⟩ := State.snowEnter_wiped hplough
    obtain ⟨hpend, hfirst, -⟩ : y.flt.pend = _ ∧ y.flt.first = _ ∧ _ := by
      simpa only [State.record, Prod.mk.injEq] using hkept.trans hrecord
    have hfatal : y.flt.pend.getLsbD 25 = true := hpend ▸ s.collectorEvent_pend _ false
    have hlatched (hempty : s.flt.first = none) := hfirst.trans (State.collectorEvent_first hempty (if logic then 1 else 0) false)
    have hfrozen : y.snowDone.blk.frozen = true := hy ▸ State.snowEnter_frozen hplough
    refine ⟨y.snowDone, by rw [exec_collectorMismatch hunarmed, hx, hy], ?_⟩
    rcases y.snowDone_cases with hdone | hdone
    · rw [hdone] at hfrozen ⊢
      exact ⟨hst, hfrozen, hfatal, hlatched, hkey, hpal, by simp [hentered]⟩
    · rw [hdone] at hfrozen ⊢
      exact ⟨hst, hfrozen, hfatal, hlatched, hkey, hpal, fun _ => rfl⟩

end Sys2Proof.Machine
end

section
/-! PROOFS. The up and down sequences of the digest and easel islands, and their lost acknowledges (R28, R69, R71, R103 to R105, R500). -/
namespace Sys2Proof.Machine

theorem exec_islandWake {s : State} (hlive : s.live = true) (k : Island) : exec (.islandWake k) s = .next (s.islWake (islIdx k)).settle :=
  congrArg (fun t : State => Host.Outcome.next t.settle) (if_pos hlive)

theorem exec_powerAck (k : Island) (v : Bool) (s : State) :
    exec (.powerAck k v) s = .next (s.powerAck (islIdx k) v).initAdvance.settle := rfl

theorem exec_powerAckLoss (k : Island) (s : State) : exec (.powerAckLoss k) s = .next (s.powerAck (islIdx k) false).settle := rfl

theorem exec_retentionAck (k : Island) (v : Bool) (s : State) :
    exec (.retentionAck k v) s = .next ((s.retAck (islIdx k) v).checkKept (islIdx k)).initAdvance.settle := rfl

theorem exec_retAck (k : Island) (s : State) : exec (.retAck k) s = .next (s.retLate (islIdx k)).settle := rfl

theorem exec_islandIdleTimeout (k : Island) (s : State) : exec (.islandIdleTimeout k) s = .next (s.idleTimeout (islIdx k)).settle := rfl

-- writing an island twice -------------------------------------------------------------------------------------------------------

theorem terase_terase {α : Type} (t : Tbl α) (i : Nat) : terase i (terase i t) = terase i t := by
  induction t with
  | nil => rfl
  | cons e t ih => by_cases h : e.1 = i <;> simp [terase, h, ih]

theorem terase_tinsert {α : Type} (t : Tbl α) (i : Nat) (x : α) : terase i (tinsert i x t) = terase i t := by
  induction t with
  | nil => simp [tinsert, terase]
  | cons e t ih =>
    by_cases h : i < e.1
    · simp [tinsert, terase, h]
    · by_cases he : e.1 = i <;> simp [tinsert, terase, h, he, ih]

/-- Of two writes to one key the later one stays. -/
theorem tset_tset {α : Type} [DecidableEq α] (d : Nat → α) (t : Tbl α) (i : Nat) (x y : α) : tset d (tset d t i x) i y = tset d t i y := by
  have herased : terase i (tset d t i x) = terase i t := by
    unfold tset
    split
    · exact terase_terase t i
    · rw [terase_tinsert, terase_terase]
  rw [tset, herased]
  rfl

theorem State.setIsl_setIsl (s : State) (i : Nat) (x y : Isl) : (s.setIsl i x).setIsl i y = s.setIsl i y := by
  simp only [State.setIsl, tset_tset]

-- the block is past INIT ----------------------------------------------------------------------------------------------------------

/-- The block does not stand at INIT of its start (R83). -/
structure State.PastInit (s : State) : Prop where
  phase : s.blk.st = .starting → s.blk.phase ≠ 1

theorem State.PastInit.initAdvance {s : State} (h : s.PastInit) : s.initAdvance = s := if_neg fun hs => h.phase hs.2.1 hs.2.2.1

theorem State.PastInit.congr {s t : State} (hs : s.PastInit) (h : t.blk = s.blk) : t.PastInit :=
  ⟨h ▸ hs.phase⟩

theorem tallyInv_pastInit : TallyInv State.PastInit where
  captured _ _ hs := ⟨hs.phase⟩
  port _ _ hs := ⟨hs.phase⟩
  frozen _ hs := ⟨hs.phase⟩
  tly _ _ _ hs := ⟨hs.phase⟩
  fns _ _ hs := ⟨hs.phase⟩
  gen _ _ _ hs := ⟨hs.phase⟩
  warmup s _ := ⟨by simp⟩

@[simp] theorem State.abandonTest_blk (s : State) (u : Nat) : (s.abandonTest u).blk = s.blk := rfl

@[simp] theorem State.endClassTests_blk (s : State) (u : Nat) : (s.endClassTests u).blk = s.blk := by
  refine foldl_keeps_field State.blk (fun s v => ?_) _ s
  split_ifs <;> simp

@[simp] theorem State.abandonRun_blk (s : State) (id u : Nat) : (s.abandonRun id u).blk = s.blk := by
  unfold State.abandonRun
  split <;> simp

@[simp] theorem State.markRetried_blk (s : State) (id : Nat) : (s.markRetried id).blk = s.blk := by
  unfold State.markRetried
  split <;> simp

@[simp] theorem State.easelCount_blk (s : State) (e : Nat) (c : RegName) (sat : Bool) : (s.easelCount e c sat).blk = s.blk := by
  unfold State.easelCount
  split_ifs <;> simp

@[simp] theorem State.compareFailed_blk (s : State) (e : Nat) : (s.compareFailed e).blk = s.blk := by simp [State.compareFailed]

@[simp] theorem State.retireEasel_blk (s : State) (e : Nat) (third : Option Nat) : (s.retireEasel e third).blk = s.blk := by
  unfold State.retireEasel
  dsimp only
  rw [State.setEasel_blk]
  refine (foldl_keeps_field State.blk (fun s (c : Comp) => s.markRetried_blk c.id) _ _).trans ?_
  split <;> simp

section past
variable {s : State} (h : s.PastInit)
include h

theorem State.PastInit.capture (src detail tag : Nat) (inj : Bool) (least : Nat) : (s.capture src detail tag inj least).PastInit :=
  tallyInv_pastInit.capture h src detail tag inj least

theorem State.PastInit.markRetired (u : Nat) : (s.markRetired u).PastInit := by
  unfold State.markRetired
  split
  · exact h
  · have hbit : ({ s with flt := { s.flt with retired := s.flt.retired ||| BitVec.ofNat 27 (2 ^ u) } } : State).PastInit := ⟨h.phase⟩
    exact State.PastInit.capture (tallyInv_pastInit.write hbit _ _ _ _) _ _ _ _ _

/-- The retirement of an easel writes the tally store, and begins no INIT. -/
theorem State.PastInit.retireEaselUnit {e : Nat} (he : e < 4) (third : Option Nat) : (s.retireUnit (13 + e) third).PastInit := by
  unfold State.retireUnit
  split
  · exact h
  · rw [if_neg (by omega), if_neg (by omega)]
    dsimp only
    rw [if_neg (by omega), if_neg (by omega)]
    exact (h.markRetired (13 + e)).congr (by simp)

theorem State.PastInit.failEasel {e : Nat} (he : e < 4) (inj : Bool) (detail : Nat) : (s.failEasel e inj detail).PastInit := by
  unfold State.failEasel
  split
  · exact h
  next c _ =>
    have hcounted : ((s.abandonRun c.id (13 + e)).compareFailed e).PastInit := h.congr (by simp)
    have hmarked := (hcounted.capture (0x50 + e) detail 31 inj 0).congr (State.markRetried_blk _ c.id)
    dsimp only
    split_ifs
    · exact hmarked
    · exact hmarked.congr (State.setEasel_blk _ _ _)
    · exact hmarked.congr (State.setEasel_blk _ _ _)
    · exact (hmarked.congr (State.setEasel_blk _ _ _)).retireEaselUnit he _
    · exact hmarked.capture ..

theorem State.PastInit.recover {k : State → State} (hk : ∀ t, (k t).blk = t.blk) : (s.recover k).PastInit := by
  unfold State.recover
  split
  · exact h
  · exact h.congr (hk s)

theorem State.PastInit.ctxLost (src detail : Nat) (inj : Bool) : (s.ctxLost src detail inj).PastInit := by
  unfold State.ctxLost
  split
  · exact (h.capture ..).recover fun _ => rfl
  · exact h.capture ..

/-- A lost word of the first canvas or of the context cache. -/
theorem State.PastInit.checker {src : Nat} (hsrc : src = 0x50 ∨ src = 0x71) (detail : Nat) (inj : Bool) :
    (s.checker src 31 detail inj).PastInit := by
  by_cases hlive : s.live = true
  · rcases hsrc with rfl | rfl
    · have hmem : s.checker 0x50 31 detail inj = s.easelMem 0 detail inj := by simp [State.checker, hlive]
      rw [hmem]
      unfold State.easelMem
      dsimp only
      split
      · exact h.failEasel (by decide) ..
      · split
        · exact (h.congr (by simp)).failEasel (by decide) ..
        · exact h.capture ..
    · have hmem : s.checker 0x71 31 detail inj = s.ctxLost 0x71 detail inj := by simp [State.checker, hlive]
      rw [hmem]
      exact h.ctxLost ..
  · have hreport : s.checker src 31 detail inj = s.capture src detail 31 inj := by
      rcases hsrc with rfl | rfl <;> simp [State.checker, hlive]
    rw [hreport]
    exact h.capture ..

/-- The check of what the digest or easel island has kept (R28, R71). -/
theorem State.PastInit.checkKept {i : Nat} (hi : i = 9 ∨ i = 10) : (s.checkKept i).PastInit := by
  have hsrc : (scrubSrc (keptMem i)).2 = 0x50 ∨ (scrubSrc (keptMem i)).2 = 0x71 := by rcases hi with rfl | rfl <;> decide
  unfold State.checkKept
  split
  · exact h
  · unfold State.checkWord
    dsimp only
    have hread : (if (s.setIsl i { s.isl i with kept := false }).armedChecker == some (scrubChecker (keptMem i)) then
        (s.setIsl i { s.isl i with kept := false }).injFired else s.setIsl i { s.isl i with kept := false }).PastInit :=
      h.congr (by split <;> simp)
    split
    · exact hread
    · split
      · exact hread.capture ..
      · exact hread
    · exact hread.checker hsrc ..

end past

-- the sequences -----------------------------------------------------------------------------------------------------------------

section island
variable {s : State} {i : Nat} {x : Isl} (hx : s.isl i = x)
include hx

theorem State.islWake_down (hstep : x.step = .down) (hack : x.ack = false) :
    s.islWake i = s.setIsl i { x with step := .upPower, req := true, wake := false } := by
  simp only [State.islWake, hx, hstep, hack, Bool.false_eq_true, if_false]

theorem State.powerAck_ready (hcore : i ≠ 12) (hstep : x.step = .upPower) (hreq : x.retReq = false) (hack : x.retAck = false) :
    s.powerAck i true = s.setIsl i { x with ack := true, step := .up, wake := false, idle := none } := by
  simp only [State.powerAck, hx, hstep, hreq, hack, if_true, Bool.or_self, Bool.false_eq_true, if_false, State.islReady,
    State.isl_setIsl_self, hcore, State.setIsl_setIsl]

theorem State.powerAck_retained (hstep : x.step = .upPower) (hreq : x.retReq = true) :
    s.powerAck i true = s.setIsl i { x with ack := true, retReq := false, step := .upRet } := by
  simp only [State.powerAck, hx, hstep, hreq, if_true, Bool.true_or]

theorem State.powerAck_off (hstep : x.step = .downPower) (hreq : x.req = false) (hwake : x.wake = false) :
    s.powerAck i false = s.setIsl i { x with ack := false, step := .down } := by
  simp only [State.powerAck, hx, hstep, hreq, hwake, Bool.false_eq_true, if_false]

/-- The acknowledge falls while power is requested (R500). -/
theorem State.powerAck_lost (hreq : x.req = true) : s.powerAck i false = (s.setIsl i { x with ack := false }).capture 0x05 := by
  simp only [State.powerAck, hx, hreq, Bool.false_eq_true, if_false, if_true]

theorem State.retAck_ended (hcore : i ≠ 12) (hstep : x.step = .upRet) :
    s.retAck i false = s.setIsl i { x with retAck := false, step := .up, wake := false, idle := none } := by
  unfold State.retAck
  simp only [hx, hstep, State.islReady, State.isl_setIsl_self, hcore, if_false, State.setIsl_setIsl]

theorem State.retAck_holds (hstep : x.step = .downRet) (hreq : x.retReq = true) :
    s.retAck i true = s.setIsl i { x with retAck := true, req := false, step := .downPower } := by
  unfold State.retAck
  simp only [hx, hstep, hreq, if_true]

end island

/-- An island that is not up has nothing to check. -/
theorem State.checkKept_off {s : State} {i : Nat} (h : s.islandUp i = false) : s.checkKept i = s := if_pos (.inr (by simp [h]))

/-- The digest and the easel island lose nothing beside what their engines hold (R27, R103). -/
theorem State.islLose_cluster {i : Nat} (hi : i = 9 ∨ i = 10) (s : State) (kept : Bool) : s.islLose i kept = s := by
  rcases hi with rfl | rfl <;> simp [State.islLose]

section cluster
variable {s : State} {i : Nat} {x : Isl} (hi : i = 9 ∨ i = 10) (hx : s.isl i = x)
include hi hx

theorem State.idleTimeout_down (hlive : s.live = true) (hst : s.blk.st = .service) (hstep : x.step = .up) (hack : x.retAck = false)
    (hidle : s.islandIdle i = true) : s.idleTimeout i
      = s.setIsl i (if x.idle.getD (s.retains i) then { x with step := .downRet, retReq := true, kept := true, idle := none }
          else { x with step := .downPower, req := false, kept := false, idle := none }) := by
  have hcore : ¬ (i = 12 ∧ ¬ s.keeps 12 = true) := by omega
  rw [State.idleTimeout, if_neg (by simp [hlive, hst, hidle]), if_neg hcore, State.islDown]
  simp only [hx, hstep, not_true_eq_false, ne_eq, if_false, State.islLose_cluster hi, State.keeps, hack, Bool.not_false]
  split <;> rfl

/-- Without the acknowledge of its retention the island is taken as off (R500). -/
theorem State.retLate_down (hstep : x.step = .downRet) : s.retLate i = (s.capture 0x06).recover (fun t =>
    t.setIsl i { x with req := false, retReq := false, kept := false, step := .downPower }) := by
  simp only [State.retLate, hx, hstep, State.islLose_cluster hi]

end cluster

/-- Settles O29: each acknowledge moves the island's sequence by one step; the check of what was kept begins no INIT. -/
theorem islandPowerSequences : Obligations.IslandPowerSequences := by
  intro s k x hx hcore hent hlane hinit
  have hi : islIdx k = 9 ∨ islIdx k = 10 := by cases k <;> simp_all [islIdx]
  have hpast (y : Isl) : (s.setIsl (islIdx k) y).PastInit := ⟨hinit⟩
  refine ⟨fun hlive hstep hack => ?wake, fun hstep hreq hack => ?ready, fun hstep hreq => ?retained, fun hstep => ?checked,
    fun hlive hst hstep hack hidle => ?idle, fun hstep hreq _ => ?holds, fun hstep hreq hwake => ?off, fun hreq => ?lost, fun hstep => ?late⟩
  case wake => rw [exec_islandWake hlive, State.islWake_down hx hstep hack]
  case ready => rw [exec_powerAck, State.powerAck_ready hx hcore hstep hreq hack, (hpast _).initAdvance]
  case retained => rw [exec_powerAck, State.powerAck_retained hx hstep hreq, (hpast _).initAdvance]
  case checked => rw [exec_retentionAck, State.retAck_ended hx hcore hstep, ((hpast _).checkKept hi).initAdvance]
  case idle => rw [exec_islandIdleTimeout, State.idleTimeout_down hi hx hlive hst hstep hack hidle]
  case holds =>
    rw [exec_retentionAck, State.retAck_holds hx hstep hreq, State.checkKept_off (by simp [State.islandUp]), (hpast _).initAdvance]
  case off => rw [exec_powerAck, State.powerAck_off hx hstep hreq hwake, (hpast _).initAdvance]
  case lost => rw [exec_powerAckLoss, State.powerAck_lost hx hreq]
  case late => rw [exec_retAck, State.retLate_down hi hx hstep]

end Sys2Proof.Machine
end

section
/-! PROOFS. A stroke's commit, its retry on the reserve after a mismatch, and its loss after the third attempt (R18, R30 to R33, R291, R292,
R297). -/
namespace Sys2Proof.Machine

theorem exec_strokeCommit_lane (n : Nat) (s : State) : exec (.strokeCommit (.lane n)) s = .next (s.commitLane n).settle := rfl

theorem exec_duplicateMismatch_lane {n : Nat} (hn : n < 9) (s : State) :
    exec (.duplicateMismatch (.lane n)) s = .next (s.failLane n (0x20 + n) false).settle :=
  congrArg (fun t : State => Host.Outcome.next t.settle) (if_pos hn)

-- the busy counter and the other registers ------------------------------------------------------------------------------------

/-- The key of the busy counter of unit `u` (R297, R319, R400). -/
def busyKey (u : Nat) : Nat :=
  regKey (if u < 9 then .laneBusyCount else if u < 13 then .digBusyCount else .easelBusyCount)
    (if u < 9 then u else if u < 13 then u - 9 else u - 13) 0

theorem State.addBusy_reg_ne (s : State) (u c : Nat) {m : RegName} {i j : Nat} (h : regKey m i j ≠ busyKey u) :
    (s.addBusy u c).reg m i j = s.reg m i j := by
  exact (apply_ite (fun t : State => t.reg m i j) _ _ _).trans ((if_congr Iff.rfl rfl (State.reg_setReg_ne _ _ h)).trans (ite_self _))

/-- No other register of unit `u` has the key of its busy counter, whatever `u` is. -/
theorem regKey_ne_busyKey {m : RegName} (hm : m ≠ .laneBusyCount) (u : Nat) : regKey m u 0 ≠ busyKey u := by
  unfold busyKey
  by_cases hlane : u < 9
  · simpa only [hlane, if_true] using fun h => hm (regKey_name_injective u 0 h)
  · intro h
    simp only [hlane, if_false, regKey] at h
    generalize RegName.ctorIdx m = a, RegName.ctorIdx (if u < 13 then _ else _) = b at h
    split at h <;> omega

theorem State.laneBusy_eq (s : State) (n c : Nat) : s.laneBusy n c = s.addBusy n (skipCycles (s.ageU n).step c) := rfl

-- the stroke leaves its lane --------------------------------------------------------------------------------------------------

theorem State.mainLane_unpaired {s : State} {n : Nat} {w : Run} (hrun : (s.lane n).run = some w) (hpair : w.pair = none) : s.mainLane n = n := by
  simp [State.mainLane, hrun, hpair]

theorem State.clearLane_unpaired {s : State} {n : Nat} {w : Run} (hrun : (s.lane n).run = some w) (hpair : w.pair = none) :
    s.clearLane n = s.setLane n { s.lane n with run := none } := by
  simp only [State.clearLane, hrun, hpair]

/-- A request goes on: its first pass has not failed, and it has strokes left (R19). -/
theorem State.ended_none_iff (s : State) (r : Req) :
    s.ended r = none ↔ ¬ (dTwoPass r.d ∧ r.committed.length = passStrokes r.d ∧ ¬ r.pass1Ok) ∧ r.committed.length ≠ r.strokes := by
  unfold State.ended
  dsimp only
  split_ifs <;> simp_all

/-- Whether a request goes on rests on the request alone. -/
theorem State.ended_none_congr {s : State} (t : State) {r : Req} (h : s.ended r = none) : t.ended r = none :=
  (t.ended_none_iff r).mpr ((s.ended_none_iff r).mp h)

theorem State.laneSpent_goesOn {s : State} {r : Req} {w : Run} (hended : s.ended { r with committed := r.committed ++ [w.k] } = none)
    (hpair : w.pair = none) (n : Nat) : ∃ c, s.laneSpent n r w = s.addBusy n c := by
  unfold State.laneSpent
  simp only [hended, Option.isSome_none, Bool.false_eq_true, if_false, if_true, hpair, State.laneBusy_eq]
  split <;> exact ⟨_, rfl⟩

-- the bytes of a stroke drain -------------------------------------------------------------------------------------------------

theorem State.writeStroke_keeps_field {β : Type} (field : State → β)
    (h : ∀ (s : State) fab id, field { s with fab := fab, nextId := id } = field s)
    (s : State) (r : Req) (u k : Nat) (b : Bytes) : field (s.writeStroke r u k b) = field s :=
  foldl_keeps_field field (fun t _ => h t _ _) _ s

/-- What the writes of a stroke put in the queue depends on the fabric and the next serial alone. -/
theorem State.foldl_queueWrite_fab {tag : Nat} {use : Use} {buf : Option (Nat × Nat)} (l : List (Nat × Bytes)) :
    ∀ {s t : State}, s.fab = t.fab → s.nextId = t.nextId →
      (l.foldl (fun s p => s.queueWrite p.1 p.2 tag use none [] buf) s).fab =
        (l.foldl (fun s p => s.queueWrite p.1 p.2 tag use none [] buf) t).fab := by
  induction l with
  | nil => exact fun hfab _ => hfab
  | cons p l ih =>
    intro s t hfab hid
    exact ih (by simp only [State.queueWrite, hfab, hid]) (by simp only [State.queueWrite, hid])

theorem State.writeStroke_fab {s t : State} {r q : Req} (hfab : s.fab = t.fab) (hid : s.nextId = t.nextId) (hf : r.f = q.f) (hr : r.id = q.id)
    (hdsts : r.dsts = q.dsts) (u k : Nat) (b : Bytes) : (s.writeStroke r u k b).fab = (t.writeStroke q u k b).fab := by
  unfold State.writeStroke
  rw [hf, hr, hdsts, hid]
  exact State.foldl_queueWrite_fab _ hfab hid

theorem State.req_setReq {s : State} {r q : Req} (h : s.req r.id = some q) : (s.setReq r).req r.id = some r := by
  have hany : ((fun x : Req => x.id == r.id) ∘ fun x => if x.id = r.id then r else x) = fun x => x.id == r.id := by
    funext x
    by_cases hx : x.id = r.id <;> simp [hx]
  have hq : q.id = r.id := by simpa using List.find?_some h
  have hfound : s.reqs.find? (fun x => x.id == r.id) = some q := h
  unfold State.req State.setReq
  rw [List.find?_map, hany, hfound, Option.map_some, if_pos hq]

-- a stroke commits ------------------------------------------------------------------------------------------------------------

/-- Stroke `k` of a request has committed with output `out` (R18, R19). -/
def Req.strokeDone (r : Req) (k : Nat) (out : Bytes) : Req :=
  { r with committed := r.committed ++ [k], written := r.written + out.length
           wrote := r.wrote ++ (segPlace (tget (fun _ => []) r.dsts k) out).map (fun p => (p.1, p.2.length)) }

theorem State.ended_strokeDone (s t : State) {r : Req} {k : Nat} (out : Bytes) (h : s.ended { r with committed := r.committed ++ [k] } = none) :
    t.ended (r.strokeDone k out) = none :=
  (t.ended_none_iff _).mpr ((s.ended_none_iff _).mp h)

theorem Run.again_first {w : Run} (hfailed : w.failed = []) (hdig : w.failedDig = []) : w.again = false := by simp [Run.again, hfailed, hdig]

theorem State.commitStroke_goesOn {s t : State} {r : Req} {w : Run} (out : Bytes) (h : s.ended { r with committed := r.committed ++ [w.k] } = none)
    (hagain : w.again = false) (u : Nat) :
    t.commitStroke r u w out = some ((t.setReq (r.strokeDone w.k out)).writeStroke (r.strokeDone w.k out) u w.k out) := by
  have hgo := s.ended_strokeDone t out h
  unfold State.commitStroke
  dsimp only
  rw [hagain, Bool.or_false]
  split
  next => rfl
  next hsome => exact absurd (hgo.symm.trans hsome) nofun

section commit
variable {s : State} {n : Nat} {w : Run} {r : Req} {out : Bytes} (hlive : s.live = true) (hclk : s.clkOk 4 = true) (hbuf : s.bufferFull n = false)
  (hrun : (s.lane n).run = some w) (hpair : w.pair = none) (hdigest : w.digest = none) (hfailed : w.failed = []) (hfailedDig : w.failedDig = [])
  (hout : w.out = some out) (hreq : s.req w.id = some r) (hruns : s.fnRuns r.f = true) (harmed : s.armedChecker ≠ some (0x20 + n))
  (harmedBuf : s.armedChecker ≠ some 0x39) (hended : s.ended { r with committed := r.committed ++ [w.k] } = none)
include hlive hclk hbuf hrun hpair hdigest hfailed hfailedDig hout hreq hruns harmed harmedBuf hended

/-- A stroke that is not its request's last leaves the lane, is counted, and its bytes drain (R18, R297). -/
theorem State.commitLane_goesOn : s.commitLane n = ((((s.clearLane n).laneSpent n r w).laneCount n .laneStrokeCount false).setReq
    (r.strokeDone w.k out)).writeStroke (r.strokeDone w.k out) n w.k out := by
  have hinjected : s.injected n w = none := by
    simp [State.injected, harmed, State.wordStrike_none harmedBuf, hpair, hdigest]
  have haux : s.auxFail r w.k = none := by simp [State.auxFail, hended]
  have hagain := Run.again_first hfailed hfailedDig
  rw [State.commitLane]
  simp only [State.mainLane_unpaired hrun hpair, hrun, hreq, hout, hlive, hclk, hruns, hbuf, not_true_eq_false, Bool.false_eq_true, or_self, if_false,
    State.singleStrike_none harmedBuf, hinjected, haux, hpair, hdigest, hagain, State.commitStroke_goesOn out hended hagain, Option.getD_some]

end commit

theorem State.laneCount_running {s : State} {n : Nat} (h : bitOf (s.reg .laneCntCtrl n) 0 = false) (c : RegName) (k : Nat) :
    s.laneCount n c false k = s.setReg c n 0 (s.reg c n + BitVec.ofNat 32 k) := by
  simp [State.laneCount, h]

/-- What the commit of a stroke leaves on its lane, in its request, in the queue and in its counter. -/
theorem strokeCommit_effects {s : State} {n : Nat} {w : Run} {r : Req} {out : Bytes} (hrun : (s.lane n).run = some w) (hpair : w.pair = none)
    (hreq : s.req r.id = some r) (hended : s.ended { r with committed := r.committed ++ [w.k] } = none)
    (hcnt : bitOf (s.reg .laneCntCtrl n) 0 = false) {u : State}
    (hu : u = ((((s.clearLane n).laneSpent n r w).laneCount n .laneStrokeCount false).setReq (r.strokeDone w.k out)).writeStroke
      (r.strokeDone w.k out) n w.k out) :
    (u.lane n).run = none ∧ u.req r.id = some (r.strokeDone w.k out) ∧ u.fab.wrQ = (s.writeStroke r n w.k out).fab.wrQ ∧
      u.reg .laneStrokeCount n = s.reg .laneStrokeCount n + 1 ∧ u.ctx = s.ctx ∧ u.flt = s.flt := by
  obtain ⟨c, hspent⟩ := State.laneSpent_goesOn (State.ended_none_congr (s.clearLane n) hended) hpair n
  have hreg (m : RegName) (hm : m ≠ .laneBusyCount) :
      ((s.setLane n { s.lane n with run := none }).addBusy n c).reg m n = s.reg m n := by
    rw [State.addBusy_reg_ne _ _ _ (regKey_ne_busyKey hm n)]
    simp
  have hcntName : RegName.laneCntCtrl ≠ .laneBusyCount := by decide
  have hstrokeName : RegName.laneStrokeCount ≠ .laneBusyCount := by decide
  rw [hspent, State.clearLane_unpaired hrun hpair, State.laneCount_running (by rw [hreg _ hcntName, hcnt]), hreg _ hstrokeName] at hu
  have hkeep {β : Type} (field : State → β) (h : ∀ (s : State) fab id, field { s with fab := fab, nextId := id } = field s) := by
    exact hu ▸ State.writeStroke_keeps_field field h _ (r.strokeDone w.k out) n w.k out
  refine ⟨?lane, ?request, ?drain, ?count, ?context, ?collector⟩
  case lane => exact (hkeep (fun t => (t.lane n).run) fun _ _ _ => rfl).trans (by simp [State.lane, State.setLane])
  case request =>
    exact (hkeep (fun t => t.req r.id) fun _ _ _ => rfl).trans
      (State.req_setReq (r := r.strokeDone w.k out) (q := r) (by
        simp only [State.req, State.setReg_reqs, State.addBusy_reqs, State.setLane_reqs]
        exact hreq))
  case drain =>
    rw [hu]
    exact congrArg Fab.wrQ (State.writeStroke_fab (by simp) (by simp) rfl rfl rfl n w.k out)
  case count => exact (hkeep (fun t => t.reg .laneStrokeCount n) fun _ _ _ => rfl).trans (by simp)
  case context => exact (hkeep State.ctx fun _ _ _ => rfl).trans (by simp)
  case collector => exact (hkeep State.flt fun _ _ _ => rfl).trans (by simp)

-- a stroke that has failed its check stops ------------------------------------------------------------------------------------

/-- The stroke `w` of lane `n` stops at a mismatch and is counted (R291, R297). -/
def State.strokeStopped (s : State) (n : Nat) (w : Run) : State := ((s.clearLane n).laneStopped n w).laneCount n .laneRetryCount true

theorem State.laneCount_field {β : Type} (field : State → β) (h : ∀ (s : State) n i j v, field (s.setReg n i j v) = field s)
    (s : State) (n : Nat) (c : RegName) (sat : Bool) (k : Nat) : field (s.laneCount n c sat k) = field s := by
  unfold State.laneCount
  split_ifs
  · rfl
  · exact h ..
  · exact h ..

theorem State.laneStopped_unpaired (s : State) (n : Nat) {w : Run} (hpair : w.pair = none) :
    s.laneStopped n w = s ∨ ∃ c, s.laneStopped n w = ({ s with free := s.free + 2 } : State).addBusy n c := by
  unfold State.laneStopped
  split
  · exact .inl rfl
  · simp only [hpair]
    exact .inr ⟨_, rfl⟩

section stopped
variable {s : State} {n : Nat} {w : Run} (hrun : (s.lane n).run = some w) (hpair : w.pair = none)
include hrun hpair

theorem State.strokeStopped_field {β : Type} (field : State → β) (hlane : ∀ (s : State) x, field (s.setLane n x) = field s)
    (hfree : ∀ (s : State) x, field { s with free := x } = field s) (hbusy : ∀ (s : State) c, field (s.addBusy n c) = field s)
    (hreg : ∀ (s : State) n i j v, field (s.setReg n i j v) = field s) : field (s.strokeStopped n w) = field s := by
  rw [State.strokeStopped, State.laneCount_field field hreg, State.clearLane_unpaired hrun hpair]
  obtain hsame | ⟨c, hc⟩ := (s.setLane n { s.lane n with run := none }).laneStopped_unpaired n hpair
  · rw [hsame, hlane]
  · rw [hc, hbusy, hfree, hlane]

theorem State.strokeStopped_lanes : (s.strokeStopped n w).lanes = (s.setLane n { s.lane n with run := none }).lanes := by
  rw [State.strokeStopped, State.laneCount_field State.lanes (by simp), State.clearLane_unpaired hrun hpair]
  obtain hsame | ⟨c, hc⟩ := (s.setLane n { s.lane n with run := none }).laneStopped_unpaired n hpair
  · rw [hsame]
  · rw [hc, State.addBusy_lanes]

theorem State.strokeStopped_reqs : (s.strokeStopped n w).reqs = s.reqs :=
  State.strokeStopped_field hrun hpair State.reqs (by simp) (fun _ _ => rfl) (by simp) (by simp)

theorem State.strokeStopped_fab : (s.strokeStopped n w).fab = s.fab :=
  State.strokeStopped_field hrun hpair State.fab (by simp) (fun _ _ => rfl) (by simp) (by simp)

theorem State.strokeStopped_ctx : (s.strokeStopped n w).ctx = s.ctx :=
  State.strokeStopped_field hrun hpair State.ctx (by simp) (fun _ _ => rfl) (by simp) (by simp)

theorem State.strokeStopped_flt : (s.strokeStopped n w).flt = s.flt :=
  State.strokeStopped_field hrun hpair State.flt (by simp) (fun _ _ => rfl) (by simp) (by simp)

theorem State.strokeStopped_blk : (s.strokeStopped n w).blk = s.blk :=
  State.strokeStopped_field hrun hpair State.blk (by simp) (fun _ _ => rfl) (by simp) (by simp)

theorem State.strokeStopped_pwr : (s.strokeStopped n w).pwr = s.pwr :=
  State.strokeStopped_field hrun hpair State.pwr (by simp) (fun _ _ => rfl) (by simp) (by simp)

theorem State.strokeStopped_time : (s.strokeStopped n w).time = s.time :=
  State.strokeStopped_field hrun hpair State.time (by simp) (fun _ _ => rfl) (by simp) (by simp)

theorem State.strokeStopped_sched : (s.strokeStopped n w).sched = s.sched :=
  State.strokeStopped_field hrun hpair State.sched (by simp) (fun _ _ => rfl) (by simp) (by simp)

theorem State.strokeStopped_reserve : (s.strokeStopped n w).reserve = s.reserve :=
  State.strokeStopped_field hrun hpair State.reserve (by simp) (fun _ _ => rfl) (by simp) (by simp)

theorem State.strokeStopped_lane_self : ((s.strokeStopped n w).lane n).run = none := by
  simp [State.lane, State.strokeStopped_lanes hrun hpair, State.setLane]

theorem State.strokeStopped_lane_ne {m : Nat} (hm : m ≠ n) : (s.strokeStopped n w).lane m = s.lane m := by
  rw [State.lane, State.strokeStopped_lanes hrun hpair]
  exact s.lane_setLane_ne _ hm

/-- The two counters are not the class of a source. -/
theorem State.strokeStopped_faultClass (hn : n < 9) {src : Nat} (hsrc : src < 0x100) : (s.strokeStopped n w).faultClass src = s.faultClass src := by
  have hkey {c : RegName} (hc : RegName.fltReact ≠ c) : regKey .fltReact 0 src ≠ regKey c n 0 := regKey_ne hc (by omega) (by omega)
  have hbusy : regKey .fltReact 0 src ≠ busyKey n := by simpa only [busyKey, hn, if_true] using hkey (by decide)
  refine State.faultClass_congr ?_
  rw [State.strokeStopped, State.clearLane_unpaired hrun hpair]
  have hstop : ((s.setLane n { s.lane n with run := none }).laneStopped n w).reg .fltReact 0 src = s.reg .fltReact 0 src := by
    obtain hsame | ⟨c, hc⟩ := (s.setLane n { s.lane n with run := none }).laneStopped_unpaired n hpair
    · rw [hsame, State.setLane_reg]
    · rw [hc, State.addBusy_reg_ne _ _ _ hbusy]
      rw [← State.setLane_reg s n { s.lane n with run := none }]
      rfl
  unfold State.laneCount
  split_ifs
  · exact hstop
  · exact (State.reg_setReg_ne _ _ (hkey (by decide))).trans hstop
  · exact absurd rfl ‹_›

end stopped

-- its retry -------------------------------------------------------------------------------------------------------------------

/-- The next attempt of a stroke that has failed on lane `n` (R33, R292). -/
def Run.nextAttempt (w : Run) (n : Nat) : Run :=
  { w with attempt := w.attempt + 1, failed := w.failed ++ [n], out := none, digest := none, pair := none }

/-- The state after the mismatch of stroke `w` on lane `n` has been captured (R30, R506). -/
def State.mismatched (s : State) (n : Nat) (w : Run) : State := (s.strokeStopped n w).captured (eventOf (s.strokeStopped n w) (0x20 + n) 0 31 false)

theorem State.mismatched_captured {s : State} {n : Nat} {w : Run} (hrun : (s.lane n).run = some w) (hpair : w.pair = none) :
    (s.mismatched n w).flt.captured =
      s.flt.captured ++ [{ src := 0x20 + n, time := s.now, coarse := !s.islandUp 12, cycle := s.flt.cycle }] := by
  simp only [State.mismatched, State.captured, eventOf, State.now, State.islandUp, State.isl, State.strokeStopped_flt hrun hpair,
    State.strokeStopped_time hrun hpair, State.strokeStopped_pwr hrun hpair]

section fail
variable {s : State} {n : Nat} {w : Run} (hn : n < 9) (hrun : (s.lane n).run = some w) (hpair : w.pair = none)
  (hclass : s.faultClass (0x20 + n) = 1)
include hn hrun hpair hclass

theorem State.strokeStopped_capture : (s.strokeStopped n w).capture (0x20 + n) = s.mismatched n w := by
  have hlisted : (faultFloor (0x20 + n)).isNone = false := by interval_cases n <;> rfl
  refine State.capture_recorded hlisted rfl fun h => ?_
  rw [State.strokeStopped_faultClass hrun hpair hn (by omega), hclass] at h
  exact absurd h.1 (by decide)

/-- A failed stroke waits for its next attempt, and is lost after the third (R33). -/
theorem State.failLane_eq (hfrozen : s.blk.frozen = false) : s.failLane n (0x20 + n) false =
    if 3 ≤ w.attempt then (s.mismatched n w).capture 0x29
    else ({ s.mismatched n w with sched := { s.sched with laneRetry := s.sched.laneRetry ++ [w.nextAttempt n] } } : State).takeRetries := by
  have hgo : (s.mismatched n w).blk.frozen = false := (congrArg Blk.frozen (State.strokeStopped_blk hrun hpair)).trans hfrozen
  have hsched : (s.mismatched n w).sched = s.sched := State.strokeStopped_sched hrun hpair
  rw [State.failLane]
  simp only [State.mainLane_unpaired hrun hpair, hrun]
  rw [← State.strokeStopped, State.strokeStopped_capture hn hrun hpair hclass, hgo, if_neg nofun, hsched]
  rfl

end fail

/-- The first waiting retry starts on its spare (R30, R292). -/
theorem State.takeLaneRetry_single {s : State} {w : Run} {m : Nat} {r : Req} (hretry : s.sched.laneRetry = [w]) (hspare : s.spareLane w = some m)
    (hreq : s.req w.id = some r)
    (hplain : opCombined (dOp r.d) = false) : s.takeLaneRetry =
      ({ s.abandonTest m with sched := { s.sched with laneRetry := [] } } : State).setLane m
        { s.lane m with test := false, run := some { w with digest := none } } := by
  simp only [State.takeLaneRetry, hretry, hspare, hreq, hplain, Bool.false_eq_true, false_and, if_false]
  rfl

/-- The reserve takes a retry unless an attempt of the stroke has failed on it (R30). -/
theorem State.spareLane_reserve {s : State} {w : Run} {m : Nat} (hreserve : s.reserve = some m) (hfresh : m ∉ w.failed)
    (hidle : (s.lane m).run = none) (hup : s.islandUp m = true) (hclk : s.clkOk 4 = true) : s.spareLane w = some m := by
  simp [State.spareLane, hreserve, hfresh, hidle, hup, hclk]

theorem State.takeRetries_lane {s t : State} {w : Run} (hlive : s.live = true) (hretry : s.sched.laneRetry = [w]) (hdig : s.sched.digRetry = [])
    (hmove : s.sched.digMove = []) (ht : s.takeLaneRetry = t) (hsched : t.sched = { s.sched with laneRetry := [] }) : s.takeRetries = t := by
  have hone : iterate s.sched.laneRetry.length State.takeLaneRetry s = t := by rw [hretry]; exact ht
  rw [State.takeRetries, if_neg (by simp [hlive]), hone]
  simp [hsched, hdig, hmove, iterate]

/-- Settles O52: the counters of the lane move no other state, so that the commit and the retry read the state the stroke ran in. -/
theorem strokesCommitOrAreRetried : Obligations.StrokesCommitOrAreRetried := by
  refine ⟨?commits, fun s n m w r hlive hn hm hmn hrun hpair hreq hplain hclass => ?_⟩
  case commits =>
    intro s n w r out hlive hclk hbuf hrun hpair hdigest hfailed hfailedDig hout hreq hid hruns harmed harmedBuf hended hcnt
    exact ⟨_, by rw [exec_strokeCommit_lane,
      State.commitLane_goesOn hlive hclk hbuf hrun hpair hdigest hfailed hfailedDig hout hreq hruns harmed harmedBuf hended],
      strokeCommit_effects hrun hpair (hid ▸ hreq) hended hcnt rfl⟩
  have hfrozen : s.blk.frozen = false := by
    simp only [State.live, Bool.and_eq_true, Bool.not_eq_true'] at hlive
    exact hlive.1
  have hexec := exec_duplicateMismatch_lane hn s
  rw [State.failLane_eq hn hrun hpair hclass hfrozen] at hexec
  have hreqs : (s.mismatched n w).reqs = s.reqs := State.strokeStopped_reqs hrun hpair
  have hfab : (s.mismatched n w).fab = s.fab := State.strokeStopped_fab hrun hpair
  have hctx : (s.mismatched n w).ctx = s.ctx := State.strokeStopped_ctx hrun hpair
  have hlane : ((s.mismatched n w).lane n).run = none := State.strokeStopped_lane_self hrun hpair
  refine ⟨fun hattempt hreserve hfresh hidle hup hclk hretry hdig hmove => ?retried, fun hattempt => ?third⟩
  case retried =>
    rw [if_neg (by omega), hretry] at hexec
    have hlive' : (s.mismatched n w).live = true := by
      simpa only [State.live, State.draining, show (s.mismatched n w).blk = s.blk from State.strokeStopped_blk hrun hpair] using hlive
    have hpwr : (s.mismatched n w).pwr = s.pwr := State.strokeStopped_pwr hrun hpair
    have hother : (s.mismatched n w).lane m = s.lane m := State.strokeStopped_lane_ne hrun hpair hmn
    generalize ht : ({ s.mismatched n w with sched := { s.sched with laneRetry := [] ++ [w.nextAttempt n] } } : State) = t at hexec
    have hwaits : t.sched = { s.sched with laneRetry := [w.nextAttempt n] } := ht ▸ rfl
    have hspare : t.spareLane (w.nextAttempt n) = some m :=
      State.spareLane_reserve (ht ▸ (State.strokeStopped_reserve hrun hpair).trans hreserve) (by simpa [Run.nextAttempt, hmn] using hfresh)
        (ht ▸ (congrArg Eng.run hother).trans hidle) (by simpa only [← ht, State.islandUp, State.isl, hpwr] using hup)
        (by simpa only [← ht, State.clkOk, hpwr] using hclk)
    have htaken := State.takeRetries_lane (ht ▸ hlive') (congrArg Sched.laneRetry hwaits) (by rw [hwaits, hdig]) (by rw [hwaits, hmove])
      (State.takeLaneRetry_single (congrArg Sched.laneRetry hwaits) hspare (r := r) (by rw [State.req, ← ht, hreqs]; exact hreq)
        (by simpa [opCombined] using hplain)) rfl
    rw [htaken] at hexec
    refine ⟨_, hexec, ?_, ?_, ?_, ht ▸ hreqs, ht ▸ hfab, ht ▸ hctx⟩
    · rw [State.lane_setLane_ne _ _ hmn.symm]
      exact ht ▸ hlane
    · rw [State.lane_setLane_self]
      simp [Run.nextAttempt, hpair]
    · exact ht ▸ State.mismatched_captured hrun hpair
  case third =>
    rw [if_pos hattempt] at hexec
    refine ⟨_, hexec, ?_, State.capture_mem rfl .., ?_, ?_, ?_⟩
    · rw [State.capture_field (fun t => (t.lane n).run) (fun _ _ => rfl) (fun _ _ => rfl) fun _ _ => rfl, hlane]
    · rw [State.capture_field State.reqs (fun _ _ => rfl) (fun _ _ => rfl) fun _ _ => rfl, hreqs]
    · rw [State.capture_field State.fab (fun _ _ => rfl) (fun _ _ => rfl) fun _ _ => rfl, hfab]
    · rw [State.capture_field State.ctx (fun _ _ => rfl) (fun _ _ => rfl) fun _ _ => rfl, hctx]

end Sys2Proof.Machine
end

section
/-! PROOFS. The operations of the easels: a built-in computation's end, its restart after a failed compare, and the start of a sketch (R18,
R365, R366, R373 to R375, R381 to R383, R392 to R394, R402). -/
namespace Sys2Proof.Machine

/-- Each built-in operation's command runs the operation under its opcode. -/
theorem exec_builtin (id : Nat) : ∀ p ∈ [(Instr.ecdsaVerify id, 0x60), (.eddsaVerify id, 0x61), (.eddsaBatch id, 0x62), (.rsaVerifyPss id, 0x63),
    (.rsaVerifyPkcs1 id, 0x64), (.rsaPublic id, 0x65), (.modexpPublic id, 0x66), (.pointCheck id, 0x67), (.curveLoad id, 0x68)],
    ∀ (agree : Bool) (s : State), exec (p.1 agree) s = .next (s.easelOp p.2 id agree).settle := by
  simp only [List.forall_mem_cons]
  exact ⟨fun _ _ => rfl, fun _ _ => rfl, fun _ _ => rfl, fun _ _ => rfl, fun _ _ => rfl, fun _ _ => rfl, fun _ _ => rfl, fun _ _ => rfl,
    fun _ _ => rfl, nofun⟩

theorem exec_sketchCall (id : Nat) (s : State) : exec (.sketchCall id) s = .next (s.sketchStart id).settle := rfl

-- a run of a built-in computation ---------------------------------------------------------------------------------------------

section run
variable {s : State} {id e op : Nat} {r : Req} {c : Comp} (hlive : s.live = true) (hclk : s.clkOk 6 = true) (hreq : s.req id = some r)
  (hon : s.easelRunning id = some e) (hcomp : (s.easel e).comp = some c) (hruns : s.fnRuns r.f = true)
  (harmed : s.armedChecker ≠ some (0x50 + e)) (harmedWord : s.armedChecker ≠ some 0x57) (hop : dOp r.d = op)
include hlive hclk hreq hon hcomp hruns harmed harmedWord hop

/-- With agreeing duplicates the computation yields, ends, or waits for the digest engine of its hashes (R366, R370, R386). -/
theorem State.easelOp_agrees : s.easelOp op id true =
    if c.part < Config.builtinYields r.d r.inputs (s.recovering e) then
      ((s.builtinRun e r c).setEasel e ((s.easel e).setComp { c with part := c.part + 1 })).skYielded e id
    else if s.checkAgrees e r (s.easelFinish r) = false then s.failEasel e false
    else (s.hashed r (s.easelFinish r)).elim ((s.setEasel e ((s.easel e).setComp { c with hashing := true })).islWake 9)
      fun g => (g.builtinRun e r c).builtinEnd e r (s.easelFinish r) := by
  have heasel : (s.builtinRun e r c).easel e = s.easel e := State.addBusy_easel ..
  simp only [State.easelOp, hreq, hon, hcomp, hop, hlive, hclk, hruns, harmed, State.wordStrike_none harmedWord,
    State.singleStrike_none harmedWord, heasel, ne_eq, not_true_eq_false, or_self, if_false, reduceCtorEq, Bool.not_eq_true]
  cases s.hashed r (s.easelFinish r) <;> rfl

theorem State.easelOp_disagrees : s.easelOp op id false = s.failEasel e false := by
  simp only [State.easelOp, hreq, hon, hcomp, hop, hlive, hclk, hruns, harmed, State.wordStrike_none harmedWord, ne_eq, not_true_eq_false, or_self,
    if_false, reduceCtorEq, Bool.false_eq_true, not_false_eq_true, if_true]

end run

-- its end ---------------------------------------------------------------------------------------------------------------------

/-- An outcome whose destination lies in the windows is written and committed (R18, R366). -/
theorem State.endEasel_written {s : State} {r : Req} {x : Finish} (hwindow : s.dstFail r 0 x.dst.length = none) (e : Nat) : s.endEasel e r x =
    ((((s.setEasel e { s.easel e with running := none }).easelCount e .easelCompCount false).recovered e).writeData r 0 x.dst).commit
      { r with outBytes := x.dst.length, result := x.result, written := x.dst.length } x.status x.detail := by
  simp only [State.endEasel, hwindow]

/-- Only a curve load that succeeds changes a curve (R392, R394). -/
theorem State.builtinEnd_ends {r : Req} {x : Finish} (h : dOp r.d = 0x68 → x.status ≠ stOk) (s : State) (e : Nat) :
    s.builtinEnd e r x = s.endBuiltin e r x := if_neg fun hload => h hload.1 hload.2

-- the boot tables stay --------------------------------------------------------------------------------------------------------

@[simp] theorem State.abandonRun_tables (s : State) (id u : Nat) : (s.abandonRun id u).tables = s.tables := by
  unfold State.abandonRun
  split <;> simp

@[simp] theorem State.easelCount_tables (s : State) (e : Nat) (c : RegName) (sat : Bool) : (s.easelCount e c sat).tables = s.tables := by
  unfold State.easelCount
  split_ifs <;> simp

@[simp] theorem State.recovered_tables (s : State) (e : Nat) : (s.recovered e).tables = s.tables := State.setEasel_tables ..

@[simp] theorem State.writeData_tables (s : State) (r : Req) (off : Nat) (b : Bytes) : (s.writeData r off b).tables = s.tables :=
  foldl_keeps_field State.tables (f := fun t (p : Nat × Bytes) => t.queueWrite p.1 p.2 r.f (.data r.id)) (fun _ _ => rfl) _ s

@[simp] theorem State.freeReq_tables (s : State) (id : Nat) : (s.freeReq id).tables = s.tables := by
  unfold State.freeReq
  dsimp only
  iterate 4 rw [foldl_keeps_field State.tables fun _ _ => by simp]

@[simp] theorem State.chainNote_tables (s : State) (r : Req) : (s.chainNote r).tables = s.tables := by
  unfold State.chainNote
  dsimp only
  split <;> simp

@[simp] theorem State.wakeOnCommit_tables (s : State) (f : Nat) : (s.wakeOnCommit f).tables = s.tables := by
  unfold State.wakeOnCommit
  dsimp only
  split <;> simp

@[simp] theorem State.commit_tables (s : State) (r : Req) (status detail : Nat) : (s.commit r status detail).tables = s.tables := by
  unfold State.commit
  split
  · rfl
  · simp [apply_ite State.tables]

/-- A curve load that succeeds writes the curve after its commit (R394). -/
theorem State.builtinEnd_loads {s : State} {r : Req} (hop : dOp r.d = 0x68) (hwindow : s.dstFail r 0 0 = none) (e : Nat) :
    ∃ u : State, s.builtinEnd e r {} = u.loadCurve r ∧ u.tables = s.tables := by
  refine ⟨_, if_pos ⟨hop, rfl⟩, ?_⟩
  have hrsa : rsaLegacy r.d r.staged = false := by simp [rsaLegacy, hop]
  have hend : s.endBuiltin e r {} = s.endEasel e r {} := by simp [State.endBuiltin, hrsa, stInputReject]
  rw [hend, State.endEasel_written hwindow]
  simp

-- a failed compare ------------------------------------------------------------------------------------------------------------

/-- A register that stands behind another in the map. -/
theorem regKey_ne_of_lt {m n : RegName} {a b i j : Nat} (h : m.ctorIdx < n.ctorIdx) (hab : a * 0x4000 + b < 0x100000 + i * 0x4000 + j) :
    regKey m a b ≠ regKey n i j := by
  unfold regKey
  generalize m.ctorIdx = x, n.ctorIdx = y at h
  omega

theorem State.abandonRun_reg_ne (s : State) (id u : Nat) {m : RegName} {i j : Nat} (h : regKey m i j ≠ busyKey u) :
    (s.abandonRun id u).reg m i j = s.reg m i j := by
  unfold State.abandonRun
  split
  · exact State.addBusy_reg_ne _ _ _ h
  · rfl

theorem State.easelCount_reg_ne (s : State) (e : Nat) (c : RegName) (sat : Bool) {m : RegName} {i j : Nat} (h : regKey m i j ≠ regKey c e 0) :
    (s.easelCount e c sat).reg m i j = s.reg m i j := by
  unfold State.easelCount
  split_ifs
  · rfl
  · exact State.reg_setReg_ne _ _ h
  · exact State.reg_setReg_ne _ _ h

/-- The counters of an easel stand behind the registers of the events and of the recovery mode. -/
theorem State.failed_reg (s : State) (id e : Nat) {m : RegName} {j : Nat} (hj : j ≤ 0x50 + e) (hm : m.ctorIdx ≤ RegName.easelRecover.ctorIdx) :
    ((s.abandonRun id (13 + e)).easelCount e .easelRetryCount true).reg m 0 j = s.reg m 0 j := by
  have hretry : RegName.easelRecover.ctorIdx < RegName.easelRetryCount.ctorIdx := by decide
  have hbusy : RegName.easelRecover.ctorIdx < RegName.easelBusyCount.ctorIdx := by decide
  rw [State.easelCount_reg_ne _ _ _ _ (regKey_ne_of_lt (hm.trans_lt hretry) (by omega)), State.abandonRun_reg_ne]
  have hkey : busyKey (13 + e) = regKey .easelBusyCount e 0 := by
    simp only [busyKey, show ¬ 13 + e < 9 by omega, show ¬ 13 + e < 13 by omega, if_false, Nat.add_sub_cancel_left]
  rw [hkey]
  exact regKey_ne_of_lt (hm.trans_lt hbusy) (by omega)

@[simp] theorem State.abandonRun_easels (s : State) (id u : Nat) : (s.abandonRun id u).easels = s.easels := by
  unfold State.abandonRun
  split <;> simp

@[simp] theorem State.easelCount_easels (s : State) (e : Nat) (c : RegName) (sat : Bool) : (s.easelCount e c sat).easels = s.easels := by
  unfold State.easelCount
  split_ifs <;> simp

@[simp] theorem State.markRetried_easels (s : State) (id : Nat) : (s.markRetried id).easels = s.easels := by
  unfold State.markRetried
  split <;> simp

/-- The state after the failed compare of computation `c` on easel `e` has been captured (R381 to R383). -/
def State.compareCaptured (s : State) (e : Nat) (c : Comp) : State :=
  (((s.abandonRun c.id (13 + e)).compareFailed e).capture (0x50 + e)).markRetried c.id

theorem State.compareCaptured_easel (s : State) (e : Nat) (c : Comp) :
    (s.compareCaptured e c).easel e = { s.easel e with recover := fld (s.reg .easelRecover) 8 0 } := by
  have hrecover := s.failed_reg c.id e (m := .easelRecover) (j := 0) (by omega) le_rfl
  have heasel : ((s.abandonRun c.id (13 + e)).easelCount e .easelRetryCount true).easel e = s.easel e := by simp [State.easel]
  rw [State.easel, State.compareCaptured, State.markRetried_easels,
    State.capture_field State.easels (fun _ _ => rfl) (fun _ _ => rfl) fun _ _ => rfl]
  exact (State.easel_setEasel_self ..).trans (by rw [hrecover, heasel])

theorem State.compareCaptured_blk {s : State} {e : Nat} (hclass : s.faultClass (0x50 + e) < 4) (c : Comp) :
    (s.compareCaptured e c).blk = s.blk := by
  have hreact := s.failed_reg c.id e (m := .fltReact) (j := 0x50 + e) le_rfl (by decide)
  have hsame : ((s.abandonRun c.id (13 + e)).compareFailed e).faultClass (0x50 + e) = s.faultClass (0x50 + e) :=
    State.faultClass_congr (by rw [State.compareFailed, State.setEasel_reg, hreact])
  rw [State.compareCaptured, State.markRetried_blk, State.capture_blk (by omega)]
  simp

/-- After the first failed compare the computation runs again from its inputs, in recovery mode (R382, R383). -/
theorem State.failEasel_first {s : State} {e : Nat} {c : Comp} (hcomp : (s.easel e).comp = some c) (hattempt : c.attempt = 1) (hcx : c.cx = none)
    (hfrozen : s.blk.frozen = false) (hclass : s.faultClass (0x50 + e) < 4) : (s.failEasel e false).easel e =
      { s.easel e with
        recover := fld (s.reg .easelRecover) 8 0
        comps := (s.easel e).comps.map (fun y => if y.id = c.id ∧ ¬ y.dead then
          { id := c.id, f := c.f, entry := c.entry, attempt := 2, pages := c.pages } else y) } := by
  have hgo : (s.compareCaptured e c).blk.frozen = false := by rw [State.compareCaptured_blk hclass, hfrozen]
  have hfail : s.failEasel e false = (s.compareCaptured e c).setEasel e (((s.compareCaptured e c).easel e).restart c) := by
    simp only [State.failEasel, hcomp]
    rw [← State.compareCaptured, hgo, if_neg nofun, if_pos hattempt]
  rw [hfail, State.easel_setEasel_self, State.compareCaptured_easel]
  simp [Easel.restart, hattempt, hcx]

theorem State.sketchStart_starts {s : State} {id e i : Nat} {r : Req} {c : Comp} (hreq : s.req id = some r) (hon : s.easelRunning id = some e)
    (hcomp : (s.easel e).comp = some c) (hentry : c.entry = some i) (hlive : s.live = true) (hclk : s.clkOk 6 = true) (hruns : s.fnRuns r.f = true)
    (hsegs : c.segs = []) : s.sketchStart id = s.setEasel e ((s.easel e).setComp
      { (Comp.start c.id c.f c.attempt i (libEntryB s.tables.library i) r.param) with pages := c.pages }) := by
  simp [State.sketchStart, hreq, hon, hcomp, hentry, hlive, hclk, hruns, hsegs]

/-- Settles O53: the run, the end and the restart of a built-in computation, and the start of a sketch, each by its own rule. -/
theorem easelOperationsEndRestartAndStart : Obligations.EaselOperationsEndRestartAndStart := by
  refine ⟨fun s id e r c hlive hclk hreq hon hcomp hruns harmed harmedWord p hp hop => ⟨?run, ?ends, ?load, ?fails⟩,
    fun s r e => ⟨fun h => by simp [State.easelFinish, h], fun h => by simp [State.easelFinish, h], ?restart, ?sketch⟩⟩
  case run =>
    rintro _ rfl
    rw [exec_builtin id p hp, State.easelOp_agrees hlive hclk hreq hon hcomp hruns harmed harmedWord hop]
    cases s.hashed r (s.easelFinish r) <;> rfl
  case ends =>
    rintro g a b t x hx rfl rfl hwindow rfl
    rw [State.builtinEnd_ends (fun h => hx (hop.symm.trans h))]
    exact State.endEasel_written hwindow e
  case load => exact fun h hwindow => State.builtinEnd_loads (hop.trans h) hwindow e
  case fails => rw [exec_builtin id p hp, State.easelOp_disagrees hlive hclk hreq hon hcomp hruns harmed harmedWord hop]
  case restart =>
    intro c hcomp hattempt hcx hfrozen hclass
    have heasel := State.failEasel_first hcomp hattempt hcx hfrozen hclass
    exact ⟨_, rfl, by rw [heasel], by rw [heasel]⟩
  case sketch =>
    intro id i c hreq hon hcomp hentry hlive hclk hruns hsegs
    rw [exec_sketchCall, State.sketchStart_starts hreq hon hcomp hentry hlive hclk hruns hsegs]

end Sys2Proof.Machine
end

section
/-! PROOFS. Background activities: the rotation of the reserve, the field test, the ageing measurement and the telemetry snapshot (R25, R36,
R532, R534, R545, R546, R549). -/
namespace Sys2Proof.Machine

theorem exec_rotation (s : State) : exec .rotation s = .next s.rotation.settle := rfl

theorem exec_fieldSelfTest (s : State) : exec .fieldSelfTest s = .next s.fieldTest.settle := rfl

theorem exec_ageMeasurement (u : Nat) (slack : BitVec 10) (s : State) :
    exec (.ageMeasurement u slack) s = .next (s.ageMeasure u slack.toNat).settle := rfl

theorem exec_telemetrySnapshot (f : Nat) (s : State) : exec (.telemetrySnapshot f) s = .next (s.telemetry f).settle := rfl

-- rotation --------------------------------------------------------------------------------------------------------------------

/-- The block after the reserve role has passed from lane `m` to the idle lane `n` (R36). -/
def State.rolePassed (s : State) (m n : Nat) : State := { s.handBanks n m with reserve := some n, sched := { s.sched with rotate := false } }

/-- The block after lane `n` has begun its field test (R546). -/
def State.fieldTested (s : State) (n : Nat) : State :=
  ({ s with bist := { s.bist with field := s.bist.field ++ [(n, fieldTests)] }
            blk := { s.blk with toMeasure := s.blk.toMeasure.filter (· != n) ++ [n] } } : State).setTest n true

section fieldTested
variable {s : State} {n : Nat} (hn : n < 9)
include hn

theorem State.fieldTested_eq : s.fieldTested n = ({ s with
    bist := { s.bist with field := s.bist.field ++ [(n, fieldTests)] }
    blk := { s.blk with toMeasure := s.blk.toMeasure.filter (· != n) ++ [n] } } : State).setLane n { s.lane n with test := true } := if_pos hn

theorem State.fieldTested_reqs : (s.fieldTested n).reqs = s.reqs := by rw [State.fieldTested_eq hn]; rfl

theorem State.fieldTested_reserve : (s.fieldTested n).reserve = s.reserve := by rw [State.fieldTested_eq hn]; rfl

theorem State.fieldTested_lane_self : (s.fieldTested n).lane n = { s.lane n with test := true } := by
  rw [State.fieldTested_eq hn, State.lane_setLane_self]

theorem State.fieldTested_lane_ne {m : Nat} (hm : m ≠ n) : (s.fieldTested n).lane m = s.lane m := by
  rw [State.fieldTested_eq hn, State.lane_setLane_ne _ _ hm]
  rfl

end fieldTested

/-- The lane that has taken the reserve role is tested where field tests of lanes are enabled (R36, R546). -/
theorem State.rotateNow_moved {s t : State} {n : Nat} (ht : s.rotate = t) (hrole : t.reserve = some n) (hmoved : t.reserve ≠ s.reserve) :
    s.rotateNow = if bitOf (t.reg .bistFieldCfg) 31 then t.fieldTested n else t := by
  rw [State.rotateNow, ht]
  dsimp only
  rw [if_neg hmoved]
  simp only [hrole, State.fieldTested]

section rotation
variable {s : State} {m n : Nat} (hlive : s.live = true) (hst : s.blk.st = .service) (hreserve : s.reserve = some m) (hn : n = (m + 1) % 9)
  (hkept : ∀ u < 9, s.retired u = false)
include hreserve hn hkept

theorem State.rotate_waits (hrun : (s.lane n).run ≠ none) : s.rotate = { s with sched := { s.sched with rotate := true } } := by
  have hin : (List.range 9).any s.retired = false := by simpa using hkept
  have hbusy : (s.lane n).run.isSome = true := Option.isSome_iff_ne_none.mpr hrun
  simp only [State.rotate, hreserve, ← hn, hin, hbusy, true_or, or_true, if_true, Bool.false_eq_true, if_false]

theorem State.rotate_passes (hretry : s.sched.laneRetry = []) (hnew : s.lane n = {}) (hold : s.lane m = {}) : s.rotate = s.rolePassed m n := by
  have hin : ¬ (List.range 9).any s.retired = true := by simpa using hkept
  have hidle : ¬ (s.sched.laneRetry ≠ [] ∨ (s.lane n).run.isSome ∨ (s.lane m).run.isSome ∨ (s.lane m).test ∨ (s.lane n).test) := by
    simp [hretry, hnew, hold]
  simp only [State.rotate, hreserve, ← hn, if_neg hin, if_neg hidle, State.rolePassed]

include hlive hst

theorem State.rotation_waits (hrun : (s.lane n).run ≠ none) : s.rotation = { s with sched := { s.sched with rotate := true } } := by
  rw [State.rotation, if_neg (by simp [hlive, hst]), State.rotateNow, State.rotate_waits hreserve hn hkept hrun]
  exact if_pos rfl

/-- An idle lane takes the role, and is tested where that is enabled. -/
theorem State.rotation_passes (hnm : n ≠ m) (hretry : s.sched.laneRetry = []) (hnew : s.lane n = {}) (hold : s.lane m = {}) :
    s.rotation = if bitOf (s.reg .bistFieldCfg) 31 then (s.rolePassed m n).fieldTested n else s.rolePassed m n := by
  have hcfg : (s.rolePassed m n).reg .bistFieldCfg = s.reg .bistFieldCfg := by simp [State.reg, State.rolePassed, State.handBanks]
  rw [State.rotation, if_neg (by simp [hlive, hst]), ← hcfg]
  exact State.rotateNow_moved (State.rotate_passes hreserve hn hkept hretry hnew hold) rfl (by simpa [State.rolePassed, hreserve] using hnm)

end rotation

section passed
variable {s : State} {m n : Nat} (hnm : n ≠ m)
include hnm

theorem State.rolePassed_lane_new (hnew : s.lane n = {}) : (s.rolePassed m n).lane n = {} := by
  have hbanked : (s.setLane m { s.lane m with banks := (s.lane m).banks ++ (s.lane n).banks }).lane n = {} :=
    (State.lane_setLane_ne _ _ hnm).trans hnew
  refine (State.lane_setLane_self ..).trans ?_
  rw [hbanked]

theorem State.rolePassed_lane_old (hold : s.lane m = {}) : ((s.rolePassed m n).lane m).test = false := by
  refine (congrArg Eng.test ((State.lane_setLane_ne _ _ hnm.symm).trans (State.lane_setLane_self ..))).trans ?_
  rw [hold]

end passed

-- a field test ----------------------------------------------------------------------------------------------------------------

/-- The first unit whose turn comes after the lanes is digest engine 0 (R546). -/
theorem State.fieldUnits_first {s : State} (hlast : s.bist.lastField < 9) (hkept : s.retired 9 = false)
    (henabled : bitOf (s.reg .bistFieldCfg) 30 = true) : s.fieldUnits.find? (fun u => decide (s.bist.lastField < u)) = some 9 := by
  unfold State.fieldUnits
  rw [List.find?_filter, List.find?_range_eq_some]
  refine ⟨by simp [hkept, henabled, hlast], by decide, fun u hu => ?_⟩
  simp [Nat.not_le.mpr hu]

theorem State.fieldTest_digest {s : State} (hlive : s.live = true) (hst : s.blk.st = .service) (hfield : s.bist.field = [])
    (hlast : s.bist.lastField < 9) (hkept : s.retired 9 = false) (henabled : bitOf (s.reg .bistFieldCfg) 30 = true) : s.fieldTest =
      ({ s with bist := { s.bist with field := [(9, [1, 0, 2])], lastField := 9 } } : State).setDig 0 { s.dig 0 with test := true } := by
  rw [State.fieldTest, if_neg (by simp [hlive, hst, hfield])]
  simp only [State.fieldUnits_first hlast hkept henabled, hfield]
  rfl

-- an ageing measurement -------------------------------------------------------------------------------------------------------

/-- What every write of the tally store keeps, `t` has kept of `s`. -/
def State.TallyKept (s t : State) : Prop := ∀ P : State → Prop, TallyInv P → P s → P t

theorem tallyInv_st (x : BlkState) : TallyInv (fun s => s.blk.st = x) where
  captured _ _ hs := hs
  port _ _ hs := hs
  frozen _ hs := hs
  tly _ _ _ hs := hs
  fns _ _ hs := hs
  gen _ _ _ hs := hs
  warmup s hs := by
    rw [State.enterWarmup_blk]
    exact (congrArg Blk.st (show s.usable.blk = s.blk by unfold State.usable; split <;> rfl)).trans hs

section kept
variable {s t : State} (h : s.TallyKept t)
include h

theorem State.TallyKept.cells : t.tly.cells = s.tly.cells := h _ (tallyInv_cells _) rfl

theorem State.TallyKept.st : t.blk.st = s.blk.st := h _ (tallyInv_st _) rfl

theorem State.TallyKept.reqs : t.reqs = s.reqs :=
  h _ (TallyInv.of_field (field := State.reqs) _ (fun _ _ => rfl) (fun _ _ => rfl) (fun _ _ => rfl) (fun _ _ _ => rfl) (fun _ _ => rfl)
    (fun _ _ => rfl) (fun _ _ => rfl) (fun _ _ => rfl) fun s => by unfold State.usable; split <;> rfl) rfl

theorem State.TallyKept.regs : t.regs = s.regs :=
  h _ (TallyInv.of_field (field := State.regs) _ (fun _ _ => rfl) (fun _ _ => rfl) (fun _ _ => rfl) (fun _ _ _ => rfl) (fun _ _ => rfl)
    (fun _ _ => rfl) (fun _ _ => rfl) (fun _ _ => rfl) fun s => by unfold State.usable; split <;> rfl) rfl

theorem State.TallyKept.ageLow : t.ageLow = s.ageLow := by rw [State.ageLow, State.reg, h.regs]; rfl

end kept

/-- A measurement with slack to spare writes its anchors and records the slack, and plans nothing (R532, R534). -/
theorem State.measure_spare {s : State} {u slack : Nat} (hkept : s.retired u = false) (hslack : s.ageLow ≤ slack) :
    ∃ (t : State) (y : AgeU) (x : Option (Nat × Nat)), s.TallyKept t ∧
      s.measure u slack = { t.setAgeU u y with blk := { t.blk with ageEnd := x } } ∧
      y.valid = true ∧ y.slack = slack ∧ y.hour4 = s.lifeHours / 4 ∧ y.step = (s.ageU u).step := by
  have hwritten (p c : Word) : s.TallyKept ((s.tlyWrite (193 + 2 * u) p 4 [.plan]).tlyWrite (192 + 2 * u) c 4 [.plan]) :=
    fun P hP hs => hP.write (hP.write hs ..) ..
  have hplain {t : State} (ht : s.TallyKept t) : ¬ slack < t.ageLow := Nat.not_lt.mpr (ht.ageLow.trans_le hslack)
  unfold State.measure
  rw [if_neg (by simp [hkept])]
  dsimp only
  split
  next =>
    have ht : s.TallyKept s := fun _ _ hs => hs
    exact ⟨s, _, _, ht, if_neg (hplain ht), rfl, rfl, rfl, rfl⟩
  next p c _ =>
    have ht := hwritten p c
    generalize (s.tlyWrite (193 + 2 * u) p 4 [.plan]).tlyWrite (192 + 2 * u) c 4 [.plan] = t at ht ⊢
    exact ⟨t, _, _, ht, if_neg (hplain ht), rfl, rfl, rfl, rfl⟩

section measurement
variable {s : State} {u : Nat} (hlive : s.live = true) (hst : s.blk.st = .service) (hu : u ≤ 18) (hkept : s.retired u = false)
  (hidle : u < 17 → s.unitIdle u = true) (hturn : s.laneTurn u = true) (hup : s.islandUp (unitIsland u) = true)
include hlive hst hu hkept hidle hturn hup

theorem State.ageMeasure_taken : ¬ (¬ s.live ∨ 18 < u ∨ s.retired u ∨ (u < 17 ∧ ¬ s.unitIdle u) ∨ ¬ s.laneTurn u ∨
    ¬ (s.blk.st = .service ∨ 5 ≤ s.blk.phase) ∨ ¬ s.islandUp (unitIsland u)) := by
  simpa [hlive, hkept, hturn, hst, hup] using And.intro hu hidle

theorem State.ageMeasure_waits (hclk : s.clkOk (unitClock u) = false) (slack : Nat) : s.ageMeasure u slack = s.bgAsk (unitClock u) := by
  rw [State.ageMeasure, if_neg (State.ageMeasure_taken hlive hst hu hkept hidle hturn hup), if_pos (by simp [hclk])]

/-- Outside the start a measurement leads to no next phase (R532). -/
theorem State.ageMeasure_spare {slack : Nat} (hclk : s.clkOk (unitClock u) = true) (hslack : s.ageLow ≤ slack) :
    ∃ t : State, s.ageMeasure u slack = t ∧ (t.ageU u).valid = true ∧ (t.ageU u).slack = slack ∧ (t.ageU u).hour4 = s.lifeHours / 4 ∧
      (t.ageU u).step = (s.ageU u).step ∧ t.reqs = s.reqs ∧ t.tly.cells = s.tly.cells := by
  obtain ⟨t, y, x, ht, hmeasure, hvalid, hrecorded, hhour, hstep⟩ :=
    State.measure_spare (s := s.bgDone (unitClock u)) (u := u) (slack := slack) hkept hslack
  have hservice : t.blk.st = .service := ht.st.trans hst
  rw [State.ageMeasure, if_neg (State.ageMeasure_taken hlive hst hu hkept hidle hturn hup), if_neg (by simp [hclk])]
  dsimp only
  rw [hmeasure, State.startAdvance]
  dsimp only
  rw [if_pos (.inr (.inl (by simp [hservice])))]
  have hage : (t.setAgeU u y).ageU u = y := State.ageU_setAgeU_self ..
  exact ⟨_, rfl, (congrArg AgeU.valid hage).trans hvalid, (congrArg AgeU.slack hage).trans hrecorded, (congrArg AgeU.hour4 hage).trans hhour,
    (congrArg AgeU.step hage).trans hstep, ht.reqs, ht.cells⟩

end measurement

-- the telemetry page ----------------------------------------------------------------------------------------------------------

/-- `t` differs from `s` in its registers alone. -/
def State.OnlyRegs (s t : State) : Prop := t = { s with regs := t.regs }

theorem State.OnlyRegs.setReg {s t : State} (h : s.OnlyRegs t) (n : RegName) (i j : Nat) (v : Word) : s.OnlyRegs (t.setReg n i j v) := by
  unfold State.OnlyRegs State.setReg at *
  rw [h]

theorem State.OnlyRegs.foldl_setReg {α : Type} {s t : State} {n : RegName} {i : Nat} {j : α → Nat} {v : α → Word} (h : s.OnlyRegs t)
    (l : List α) : s.OnlyRegs (l.foldl (fun s x => s.setReg n i (j x) (v x)) t) := by
  induction l generalizing t with
  | nil => exact h
  | cons x l ih => exact ih (h.setReg n i (j x) (v x))

theorem foldl_setReg_reg_ne {α : Type} (s : State) {m : RegName} {a b : Nat} {n : RegName} {i : Nat} {j : α → Nat} {v : α → Word} (l : List α)
    (h : ∀ x, regKey m a b ≠ regKey n i (j x)) : (l.foldl (fun s x => s.setReg n i (j x) (v x)) s).reg m a b = s.reg m a b :=
  foldl_keeps_field (f := fun s x => s.setReg n i (j x) (v x)) (fun u => u.reg m a b) (fun _ x => State.reg_setReg_ne _ _ (h x)) l s

/-- The state with the function's own words of its telemetry page written, before those of its rings (R549). -/
def State.telemetryWords (s : State) (f : Nat) : State :=
  let x := s.fn f
  let put := fun (s : State) (r : RegName) (v : Nat) => s.setReg r f 0 (BitVec.ofNat 32 v)
  let s := put s .telSeq ((s.reg .telSeq f).toNat + 1)
  let s := put (put s .telTimeLo s.now) .telTimeHi (s.now / 2 ^ 32)
  let s := telRegs.foldl (fun s r => put s r.1 (x.live.getD r.2 0)) s
  put (put s .telBytesLo x.liveBytes) .telBytesHi (x.liveBytes / 2 ^ 32)

theorem State.telemetry_snapshot {s : State} {f : Nat} (hlive : s.live = true) (hst : s.blk.st = .service) (hf : f ≤ 16) (hrun : s.Running f)
    (hperiod : fld (s.reg .bgCfg) 31 16 ≠ 0) : s.telemetry f = ((s.telemetryWords f).rings.filter (fun e => ringF e.1 == f)).foldl
      (fun (s : State) e => s.setReg .telRingDone f (ringN e.1) (BitVec.ofNat 32 e.2.telDone)) (s.telemetryWords f) := by
  obtain ⟨henabled, hhalted, hresetting⟩ := hrun
  exact if_neg (by simp [hlive, hst, hf, henabled, hhalted, hresetting, hperiod])

theorem State.telemetryWords_onlyRegs (s : State) (f : Nat) : s.OnlyRegs (s.telemetryWords f) := by
  have hsame : s.OnlyRegs s := rfl
  simp only [State.telemetryWords, telRegs, List.foldl_cons, List.foldl_nil]
  repeat' apply State.OnlyRegs.setReg
  exact hsame

/-- The words of the page that stand before those of the rings (R549). -/
theorem State.telemetryWords_reg (s : State) (f : Nat) : let t := s.telemetryWords f
    t.reg .telSeq f = s.reg .telSeq f + 1 ∧ t.reg .telTimeLo f = BitVec.ofNat 32 s.now ∧
      t.reg .telDone f = BitVec.ofNat 32 ((s.fn f).live.getD 0 0) ∧ t.reg .telOther f = BitVec.ofNat 32 ((s.fn f).live.getD 7 0) ∧
      t.reg .telBytesLo f = BitVec.ofNat 32 (s.fn f).liveBytes := by
  have hseq : BitVec.ofNat 32 ((s.reg .telSeq f).toNat + 1) = s.reg .telSeq f + 1 := by
    rw [BitVec.ofNat_add, BitVec.ofNat_toNat, BitVec.setWidth_eq]
    rfl
  simp [State.telemetryWords, telRegs, State.setReg_reg_sameIndex, State.now, hseq]

theorem State.telemetry_reg {s : State} {f : Nat} {m : RegName} (hm : m.ctorIdx < RegName.telRingDone.ctorIdx) (l : List (Nat × Ring)) :
    (l.foldl (fun (s : State) e => s.setReg .telRingDone f (ringN e.1) (BitVec.ofNat 32 e.2.telDone)) s).reg m f = s.reg m f :=
  foldl_setReg_reg_ne s l fun _ => regKey_ne_of_lt hm (by omega)

/-- Settles O46: each activity by the rule of its own, once what it waits for has come. -/
theorem backgroundActivities : Obligations.BackgroundActivities := by
  refine fun s hlive hst => ⟨fun m n hreserve hm hn hkept hretry => ⟨fun hnew hold => ?passes, fun hrun => ?waits⟩,
    fun hfield hlast hkept henabled => ?test, fun u slack hu hkept hidle hturn hup hclk hslack => ?spare,
    fun u slack hu hkept hidle hturn hup hclk => ?clock, fun f hf hrun hperiod => ?snapshot⟩
  case passes =>
    have hnine : n < 9 := by omega
    have hnm : n ≠ m := by omega
    have hlane := State.rolePassed_lane_new hnm hnew
    have hfreed := State.rolePassed_lane_old hnm hold
    refine ⟨_, by rw [exec_rotation, State.rotation_passes hlive hst hreserve hn hkept hnm hretry hnew hold], ?_⟩
    split
    next htest => exact ⟨State.fieldTested_reserve hnine, by rw [State.fieldTested_lane_self hnine, htest],
      by rw [State.fieldTested_lane_ne hnine hnm.symm, hfreed], State.fieldTested_reqs hnine⟩
    next htest => exact ⟨rfl, by rw [hlane, Bool.eq_false_of_not_eq_true htest], hfreed, rfl⟩
  case waits => rw [exec_rotation, State.rotation_waits hlive hst hreserve hn hkept hrun]
  case test => rw [exec_fieldSelfTest, State.fieldTest_digest hlive hst hfield hlast hkept henabled]
  case spare =>
    obtain ⟨t, ht, hrest⟩ := State.ageMeasure_spare hlive hst hu hkept hidle hturn hup hclk hslack
    exact ⟨t, by rw [exec_ageMeasurement, ht], hrest⟩
  case clock => rw [exec_ageMeasurement, State.ageMeasure_waits hlive hst hu hkept hidle hturn hup hclk]
  case snapshot =>
    obtain ⟨hseq, htime, hdone, hother, hbytes⟩ := s.telemetryWords_reg f
    refine ⟨_, by rw [exec_telemetrySnapshot, State.telemetry_snapshot hlive hst hf hrun hperiod], ?_, ?_, ?_, ?_, ?_,
      (s.telemetryWords_onlyRegs f).foldl_setReg _⟩
    · exact (State.telemetry_reg (by decide) _).trans hseq
    · exact (State.telemetry_reg (by decide) _).trans htime
    · exact (State.telemetry_reg (by decide) _).trans hdone
    · exact (State.telemetry_reg (by decide) _).trans hother
    · exact (State.telemetry_reg (by decide) _).trans hbytes

end Sys2Proof.Machine
end
